-- ==== Sys2Proof/Word.lean ====
section
/-! DEFINITION. The word types: what the manual treats as bits (characters of a frame, the CRC, the status word). -/

namespace Sys2Proof

/-- One character of a station link (R1), one byte of a frame (R174). -/
abbrev Byte := BitVec 8

/-- The 16-bit check value of a frame (R1). -/
abbrev Crc := BitVec 16

/-- The 4-byte status word of a response (R177). -/
abbrev StatusWord := BitVec 32

end Sys2Proof
end

