-- ==== Sys2Proof/Index.lean ====
section
/-! DEFINITION. What the rack has several of (bays, links, arms, channels, additive types, discrete inputs), and for each
the record that holds one value per member. -/

namespace Sys2Proof

/-- The two loading bays (00, The loading rack). -/
inductive Bay where
  | bayA | bayB
deriving DecidableEq, Repr

/-- Every member, in the manual's order. -/
def Bay.all : List Bay := [.bayA, .bayB]

/-- Its number in the manual. -/
def Bay.toNat : Bay → Nat
  | .bayA => 0
  | .bayB => 1

/-- The member of a number, or none. -/
def Bay.ofNat? : Nat → Option Bay
  | 0 => some .bayA
  | 1 => some .bayB
  | _ => none

/-- One value per bay. -/
structure PerBay (α : Type) where
  bayA : α
  bayB : α
deriving DecidableEq, Repr

/-- The value of one member. -/
def PerBay.get {α : Type} (v : PerBay α) : Bay → α
  | .bayA => v.bayA
  | .bayB => v.bayB

/-- The record with one member's value replaced. -/
def PerBay.set {α : Type} (v : PerBay α) (i : Bay) (x : α) : PerBay α :=
  match i with
  | .bayA => { v with bayA := x }
  | .bayB => { v with bayB := x }

/-- The record with one member's value changed by `f`. -/
def PerBay.modify {α : Type} (v : PerBay α) (i : Bay) (f : α → α) : PerBay α :=
  v.set i (f (v.get i))

/-- The record built member by member. -/
def PerBay.tabulate {α : Type} (f : Bay → α) : PerBay α :=
  { bayA := f .bayA, bayB := f .bayB }

/-- The same value for every member. -/
def PerBay.const {α : Type} (x : α) : PerBay α :=
  .tabulate fun _ => x

/-- The four station links SL0 to SL3. -/
inductive Link where
  | sl0 | sl1 | sl2 | sl3
deriving DecidableEq, Repr

/-- Every member, in the manual's order. -/
def Link.all : List Link := [.sl0, .sl1, .sl2, .sl3]

/-- Its number in the manual. -/
def Link.toNat : Link → Nat
  | .sl0 => 0
  | .sl1 => 1
  | .sl2 => 2
  | .sl3 => 3

/-- The member of a number, or none. -/
def Link.ofNat? : Nat → Option Link
  | 0 => some .sl0
  | 1 => some .sl1
  | 2 => some .sl2
  | 3 => some .sl3
  | _ => none

/-- One value per station link. -/
structure PerLink (α : Type) where
  sl0 : α
  sl1 : α
  sl2 : α
  sl3 : α
deriving DecidableEq, Repr

/-- The value of one member. -/
def PerLink.get {α : Type} (v : PerLink α) : Link → α
  | .sl0 => v.sl0
  | .sl1 => v.sl1
  | .sl2 => v.sl2
  | .sl3 => v.sl3

/-- The record with one member's value replaced. -/
def PerLink.set {α : Type} (v : PerLink α) (i : Link) (x : α) : PerLink α :=
  match i with
  | .sl0 => { v with sl0 := x }
  | .sl1 => { v with sl1 := x }
  | .sl2 => { v with sl2 := x }
  | .sl3 => { v with sl3 := x }

/-- The record with one member's value changed by `f`. -/
def PerLink.modify {α : Type} (v : PerLink α) (i : Link) (f : α → α) : PerLink α :=
  v.set i (f (v.get i))

/-- The record built member by member. -/
def PerLink.tabulate {α : Type} (f : Link → α) : PerLink α :=
  { sl0 := f .sl0, sl1 := f .sl1, sl2 := f .sl2, sl3 := f .sl3 }

/-- The same value for every member. -/
def PerLink.const {α : Type} (x : α) : PerLink α :=
  .tabulate fun _ => x

/-- The four loading arms; an arm's meter, valve and probe carry its number. -/
inductive Arm where
  | arm0 | arm1 | arm2 | arm3
deriving DecidableEq, Repr

/-- Every member, in the manual's order. -/
def Arm.all : List Arm := [.arm0, .arm1, .arm2, .arm3]

/-- Its number in the manual. -/
def Arm.toNat : Arm → Nat
  | .arm0 => 0
  | .arm1 => 1
  | .arm2 => 2
  | .arm3 => 3

/-- The member of a number, or none. -/
def Arm.ofNat? : Nat → Option Arm
  | 0 => some .arm0
  | 1 => some .arm1
  | 2 => some .arm2
  | 3 => some .arm3
  | _ => none

/-- One value per arm. -/
structure PerArm (α : Type) where
  arm0 : α
  arm1 : α
  arm2 : α
  arm3 : α
deriving DecidableEq, Repr

/-- The value of one member. -/
def PerArm.get {α : Type} (v : PerArm α) : Arm → α
  | .arm0 => v.arm0
  | .arm1 => v.arm1
  | .arm2 => v.arm2
  | .arm3 => v.arm3

/-- The record with one member's value replaced. -/
def PerArm.set {α : Type} (v : PerArm α) (i : Arm) (x : α) : PerArm α :=
  match i with
  | .arm0 => { v with arm0 := x }
  | .arm1 => { v with arm1 := x }
  | .arm2 => { v with arm2 := x }
  | .arm3 => { v with arm3 := x }

/-- The record with one member's value changed by `f`. -/
def PerArm.modify {α : Type} (v : PerArm α) (i : Arm) (f : α → α) : PerArm α :=
  v.set i (f (v.get i))

/-- The record built member by member. -/
def PerArm.tabulate {α : Type} (f : Arm → α) : PerArm α :=
  { arm0 := f .arm0, arm1 := f .arm1, arm2 := f .arm2, arm3 := f .arm3 }

/-- The same value for every member. -/
def PerArm.const {α : Type} (x : α) : PerArm α :=
  .tabulate fun _ => x

/-- The eight additive injector channels (R132). -/
inductive Channel where
  | ch0 | ch1 | ch2 | ch3 | ch4 | ch5 | ch6 | ch7
deriving DecidableEq, Repr

/-- Every member, in the manual's order. -/
def Channel.all : List Channel := [.ch0, .ch1, .ch2, .ch3, .ch4, .ch5, .ch6, .ch7]

/-- Its number in the manual. -/
def Channel.toNat : Channel → Nat
  | .ch0 => 0
  | .ch1 => 1
  | .ch2 => 2
  | .ch3 => 3
  | .ch4 => 4
  | .ch5 => 5
  | .ch6 => 6
  | .ch7 => 7

/-- The member of a number, or none. -/
def Channel.ofNat? : Nat → Option Channel
  | 0 => some .ch0
  | 1 => some .ch1
  | 2 => some .ch2
  | 3 => some .ch3
  | 4 => some .ch4
  | 5 => some .ch5
  | 6 => some .ch6
  | 7 => some .ch7
  | _ => none

/-- One value per injector channel. -/
structure PerChannel (α : Type) where
  ch0 : α
  ch1 : α
  ch2 : α
  ch3 : α
  ch4 : α
  ch5 : α
  ch6 : α
  ch7 : α
deriving DecidableEq, Repr

/-- The value of one member. -/
def PerChannel.get {α : Type} (v : PerChannel α) : Channel → α
  | .ch0 => v.ch0
  | .ch1 => v.ch1
  | .ch2 => v.ch2
  | .ch3 => v.ch3
  | .ch4 => v.ch4
  | .ch5 => v.ch5
  | .ch6 => v.ch6
  | .ch7 => v.ch7

/-- The record with one member's value replaced. -/
def PerChannel.set {α : Type} (v : PerChannel α) (i : Channel) (x : α) : PerChannel α :=
  match i with
  | .ch0 => { v with ch0 := x }
  | .ch1 => { v with ch1 := x }
  | .ch2 => { v with ch2 := x }
  | .ch3 => { v with ch3 := x }
  | .ch4 => { v with ch4 := x }
  | .ch5 => { v with ch5 := x }
  | .ch6 => { v with ch6 := x }
  | .ch7 => { v with ch7 := x }

/-- The record with one member's value changed by `f`. -/
def PerChannel.modify {α : Type} (v : PerChannel α) (i : Channel) (f : α → α) : PerChannel α :=
  v.set i (f (v.get i))

/-- The record built member by member. -/
def PerChannel.tabulate {α : Type} (f : Channel → α) : PerChannel α :=
  { ch0 := f .ch0, ch1 := f .ch1, ch2 := f .ch2, ch3 := f .ch3, ch4 := f .ch4, ch5 := f .ch5, ch6 := f .ch6, ch7 := f .ch7 }

/-- The same value for every member. -/
def PerChannel.const {α : Type} (x : α) : PerChannel α :=
  .tabulate fun _ => x

/-- The six additive types; pump t serves type t (R134). -/
inductive Additive where
  | type1 | type2 | type3 | type4 | type5 | type6
deriving DecidableEq, Repr

/-- Every member, in the manual's order. -/
def Additive.all : List Additive := [.type1, .type2, .type3, .type4, .type5, .type6]

/-- Its number in the manual. -/
def Additive.toNat : Additive → Nat
  | .type1 => 1
  | .type2 => 2
  | .type3 => 3
  | .type4 => 4
  | .type5 => 5
  | .type6 => 6

/-- The member of a number, or none. -/
def Additive.ofNat? : Nat → Option Additive
  | 1 => some .type1
  | 2 => some .type2
  | 3 => some .type3
  | 4 => some .type4
  | 5 => some .type5
  | 6 => some .type6
  | _ => none

/-- One value per additive type, and so per pump. -/
structure PerAdditive (α : Type) where
  type1 : α
  type2 : α
  type3 : α
  type4 : α
  type5 : α
  type6 : α
deriving DecidableEq, Repr

/-- The value of one member. -/
def PerAdditive.get {α : Type} (v : PerAdditive α) : Additive → α
  | .type1 => v.type1
  | .type2 => v.type2
  | .type3 => v.type3
  | .type4 => v.type4
  | .type5 => v.type5
  | .type6 => v.type6

/-- The record with one member's value replaced. -/
def PerAdditive.set {α : Type} (v : PerAdditive α) (i : Additive) (x : α) : PerAdditive α :=
  match i with
  | .type1 => { v with type1 := x }
  | .type2 => { v with type2 := x }
  | .type3 => { v with type3 := x }
  | .type4 => { v with type4 := x }
  | .type5 => { v with type5 := x }
  | .type6 => { v with type6 := x }

/-- The record with one member's value changed by `f`. -/
def PerAdditive.modify {α : Type} (v : PerAdditive α) (i : Additive) (f : α → α) : PerAdditive α :=
  v.set i (f (v.get i))

/-- The record built member by member. -/
def PerAdditive.tabulate {α : Type} (f : Additive → α) : PerAdditive α :=
  { type1 := f .type1, type2 := f .type2, type3 := f .type3, type4 := f .type4, type5 := f .type5, type6 := f .type6 }

/-- The same value for every member. -/
def PerAdditive.const {α : Type} (x : α) : PerAdditive α :=
  .tabulate fun _ => x

/-- The bay of an arm: arms 0 and 1 at bay A, arms 2 and 3 at bay B. -/
def Arm.bay : Arm → Bay
  | .arm0 => .bayA
  | .arm1 => .bayA
  | .arm2 => .bayB
  | .arm3 => .bayB

/-- The two arms of a bay, in arm order. -/
def Bay.arms : Bay → List Arm
  | .bayA => [.arm0, .arm1]
  | .bayB => [.arm2, .arm3]

/-- The other arm of the same bay. -/
def Arm.other : Arm → Arm
  | .arm0 => .arm1
  | .arm1 => .arm0
  | .arm2 => .arm3
  | .arm3 => .arm2

/-- The arm of an injector channel: channels 2a and 2a+1 belong to arm a (R132). -/
def Channel.arm : Channel → Arm
  | .ch0 => .arm0
  | .ch1 => .arm0
  | .ch2 => .arm1
  | .ch3 => .arm1
  | .ch4 => .arm2
  | .ch5 => .arm2
  | .ch6 => .arm3
  | .ch7 => .arm3

/-- Channel 2a of arm a. -/
def Arm.lowerChannel : Arm → Channel
  | .arm0 => .ch0
  | .arm1 => .ch2
  | .arm2 => .ch4
  | .arm3 => .ch6

/-- Channel 2a+1 of arm a. -/
def Arm.upperChannel : Arm → Channel
  | .arm0 => .ch1
  | .arm1 => .ch3
  | .arm2 => .ch5
  | .arm3 => .ch7

/-- The three permissives of a bay (02, The field inputs at a glance). -/
inductive Permissive where
  | ground | overfill | vapour
deriving DecidableEq, Repr

/-- The fourteen discrete inputs (02, The field inputs at a glance). -/
inductive DiscreteInput where
  | permissive (p : Permissive) (b : Bay)
  | parked (a : Arm)
  | emergencyStop
  | deadman (b : Bay)
  | sealSwitch
deriving DecidableEq, Repr

/-- Every discrete input, in the order in which WRITE_RACK carries them (R176). -/
def DiscreteInput.all : List DiscreteInput :=
  [.permissive .ground .bayA, .permissive .overfill .bayA, .permissive .vapour .bayA,
   .permissive .ground .bayB, .permissive .overfill .bayB, .permissive .vapour .bayB,
   .parked .arm0, .parked .arm1, .parked .arm2, .parked .arm3, .emergencyStop,
   .deadman .bayA, .deadman .bayB, .sealSwitch]

/-- One value per discrete input. -/
structure PerInput (α : Type) where
  ground : PerBay α
  overfill : PerBay α
  vapour : PerBay α
  parked : PerArm α
  emergencyStop : α
  deadman : PerBay α
  sealSwitch : α
deriving DecidableEq, Repr

/-- The value of one input. -/
def PerInput.get {α : Type} (v : PerInput α) : DiscreteInput → α
  | .permissive .ground b => v.ground.get b
  | .permissive .overfill b => v.overfill.get b
  | .permissive .vapour b => v.vapour.get b
  | .parked a => v.parked.get a
  | .emergencyStop => v.emergencyStop
  | .deadman b => v.deadman.get b
  | .sealSwitch => v.sealSwitch

/-- The record with one input's value replaced. -/
def PerInput.set {α : Type} (v : PerInput α) (i : DiscreteInput) (x : α) : PerInput α :=
  match i with
  | .permissive .ground b => { v with ground := v.ground.set b x }
  | .permissive .overfill b => { v with overfill := v.overfill.set b x }
  | .permissive .vapour b => { v with vapour := v.vapour.set b x }
  | .parked a => { v with parked := v.parked.set a x }
  | .emergencyStop => { v with emergencyStop := x }
  | .deadman b => { v with deadman := v.deadman.set b x }
  | .sealSwitch => { v with sealSwitch := x }

/-- The record built input by input. -/
def PerInput.tabulate {α : Type} (f : DiscreteInput → α) : PerInput α :=
  { ground := .tabulate fun b => f (.permissive .ground b)
    overfill := .tabulate fun b => f (.permissive .overfill b)
    vapour := .tabulate fun b => f (.permissive .vapour b)
    parked := .tabulate fun a => f (.parked a)
    emergencyStop := f .emergencyStop
    deadman := .tabulate fun b => f (.deadman b)
    sealSwitch := f .sealSwitch }

/-- The same value for every input. -/
def PerInput.const {α : Type} (x : α) : PerInput α := .tabulate fun _ => x

end Sys2Proof
end

