-- ==== Sys2Proof/Syntax.lean ====
section
/-! DEFINITION. The commands of the LD-42: one constructor per row of spec/opcode_table.json. -/

namespace Sys2Proof

/-- The level of an input line. For a discrete input, energized is the level its table names first (PRESENT, NOT_PARKED,
INACTIVE, PRESSED, OPEN) and deenergized the level that stops or refuses a load; for a pulse line, high and low (R19, R26). -/
inductive LineLevel where
  | energized | deenergized
deriving DecidableEq, Repr

/-- The two channels of a product meter (02, Product meter pulses). -/
inductive MeterLine where
  | lineA | lineB
deriving DecidableEq, Repr

/-- Which of the two recipients of an interval's results takes them first: "either may be first" (R95, R137). `leavingLast`: the
Flow Controller does, and the ADU takes the interval before what the Flow Controller then tells it, a leaving of flow or a cut-off. -/
inductive IntervalOrder where
  | flowFirst | dosingFirst | leavingLast
deriving DecidableEq, Repr

/-- An expiry of a bay's dead-man timer, and of each arm whether the expiry reaches the Bay Session Controller ahead of a leaving of
flow that the arm's Flow Controller has just made: "an expiry and an arm leaving flow may reach the Bay Session Controller together"
(R91). -/
structure DeadmanExpiry where
  bay : Bay
  ahead : PerArm Bool
deriving DecidableEq, Repr

/-- What the part finds on its straps and lines when it leaves a reset (R1, R7, R20, R26, R31, R36, R173). -/
structure ResetLines where
  roleStraps : PerLink Nat
  baudStrap : Nat
  blankStrap : Bool
  inputs : PerInput LineLevel
  meterA : PerArm LineLevel
  meterB : PerArm LineLevel
  additive : PerChannel LineLevel
deriving DecidableEq, Repr

/-- Every strap at value 0 and every line de-energized. -/
def ResetLines.allLow : ResetLines :=
  { roleStraps := .const 0, baudStrap := 0, blankStrap := false, inputs := .const .deenergized,
    meterA := .const .deenergized, meterB := .const .deenergized, additive := .const .deenergized }

/-- The commands. A request row names the link whose pending request is taken: the request's tag, code and fields are the
frame held in that link's slot (R3, R4). An event row names the member it happens to and what the line shows. -/
inductive Instr where
  -- Basic requests
  | identify (l : Link)
  | readStatus (l : Link)
  | readBay (l : Link)
  | readArm (l : Link)
  | readClock (l : Link)
  | unknownRequest (l : Link)
  -- Bay requests
  | card (l : Link)
  | pin (l : Link)
  | selectOrder (l : Link)
  | markFirst (l : Link)
  | markLast (l : Link)
  | exclude (l : Link)
  | commitPlan (l : Link)
  | newPlan (l : Link)
  | start (l : Link)
  | stop (l : Link)
  | resume (l : Link)
  | ackCause (l : Link)
  | finish (l : Link)
  | signOff (l : Link)
  -- Office requests
  | writeDriver (l : Link)
  | deleteDriver (l : Link)
  | resetPin (l : Link)
  | readDriver (l : Link)
  | writeOrder (l : Link)
  | deleteOrder (l : Link)
  | readOrder (l : Link)
  | cancelOrder (l : Link)
  | writeRecipe (l : Link)
  | setBayService (l : Link)
  | officeStop (l : Link)
  | officeRelease (l : Link)
  | setStock (l : Link)
  | readStock (l : Link)
  | readNote (l : Link)
  | releaseNote (l : Link)
  | setClock (l : Link)
  -- Service requests
  | writeProduct (l : Link)
  | writeArm (l : Link)
  | writeInjector (l : Link)
  | writePump (l : Link)
  | writeRack (l : Link)
  | readAudit (l : Link)
  -- link events
  | characterReceived (l : Link) (c : Byte) (stopBit : Bool)
  | gapTimeout (l : Link)
  | responseSent (l : Link)
  -- field events
  | discreteLineChange (d : DiscreteInput) (level : LineLevel)
  | debounceExpiry (d : DiscreteInput)
  | stuckTimerExpiry (b : Bay)
  | productMeterEdge (a : Arm) (line : MeterLine) (other : LineLevel)
  | additivePulse (c : Channel)
  | meteringIntervalEnd (a : Arm) (raw : Nat) (order : IntervalOrder)
  -- timer events
  | shotTimerExpiry (p : Additive)
  | restTimerExpiry (p : Additive)
  | closingTimerExpiry (a : Arm)
  | noFlowTimerExpiry (a : Arm)
  | pauseTimerExpiry (a : Arm)
  | pinTimerExpiry (b : Bay)
  | inactivityTimerExpiry (b : Bay)
  | deadmanTimerExpiry (x : DeadmanExpiry)
  -- note and store events
  | handOver (a : Arm)
  | nvWriteComplete
  | checkpointWriteComplete
  | checkpointAreaCleared
  -- supply, clock and reset events
  | powerFailWarningAssert (begun : PerLink Bool)
  | powerFailWarningDeassert
  | rackClockTick
  | resetAsserted
  | externalReset (lines : ResetLines)
  | powerOnReset (lines : ResetLines)
  | restorationComplete
  | mainPowerLoss
  | backupSupplyRanFlat
deriving DecidableEq, Repr

end Sys2Proof
end

