-- ==== Sys2Proof/Decode.lean ====
section
/-! DEFINITION. The command a word spells by the table's bits. No row of spec/opcode_table.json gives bits (each row's
fields are empty: the commands are requests already in a link's slot, and events on lines and timers), so no word spells
a command. The bytes of request frames are decoded in Machine/Operands.lean, from R174 to R176. -/

namespace Sys2Proof

/-- No row of the table gives bits: none for every word. -/
def decodeTableWord (_nbits _w : Nat) : Option Instr := none

end Sys2Proof
end

