-- ==== Sys2Proof/Config.lean ====
section
/-! DEFINITION. The fixed numbers of the part, each from the rule that states it, and the one value the spec leaves open. -/

namespace Sys2Proof

/-- The start marker of a frame (R174). -/
def Config.startMarker : Byte := 0x7E#8
/-- The longest request payload (R1). -/
def Config.maxRequestPayload : Nat := 200
/-- IDENTIFY's vendor code (R15). -/
def Config.vendorCode : Nat := 0x2D17
/-- IDENTIFY's part code (R15). -/
def Config.partCode : Nat := 42
/-- IDENTIFY's release level, the character code of A (R15, R175). -/
def Config.releaseLevel : Nat := 65

/-- The Driver Table's capacity (R37). -/
def Config.maxDrivers : Nat := 128
/-- The Order Table's capacity (R61). -/
def Config.maxOrders : Nat := 48
/-- The Note Store's capacity, reservations included (R149). -/
def Config.maxNotes : Nat := 64
/-- The largest note number (R153). -/
def Config.maxNoteNumber : Nat := 999999
/-- The Audit List's capacity (R171). -/
def Config.maxAudit : Nat := 32
/-- The calibration change counter's last value (R170). -/
def Config.maxCounter : Nat := 4294967295
/-- At this many queued entries a setting request is refused BUSY, and NV_BUSY is set (R164, R165). -/
def Config.busyLimit : Nat := 8

/-- The PIN timer, in ms (R51). -/
def Config.pinTime : Nat := 30000
/-- The inactivity timer, in ms (R87). -/
def Config.inactivityTime : Nat := 300000
/-- The stuck timer, in ms (R25). -/
def Config.stuckTime : Nat := 10000
/-- The closing timer, in ms (R117). -/
def Config.closingTime : Nat := 10000
/-- Consecutive zero intervals that end CLOSING (R117). -/
def Config.closingCount : Nat := 3

/-- K_milli of an uncommissioned arm (R98). -/
def Config.uncommissionedK : Nat := 100000
/-- The unit of meter factors and volume correction factors (R101, R106), and the factor of an uncommissioned arm (R100). -/
def Config.unity : Nat := 100000
/-- The highest flow rate (R99). -/
def Config.maxRate : Nat := 9999
/-- The totalizers wrap at this many mL (R107). -/
def Config.totalizerModulus : Nat := 1000000000000
/-- The unauthorized-flow counter stops here (R108). -/
def Config.maxUnauthorized : Nat := 999999999999
/-- UNAUTHORIZED_FLOW is raised when the counter passes this many mL (R108). -/
def Config.unauthorizedLimit : Nat := 5000
/-- PULSE_FAULT is raised above this many marked intervals (R96). -/
def Config.pulseErrorLimit : Nat := 10
/-- PULSE_FAULT is raised above this reverse volume, in mL (R97). -/
def Config.reverseLimit : Nat := 2000
/-- The fallback temperature and reference temperature 15.00 °C (R103, R105). -/
def Config.referenceTemperature : Int := 1500
/-- ADDITIVE_LAG is raised above this many owed shots (R136). -/
def Config.lagLimit : Nat := 3
/-- The leak counter stops here (R132). -/
def Config.maxLeak : Nat := 999999999
/-- The largest capacity of an additive (R143). -/
def Config.maxCapacity : Nat := 20000000
/-- The interval counts' last value (R28). -/
def Config.maxCount : Nat := 65535
/-- The deviation tolerance taken where WRITE_RECIPE carries none, permille (R59). -/
def Config.defaultTolerance : Nat := 50

/-- FREE VALUE (log 20). The deviation tolerance of R146 for a recipe code whose position holds no recipe: the spec states
none. No run reaches it, because no request empties a position (R58); the argument is the recipe code, 0 for none. -/
opaque Config.unstatedTolerance : Nat → Nat

end Sys2Proof
end

