-- ==== Sys2Proof/Machine/Records.lean ====
section
/-! DEFINITION. The records of the part: every table entry, register and queue member, block by block, as plain data. -/

namespace Sys2Proof.Machine

/-- A table keyed by number: (key, record) pairs with strictly rising keys, so that equal tables are equal data. -/
abbrev Assoc (α : Type) := List (Nat × α)

/-- A timer: stopped, or running with the period in ms it was started for (log 4). -/
abbrev Timer := Option Nat

/-! ### Link Controller -/

/-- The latched role of a link (R7). -/
inductive Role where
  | unused | office | panel (b : Bay) | service
deriving DecidableEq, Repr

/-- The classes of requests (R8). -/
inductive RequestClass where
  | basic | bay | office | service
deriving DecidableEq, Repr

/-- The result codes, in the order of the table of R9, which gives them the values 0 to 23 (R174). -/
inductive ResultCode where
  | ok | role | state | format | range | notFound | full | busy | sealedParameter | sequence | pinFailed | blocked
  | expired | driverBusy | orderBusy | inUse | productMismatch | permissive | additiveLow | recipeUnavailable
  | noteStoreFull | notOldest | nothingToLoad | unknownRequest
deriving DecidableEq, Repr

/-- The C flags of a status word, in the order of bits 13 to 5 (R12, R177). -/
structure CFlags where
  noteAdded : Bool
  causeRaised : Bool
  bayChanged : Bool
  stockLow : Bool
  inputChanged : Bool
  unauthorizedFlow : Bool
  linkError : Bool
  linkOverrun : Bool
  roleConflict : Bool
deriving DecidableEq, Repr

/-- The receiver of a link: hunting for a start marker, or collecting, with the bytes taken after the marker (R2). The
inter-character timer runs exactly while it is collecting. -/
inductive Receiver where
  | hunting
  | collecting (bytes : List Byte)
deriving DecidableEq, Repr

/-- A complete request frame (R1, R3). -/
structure Request where
  tag : Byte
  code : Byte
  payload : List Byte
deriving DecidableEq, Repr

/-- A composed response, with the status word captured for it (R5). -/
structure Response where
  tag : Byte
  code : Byte
  result : ResultCode
  status : StatusWord
  payload : List Byte
deriving DecidableEq, Repr

/-- A link's pending-request slot: occupied from the moment the frame becomes pending until the last character of its
response has been sent (R3). -/
inductive Slot where
  | empty
  | pending (r : Request)
  | responding (r : Response)
deriving DecidableEq, Repr

/-- One station link (R2, R3, R7, R11, R12). `raised` holds the C flags raised since the last capture of its status word, which
the end of a response leaves set (R5). -/
structure StationLink where
  strap : Nat
  role : Role
  receiver : Receiver
  slot : Slot
  planReset : Bool
  flags : CFlags
  raised : CFlags
deriving DecidableEq, Repr

/-- The Rack Clock (R17). -/
structure RackClock where
  count : Nat
  isSet : Bool
deriving DecidableEq, Repr

/-- The Link Controller. -/
structure LinkController where
  links : PerLink StationLink
  baudStrap : Nat
  clock : RackClock
deriving DecidableEq, Repr

/-! ### Input Conditioner -/

/-- One discrete input: its line, its accepted level, its settled flag and its change timer (R19, R20). The timer's
duration is the input's debounce choice as it stands (R21). -/
structure InputState where
  line : LineLevel
  accepted : LineLevel
  settled : Bool
  timing : Bool
deriving DecidableEq, Repr

/-- The state of a dead-man button (R24). -/
inductive ButtonState where
  | released | pressed | stuck
deriving DecidableEq, Repr

/-- A dead-man button and its stuck timer (R24, R25). -/
structure Button where
  state : ButtonState
  stuckTimer : Timer
deriving DecidableEq, Repr

/-- The three interval counts of an arm (R28). -/
structure IntervalCounts where
  nA : Nat
  nB : Nat
  reverse : Nat
deriving DecidableEq, Repr

/-- What the Input Conditioner hands to a Metering Engine channel at an interval end (R28, R29, R32). -/
structure Handover where
  nA : Nat
  nB : Nat
  reverse : Nat
  mark : Bool
  raw : Nat
deriving DecidableEq, Repr

/-- One arm's product meter: filtered levels, interval counts and the last handover (R26, R28). -/
structure MeterInput where
  lineA : LineLevel
  lineB : LineLevel
  counts : IntervalCounts
  last : Option Handover
deriving DecidableEq, Repr

/-- The Input Conditioner; `warning` is the power-fail warning, asserted or not (R34). -/
structure InputConditioner where
  inputs : PerInput InputState
  buttons : PerBay Button
  meters : PerArm MeterInput
  additiveLines : PerChannel LineLevel
  warning : Bool
deriving DecidableEq, Repr

/-! ### Permit Table -/

/-- A driver's status (R37). -/
inductive DriverStatus where
  | active | blocked
deriving DecidableEq, Repr

/-- The nonvolatile fields of a driver record; the PIN length is the length of `pin` (R37). -/
structure DriverRecord where
  pin : List Nat
  status : DriverStatus
  failed : Nat
  classes : List Nat
  expiry : Option Nat
deriving DecidableEq, Repr

/-- The volatile part of the Driver Table: each bound driver's bay (R37). -/
structure PermitTable where
  bound : Assoc Bay
deriving DecidableEq, Repr

/-! ### Order Book -/

/-- A product record (R55). -/
structure ProductRecord where
  cls : Nat
  alpha : Nat
  fallback : Int
deriving DecidableEq, Repr

/-- One additive line of a recipe (R58). -/
structure RecipeLine where
  additive : Additive
  dose : Nat
deriving DecidableEq, Repr

/-- A recipe record (R58). -/
structure RecipeRecord where
  product : Nat
  lines : List RecipeLine
  tolerance : Nat
deriving DecidableEq, Repr

/-- The preset basis of a compartment (R62). -/
inductive Basis where
  | gross | net
deriving DecidableEq, Repr

/-- The status of a compartment (R62). -/
inductive CompartmentStatus where
  | pending | loading | partLoaded | loaded
deriving DecidableEq, Repr

/-- A compartment record of an order (R62). -/
structure Compartment where
  number : Nat
  product : Nat
  planned : Nat
  basis : Basis
  recipe : Option Nat
  status : CompartmentStatus
  deliveredGross : Nat
  deliveredNet : Nat
  loadingArm : Option Arm
  statusBefore : Option CompartmentStatus
deriving DecidableEq, Repr

/-- The state of an order (R61). -/
inductive OrderState where
  | opened | held | complete | cancelled
deriving DecidableEq, Repr

/-- An order record, keyed by its number in the Order Table (R61). -/
structure Order where
  driver : Option Nat
  vehicle : List Byte
  bay : Option Bay
  compartments : List Compartment
  state : OrderState
  holding : Option Bay
  cancelPending : Bool
deriving DecidableEq, Repr

/-- The Order Book's volatile table (R61); the Product and Recipe Tables are working copies. -/
structure OrderBook where
  orders : Assoc Order
deriving DecidableEq, Repr

/-! ### Bay Session Controllers -/

/-- The bay states (R74), in the order of their codes (R175). -/
inductive BayStatus where
  | locked | ident | signed | planning | loading | outOfService
deriving DecidableEq, Repr

/-- The compartment selection (R74, R77). -/
structure Selection where
  first : Option Nat
  last : Option Nat
  excluded : List Nat
deriving DecidableEq, Repr

/-- The dead-man stage (R74). -/
inductive DeadmanStage where
  | quiet | warning
deriving DecidableEq, Repr

/-- A Bay Session Controller (R74). The service flag is a working copy; the horn is computed. `leftInWarning` names the arms that
have left flow while the stage was WARNING, until the dead-man timer next starts or expires: those whose leaving an expiry may still
reach the controller ahead of (R91, log 32). -/
structure BayController where
  status : BayStatus
  closePending : Bool
  driver : Option Nat
  order : Option Nat
  selection : Selection
  plan : List Nat
  pinTimer : Timer
  inactivityTimer : Timer
  deadmanTimer : Timer
  stage : DeadmanStage
  alarm : Bool
  leftInWarning : List Arm
deriving DecidableEq, Repr

/-! ### Metering Engine -/

/-- A Metering Engine channel (R94). The flow rate and the working temperature are computed from the windows (R99, R103);
`shownTemperature` and `shownUnauthorized` are what READ_ARM returns, as at the last interval end (R16, log 13). -/
structure MeteringChannel where
  rawResidue : Nat
  grossResidue : Nat
  netResidue : Nat
  reverseResidue : Nat
  gross : Nat
  net : Nat
  unauthorized : Nat
  rateWindow : List Nat
  temperatures : List Int
  shownTemperature : Option Int
  shownUnauthorized : Nat
deriving DecidableEq, Repr

/-- The sampling phase of a compartment (R94). -/
inductive SamplingPhase where
  | waiting | sampling
deriving DecidableEq, Repr

/-- The Metering Engine's part of a running compartment record (R94). -/
structure MeteringPart where
  openGross : Nat
  openNet : Nat
  gross : Nat
  net : Nat
  weighted : Int
  pulseErrors : Nat
  reverse : Nat
  phase : SamplingPhase
  tempSubstituted : Bool
  probeFault : Bool
  vcfClamped : Bool
  pulseErrorsSeen : Bool
deriving DecidableEq, Repr

/-! ### Flow Controllers -/

/-- The arm states (R111), in the order of their codes (R175). -/
inductive ArmState where
  | idle | lowStart | highFlow | topOff | closing | paused | ending
deriving DecidableEq, Repr

/-- The valve commands (R112). -/
inductive ValveCommand where
  | openValve | hold | close
deriving DecidableEq, Repr

/-- The stop causes, in priority order (R120). -/
inductive StopCause where
  | emergencyStop | powerFail | bayOutOfService | orderCancelled | pulseFault | probeFault | permissiveLost
  | additiveFault | additiveLag | noFlow | deadman | officeStop | driverStop
deriving DecidableEq, Repr

/-- The end reasons, in the order of their codes (R175). -/
inductive EndReason where
  | complete | driverFinished | pauseTimeout | emergencyStop | powerFail | bayOutOfService | orderCancelled
  | pulseFault | probeFault | powerLoss | reset
deriving DecidableEq, Repr

/-- A Flow Controller (R111). The Stop-Cause Set is the list of its causes in priority order, each at most once. -/
structure FlowController where
  state : ArmState
  command : ValveCommand
  causes : List StopCause
  releaseMark : Bool
  lead : Nat
  closingCount : Nat
  closingTimer : Timer
  noFlowTimer : Timer
  pauseTimer : Timer
deriving DecidableEq, Repr

/-- The Flow Controller's part of a running compartment record (R111). -/
structure FlowPart where
  bay : Bay
  order : Nat
  compartment : Nat
  preset : Nat
  basis : Basis
  endReason : Option EndReason
  overrun : Bool
deriving DecidableEq, Repr

/-! ### Additive Dosing Unit -/

/-- The place of an injector channel (R132). -/
inductive Place where
  | none | queued | inShot
deriving DecidableEq, Repr

/-- The working state of an injector channel (R132); `serving` is the position of the recipe line it serves. -/
structure ChannelState where
  serving : Option Nat
  place : Place
  owed : Nat
  failed : Nat
  residue : Nat
  leak : Nat
deriving DecidableEq, Repr

/-- The state of a pump (R134). -/
inductive PumpStatus where
  | idle | shot (c : Channel) | rest
deriving DecidableEq, Repr

/-- A pump and its Shot Queue, oldest first (R134). -/
structure PumpState where
  status : PumpStatus
  queue : List Channel
  restTimer : Timer
  shotTimer : Timer
  pulseCount : Nat
  target : Nat
  volume : Nat
deriving DecidableEq, Repr

/-- The Additive Dosing Unit. -/
structure DosingUnit where
  channels : PerChannel ChannelState
  pumps : PerAdditive PumpState
deriving DecidableEq, Repr

/-- The line record of one recipe line of a running compartment (R135). -/
structure LineRecord where
  additive : Additive
  dose : Nat
  channel : Channel
  requested : Nat
  injected : Nat
deriving DecidableEq, Repr

/-! ### Note Store -/

/-- The Note Store's part of a running compartment record (R150). -/
structure NotePart where
  bay : Bay
  driver : Nat
  order : Nat
  vehicle : List Byte
  compartment : Nat
  product : Nat
  recipe : Option Nat
  preset : Nat
  startTime : Option Nat
deriving DecidableEq, Repr

/-- The running compartment record of an arm, in retained memory (R94, R111, R135, R150). -/
structure Running where
  metering : MeteringPart
  flow : FlowPart
  lines : List LineRecord
  note : NotePart
deriving DecidableEq, Repr

/-- An additive line of a note (R146). -/
structure NoteLine where
  additive : Additive
  required : Nat
  injected : Nat
  shots : Nat
deriving DecidableEq, Repr

/-- A delivery note (R152). -/
structure NoteRecord where
  number : Nat
  bay : Bay
  arm : Arm
  order : Nat
  compartment : Nat
  driver : Nat
  vehicle : List Byte
  product : Nat
  recipe : Option Nat
  startTime : Option Nat
  endTime : Option Nat
  preset : Nat
  gross : Nat
  net : Nat
  temperature : Int
  openGross : Nat
  openNet : Nat
  closeGross : Nat
  closeNet : Nat
  lines : List NoteLine
  endReason : EndReason
  tempSubstituted : Bool
  probeFault : Bool
  vcfClamped : Bool
  overrun : Bool
  deviation : Bool
  pulseErrorsSeen : Bool
  recovered : Bool
deriving DecidableEq, Repr

/-- The Note Store's retained reservation marks, and the hand-overs held by the power-fail warning (R148, R158). The note
collection and the next note number are working copies. -/
structure NoteStore where
  reserved : PerArm Bool
  held : PerArm Bool
deriving DecidableEq, Repr

/-! ### Nonvolatile records -/

/-- The pulse mode of an arm (R30). -/
inductive PulseMode where
  | single | dual
deriving DecidableEq, Repr

/-- A point of a meter factor table (R100). -/
structure MfPoint where
  rate : Nat
  mf : Nat
deriving DecidableEq, Repr

/-- A meter factor table of at least one point (R100, R110). -/
structure MfTable where
  first : MfPoint
  rest : List MfPoint
deriving DecidableEq, Repr

/-- An arm's nonvolatile record: metering, pulse and flow parameters (R110, R30, R130). -/
structure ArmRecord where
  product : Nat
  kMilli : Option Nat
  mf : MfTable
  offset : Int
  span : Nat
  mode : PulseMode
  fidelity : Nat
  maxRate : Nat
  lowRate : Nat
  highRate : Nat
  deadband : Nat
  startVolume : Nat
  topOffVolume : Nat
  initialLead : Nat
  leadMaximum : Nat
  overrunLimit : Nat
  noFlowTime : Nat
  atcRequired : Bool
deriving DecidableEq, Repr

/-- An injector channel's configuration (R132). -/
structure InjectorRecord where
  additive : Option Additive
  shotVolume : Nat
  kMilli : Nat
  timeLimit : Nat
deriving DecidableEq, Repr

/-- The rack configuration (R21, R39, R93, R128). -/
structure RackConfig where
  debounce : PerInput Nat
  attemptLimit : Nat
  deadmanInterval : Nat
  pauseTimeout : Nat
deriving DecidableEq, Repr

/-- One additive type's record in the Additive Stock Table (R143). -/
structure StockRecord where
  stock : Nat
  capacity : Nat
  reserve : Nat
deriving DecidableEq, Repr

/-- An arm's totals record (R156). -/
structure Totals where
  gross : Nat
  net : Nat
deriving DecidableEq, Repr

/-- What an audit entry says of an MF table (R171). -/
structure MfSummary where
  points : Nat
  lowest : Nat
  highest : Nat
deriving DecidableEq, Repr

/-- One changed sealed parameter with its old and new value (R171). -/
inductive ParameterChange where
  | kMilli (old new : Option Nat)
  | mode (old new : PulseMode)
  | fidelity (old new : Nat)
  | mf (old new : MfSummary)
  | offset (old new : Int)
  | span (old new : Nat)
  | alpha (old : Option Nat) (new : Nat)
deriving DecidableEq, Repr

/-- The subject of an audit entry (R171). -/
inductive AuditSubject where
  | arm (a : Arm)
  | product (code : Nat)
deriving DecidableEq, Repr

/-- An audit entry (R171). -/
structure AuditEntry where
  counter : Nat
  time : Option Nat
  subject : AuditSubject
  changes : List ParameterChange
deriving DecidableEq, Repr

/-- The audit record: the calibration change counter and the Audit List, oldest first (R163, R170, R171). -/
structure AuditRecord where
  counter : Nat
  entries : List AuditEntry
deriving DecidableEq, Repr

/-- Every record of R163: the working copies are one such value, the nonvolatile store another. The notes are oldest
first, in the order in which they were made. In the working copies `stock` is the live Additive Stock Table (R143). -/
structure NvRecords where
  drivers : Assoc DriverRecord
  products : Assoc ProductRecord
  recipes : Assoc RecipeRecord
  arms : PerArm ArmRecord
  injectors : PerChannel InjectorRecord
  pumpRest : PerAdditive Nat
  rack : RackConfig
  outOfService : PerBay Bool
  audit : AuditRecord
  stock : PerAdditive StockRecord
  notes : List NoteRecord
  nextNote : Nat
  totals : PerArm Totals
deriving DecidableEq, Repr

/-- The full contents of an NV Write Queue entry (R163, R164). A driver entry without a record is a deletion (R42); a
note entry carries the next note number (R153). -/
inductive NvContents where
  | driver (number : Nat) (r : Option DriverRecord)
  | product (code : Nat) (r : ProductRecord)
  | recipe (code : Nat) (r : RecipeRecord)
  | arm (a : Arm) (r : ArmRecord)
  | injector (c : Channel) (r : InjectorRecord)
  | pump (p : Additive) (rest : Nat)
  | rack (r : RackConfig)
  | bayService (b : Bay) (out : Bool)
  | audit (r : AuditRecord)
  | stock (r : PerAdditive StockRecord)
  | note (r : NoteRecord) (next : Nat)
  | release (number : Nat)
  | totals (a : Arm) (r : Totals)
deriving DecidableEq, Repr

/-- The key of an entry (R163). A note and its release share the note's number. -/
inductive NvKey where
  | driver (number : Nat)
  | product (code : Nat)
  | recipe (code : Nat)
  | arm (a : Arm)
  | injector (c : Channel)
  | pump (p : Additive)
  | rack
  | bayService (b : Bay)
  | audit
  | stock
  | note (number : Nat)
  | totals (a : Arm)
deriving DecidableEq, Repr

/-- The class of an entry (R163). -/
inductive EntryClass where
  | setting | endClass
deriving DecidableEq, Repr

/-- An NV Write Queue entry (R164). -/
structure NvEntry where
  contents : NvContents
  cls : EntryClass
deriving DecidableEq, Repr

/-- A valid checkpoint (R159). -/
structure Checkpoint where
  running : Running
  gross : Nat
  net : Nat
deriving DecidableEq, Repr

/-- A write to the checkpoint area in progress (R158 to R160). -/
inductive AreaWrite where
  | checkpoint (a : Arm)
  | clearing
deriving DecidableEq, Repr

/-- What the NVC is about: its usual work, or one of the phases of the drain (R158). -/
inductive NvPhase where
  | normal
  | draining
  | checkpointing (todo : List Arm)
  | drained
deriving DecidableEq, Repr

/-- The Nonvolatile Store Controller (R157 to R164). `retainedValid` stands for the check value of retained memory: set
while it agrees with the contents (log 17). -/
structure NvController where
  store : NvRecords
  formatMark : Bool
  blankStrap : Bool
  queue : List NvEntry
  buffer : Option NvEntry
  phase : NvPhase
  areaWrite : Option AreaWrite
  clearDue : Bool
  area : PerArm (Option Checkpoint)
  retainedValid : Bool
  retainedLost : Bool
deriving DecidableEq, Repr

/-- Whether the part runs: running; in restoration after leaving a reset (R161); held by the reset line (R36); or without
main power (R157). -/
inductive Condition where
  | running | restoring | heldInReset | unpowered
deriving DecidableEq, Repr

end Sys2Proof.Machine
end

