-- ==== Sys2Proof/Machine/Tables.lean ====
section
/-! DEFINITION. The operations on keyed tables: look up, write, remove, and the next key above one (R44, R66). -/

namespace Sys2Proof.Machine

/-- The record with key `k`, if there is one. -/
def Assoc.find {α : Type} (t : Assoc α) (k : Nat) : Option α :=
  match t with
  | [] => none
  | (j, x) :: rest => if j = k then some x else Assoc.find rest k

/-- The table with the record of key `k` created or replaced; keys stay rising. -/
def Assoc.put {α : Type} (t : Assoc α) (k : Nat) (x : α) : Assoc α :=
  match t with
  | [] => [(k, x)]
  | (j, y) :: rest =>
    if k < j then (k, x) :: (j, y) :: rest
    else if k = j then (k, x) :: rest
    else (j, y) :: Assoc.put rest k x

/-- The table without the record of key `k`. -/
def Assoc.remove {α : Type} (t : Assoc α) (k : Nat) : Assoc α :=
  match t with
  | [] => []
  | (j, y) :: rest => if j = k then Assoc.remove rest k else (j, y) :: Assoc.remove rest k

/-- The record with the smallest key above `k`, with its key (selector NEXT of R44 and R66). -/
def Assoc.after {α : Type} (t : Assoc α) (k : Nat) : Option (Nat × α) :=
  match t with
  | [] => none
  | (j, x) :: rest => if k < j then some (j, x) else Assoc.after rest k

/-- The keys rise strictly: the one canonical form of a table. -/
def Assoc.wf {α : Type} (t : Assoc α) : Bool :=
  match t with
  | [] => true
  | (j, _) :: rest => rest.all (fun e => decide (j < e.1)) && Assoc.wf rest

/-- A member added to a set of numbers held as a rising list: no repeat, ascending (R40, R175). -/
def insertAscending (n : Nat) : List Nat → List Nat
  | [] => [n]
  | m :: rest => if n < m then n :: m :: rest else if n = m then m :: rest else m :: insertAscending n rest

/-- The set of a list's members, ascending. -/
def ascendingSet (l : List Nat) : List Nat := l.foldl (fun t n => insertAscending n t) []

end Sys2Proof.Machine
end

