-- ==== Sys2Proof/Machine/Operands.lean ====
section
/-! DEFINITION. The byte forms of requests and responses: the field encodings of R175, the form of every request (the walk
of R4), the CRC and the frames of R1 and R174. -/

namespace Sys2Proof.Machine

/-! ### Fields out of a payload -/

/-- A walk over payload bytes: it takes bytes from the front, or fails where they end too soon (R175). -/
abbrev Walk (α : Type) := StateT (List Byte) Option α

/-- One byte. -/
def takeByte : Walk Nat := fun bs =>
  match bs with
  | [] => none
  | b :: rest => some (b.toNat, rest)

/-- `w` bytes as they stand. -/
def takeBytes : Nat → Walk (List Byte)
  | 0 => pure []
  | w + 1 => fun bs =>
    match bs with
    | [] => none
    | b :: rest => (takeBytes w rest).map fun (v, r) => (b :: v, r)

/-- The number of a byte string, most significant byte first (R175). -/
def bytesToNat (bs : List Byte) : Nat := bs.foldl (fun n b => n * 256 + b.toNat) 0

/-- An unsigned number of `w` bytes (R175). -/
def takeNat (w : Nat) : Walk Nat := do
  let bs ← takeBytes w
  pure (bytesToNat bs)

/-- A two's complement number of 2 bytes (R175). -/
def takeInt16 : Walk Int := do
  let n ← takeNat 2
  pure (if n < 32768 then (n : Int) else (n : Int) - 65536)

/-- An optional field: a presence byte 0 or 1, then the value only when present; any other presence byte fails the walk (R175). -/
def takeOptional {α : Type} (field : Walk α) : Walk (Option α) := do
  let p ← takeByte
  match p with
  | 0 => pure none
  | 1 => some <$> field
  | _ => failure

/-- `n` elements in turn. -/
def takeMany {α : Type} (element : Walk α) : Nat → Walk (List α)
  | 0 => pure []
  | n + 1 => do
    let x ← element
    let rest ← takeMany element n
    pure (x :: rest)

/-- A list: one count byte, then that many elements (R175). -/
def takeList {α : Type} (element : Walk α) : Walk (List α) := do
  let n ← takeByte
  takeMany element n

/-- A character string: one length byte, then that many character codes (R175). -/
def takeString : Walk (List Byte) := do
  let n ← takeByte
  takeBytes n

/-- A PIN: a digit count byte, then 8 digit bytes (R175). -/
structure PinField where
  count : Nat
  digits : List Nat
deriving DecidableEq, Repr

/-- The PIN field (R175). -/
def takePin : Walk PinField := do
  let count ← takeByte
  let digits ← takeMany takeByte 8
  pure { count := count, digits := digits }

/-- The digits within the count (R48). -/
def PinField.used (p : PinField) : List Nat := p.digits.take p.count

/-- The format check of R4: the walk must end exactly at the payload's end. -/
def walkPayload {α : Type} (form : Walk α) (payload : List Byte) : Option α :=
  match form payload with
  | some (x, []) => some x
  | _ => none

/-! ### The forms of the requests (R175, R176) -/

/-- An empty payload. -/
def formEmpty : Walk Unit := pure ()
/-- One byte: a bay, an arm, a compartment, an index (R16, R77, R85, R129, R154, R172). -/
def formByte : Walk Nat := takeNat 1
/-- Four bytes: a driver, order or note number, or a clock count (R42, R45, R65, R67, R71, R155, R18). -/
def formLong : Walk Nat := takeNat 4
/-- Two one-byte fields: START's arm and compartment, ACK_CAUSE's arm and cause, SET_BAY_SERVICE's bay and setting (R83, R85, R88). -/
def formTwoBytes : Walk (Nat × Nat) := do
  let a ← takeNat 1
  let b ← takeNat 1
  pure (a, b)
/-- A 4-byte number and a selector: READ_DRIVER and READ_ORDER (R44, R66). -/
def formSelect : Walk (Nat × Nat) := do
  let n ← takeNat 4
  let sel ← takeNat 1
  pure (n, sel)

/-- The fields of WRITE_DRIVER (R40). -/
structure DriverFields where
  number : Nat
  pin : PinField
  status : Nat
  classes : List Nat
  expiry : Option Nat
deriving DecidableEq, Repr

/-- WRITE_DRIVER (R40). -/
def formWriteDriver : Walk DriverFields := do
  let number ← takeNat 4
  let pin ← takePin
  let status ← takeNat 1
  let classes ← takeList (takeNat 1)
  let expiry ← takeOptional (takeNat 2)
  pure { number := number, pin := pin, status := status, classes := classes, expiry := expiry }

/-- RESET_PIN: a driver number and a PIN (R43). -/
def formResetPin : Walk (Nat × PinField) := do
  let number ← takeNat 4
  let pin ← takePin
  pure (number, pin)

/-- A compartment of WRITE_ORDER (R63). -/
structure CompartmentFields where
  number : Nat
  product : Nat
  planned : Nat
  basis : Nat
  recipe : Option Nat
deriving DecidableEq, Repr

/-- The fields of WRITE_ORDER (R63). -/
structure OrderFields where
  number : Nat
  driver : Option Nat
  vehicle : List Byte
  bay : Option Nat
  compartments : List CompartmentFields
deriving DecidableEq, Repr

/-- A compartment of WRITE_ORDER (R63). -/
def takeCompartment : Walk CompartmentFields := do
  let number ← takeNat 1
  let product ← takeNat 1
  let planned ← takeNat 2
  let basis ← takeNat 1
  let recipe ← takeOptional (takeNat 1)
  pure { number := number, product := product, planned := planned, basis := basis, recipe := recipe }

/-- WRITE_ORDER (R63). -/
def formWriteOrder : Walk OrderFields := do
  let number ← takeNat 4
  let driver ← takeOptional (takeNat 4)
  let vehicle ← takeString
  let bay ← takeOptional (takeNat 1)
  let compartments ← takeList takeCompartment
  pure { number := number, driver := driver, vehicle := vehicle, bay := bay, compartments := compartments }

/-- The fields of WRITE_RECIPE; a line is an additive type and a dose (R59). -/
structure RecipeFields where
  code : Nat
  product : Nat
  lines : List (Nat × Nat)
  tolerance : Option Nat
deriving DecidableEq, Repr

/-- WRITE_RECIPE (R59). -/
def formWriteRecipe : Walk RecipeFields := do
  let code ← takeNat 1
  let product ← takeNat 1
  let lines ← takeList (do
    let t ← takeNat 1
    let d ← takeNat 2
    pure (t, d))
  let tolerance ← takeOptional (takeNat 1)
  pure { code := code, product := product, lines := lines, tolerance := tolerance }

/-- The fields of SET_STOCK (R143). -/
structure StockFields where
  additive : Nat
  stock : Nat
  capacity : Nat
  reserve : Nat
deriving DecidableEq, Repr

/-- SET_STOCK (R143). -/
def formSetStock : Walk StockFields := do
  let additive ← takeNat 1
  let stock ← takeNat 4
  let capacity ← takeNat 4
  let reserve ← takeNat 4
  pure { additive := additive, stock := stock, capacity := capacity, reserve := reserve }

/-- The fields of WRITE_PRODUCT (R56). -/
structure ProductFields where
  code : Nat
  cls : Nat
  alpha : Nat
  fallback : Int
deriving DecidableEq, Repr

/-- WRITE_PRODUCT (R56). -/
def formWriteProduct : Walk ProductFields := do
  let code ← takeNat 1
  let cls ← takeNat 1
  let alpha ← takeNat 2
  let fallback ← takeInt16
  pure { code := code, cls := cls, alpha := alpha, fallback := fallback }

/-- The fields of WRITE_ARM; an MF point is a rate and a factor (R176). -/
structure ArmFields where
  arm : Nat
  product : Nat
  kMilli : Option Nat
  mf : List (Nat × Nat)
  offset : Int
  span : Nat
  mode : Nat
  fidelity : Nat
  maxRate : Nat
  lowRate : Nat
  highRate : Nat
  deadband : Nat
  startVolume : Nat
  topOffVolume : Nat
  initialLead : Nat
  leadMaximum : Nat
  overrunLimit : Nat
  noFlowTime : Nat
  atcRequired : Nat
deriving DecidableEq, Repr

/-- WRITE_ARM (R176). -/
def formWriteArm : Walk ArmFields := do
  let arm ← takeNat 1
  let product ← takeNat 1
  let kMilli ← takeOptional (takeNat 4)
  let mf ← takeList (do
    let r ← takeNat 2
    let f ← takeNat 4
    pure (r, f))
  let offset ← takeInt16
  let span ← takeNat 2
  let mode ← takeNat 1
  let fidelity ← takeNat 1
  let maxRate ← takeNat 2
  let lowRate ← takeNat 2
  let highRate ← takeNat 2
  let deadband ← takeNat 1
  let startVolume ← takeNat 2
  let topOffVolume ← takeNat 2
  let initialLead ← takeNat 2
  let leadMaximum ← takeNat 2
  let overrunLimit ← takeNat 1
  let noFlowTime ← takeNat 1
  let atcRequired ← takeNat 1
  pure
    { arm := arm, product := product, kMilli := kMilli, mf := mf, offset := offset, span := span, mode := mode
      fidelity := fidelity, maxRate := maxRate, lowRate := lowRate, highRate := highRate, deadband := deadband
      startVolume := startVolume, topOffVolume := topOffVolume, initialLead := initialLead, leadMaximum := leadMaximum
      overrunLimit := overrunLimit, noFlowTime := noFlowTime, atcRequired := atcRequired }

/-- The fields of WRITE_INJECTOR (R133). -/
structure InjectorFields where
  channel : Nat
  additive : Nat
  shotVolume : Nat
  kMilli : Nat
  timeLimit : Nat
deriving DecidableEq, Repr

/-- WRITE_INJECTOR (R133). -/
def formWriteInjector : Walk InjectorFields := do
  let channel ← takeNat 1
  let additive ← takeNat 1
  let shotVolume ← takeNat 2
  let kMilli ← takeNat 4
  let timeLimit ← takeNat 2
  pure { channel := channel, additive := additive, shotVolume := shotVolume, kMilli := kMilli, timeLimit := timeLimit }

/-- WRITE_PUMP: a pump number and a rest time (R134). -/
def formWritePump : Walk (Nat × Nat) := do
  let pump ← takeNat 1
  let rest ← takeNat 2
  pure (pump, rest)

/-- The fields of WRITE_RACK: the fourteen debounce choices in the order of `DiscreteInput.all`, then three settings (R176). -/
structure RackFields where
  debounce : List Nat
  attemptLimit : Nat
  deadmanInterval : Nat
  pauseTimeout : Nat
deriving DecidableEq, Repr

/-- WRITE_RACK (R176). -/
def formWriteRack : Walk RackFields := do
  let debounce ← takeMany (takeNat 2) 14
  let attemptLimit ← takeNat 1
  let deadmanInterval ← takeNat 2
  let pauseTimeout ← takeNat 2
  pure { debounce := debounce, attemptLimit := attemptLimit, deadmanInterval := deadmanInterval, pauseTimeout := pauseTimeout }

/-! ### Fields into a payload (R175) -/

/-- A number in `w` bytes, most significant first; a value too large keeps its low bytes (log 21). -/
def natBytes : Nat → Nat → List Byte
  | 0, _ => []
  | w + 1, n => natBytes w (n / 256) ++ [BitVec.ofNat 8 n]

/-- A two's complement number in 2 bytes. -/
def intBytes (i : Int) : List Byte := natBytes 2 (i % 65536).toNat

/-- A flag of a response: 1 set, 0 clear (log 14). -/
def flagByte (b : Bool) : List Byte := natBytes 1 (if b then 1 else 0)

/-- An optional field. -/
def optionalBytes {α : Type} (enc : α → List Byte) : Option α → List Byte
  | none => natBytes 1 0
  | some x => natBytes 1 1 ++ enc x

/-- A list: its count, then its elements. -/
def listBytes {α : Type} (enc : α → List Byte) (l : List α) : List Byte :=
  natBytes 1 l.length ++ l.flatMap enc

/-- A character string: its length, then its characters. -/
def stringBytes (l : List Byte) : List Byte := natBytes 1 l.length ++ l

/-- The code of a bay (R175). -/
def bayByte (b : Bay) : List Byte := natBytes 1 b.toNat
/-- The code of a bay state (R175). -/
def BayStatus.code : BayStatus → Nat
  | .locked => 0 | .ident => 1 | .signed => 2 | .planning => 3 | .loading => 4 | .outOfService => 5
/-- The code of an arm state (R175). -/
def ArmState.code : ArmState → Nat
  | .idle => 0 | .lowStart => 1 | .highFlow => 2 | .topOff => 3 | .closing => 4 | .paused => 5 | .ending => 6
/-- A stop cause's priority, which is its code (R120, R175). -/
def StopCause.priority : StopCause → Nat
  | .emergencyStop => 1 | .powerFail => 2 | .bayOutOfService => 3 | .orderCancelled => 4 | .pulseFault => 5
  | .probeFault => 6 | .permissiveLost => 7 | .additiveFault => 8 | .additiveLag => 9 | .noFlow => 10
  | .deadman => 11 | .officeStop => 12 | .driverStop => 13
/-- The stop cause of a code (R175). -/
def StopCause.ofCode : Nat → Option StopCause
  | 1 => some .emergencyStop | 2 => some .powerFail | 3 => some .bayOutOfService | 4 => some .orderCancelled
  | 5 => some .pulseFault | 6 => some .probeFault | 7 => some .permissiveLost | 8 => some .additiveFault
  | 9 => some .additiveLag | 10 => some .noFlow | 11 => some .deadman | 12 => some .officeStop | 13 => some .driverStop
  | _ => none
/-- The code of an end reason (R175). -/
def EndReason.code : EndReason → Nat
  | .complete => 0 | .driverFinished => 1 | .pauseTimeout => 2 | .emergencyStop => 3 | .powerFail => 4
  | .bayOutOfService => 5 | .orderCancelled => 6 | .pulseFault => 7 | .probeFault => 8 | .powerLoss => 9 | .reset => 10
/-- The value of a result code (R9, R174). -/
def ResultCode.code : ResultCode → Nat
  | .ok => 0 | .role => 1 | .state => 2 | .format => 3 | .range => 4 | .notFound => 5 | .full => 6 | .busy => 7
  | .sealedParameter => 8 | .sequence => 9 | .pinFailed => 10 | .blocked => 11 | .expired => 12 | .driverBusy => 13
  | .orderBusy => 14 | .inUse => 15 | .productMismatch => 16 | .permissive => 17 | .additiveLow => 18
  | .recipeUnavailable => 19 | .noteStoreFull => 20 | .notOldest => 21 | .nothingToLoad => 22 | .unknownRequest => 23
/-- The code of an order state, in the order of R61 (R175). -/
def OrderState.code : OrderState → Nat
  | .opened => 0 | .held => 1 | .complete => 2 | .cancelled => 3
/-- The code of a compartment status, in the order of R62 (R175). -/
def CompartmentStatus.code : CompartmentStatus → Nat
  | .pending => 0 | .loading => 1 | .partLoaded => 2 | .loaded => 3
/-- The code of a preset basis (R175). -/
def Basis.code : Basis → Nat
  | .gross => 0 | .net => 1
/-- The code of a driver status (R175). -/
def DriverStatus.code : DriverStatus → Nat
  | .active => 0 | .blocked => 1
/-- The code of a latched role: the strap value that gives it (R7, log 14). -/
def Role.code : Role → Nat
  | .unused => 0 | .office => 1 | .panel .bayA => 2 | .panel .bayB => 3 | .service => 4
/-- The code of a pump state (R175). -/
def PumpStatus.code : PumpStatus → Nat
  | .idle => 0 | .rest => 1 | .shot c => 2 + c.toNat
/-- The code of a channel's place, in the order of R132 (log 14). -/
def Place.code : Place → Nat
  | .none => 0 | .queued => 1 | .inShot => 2
/-- The code of an additive type, 0 for none (R175). -/
def additiveByte (t : Option Additive) : List Byte := natBytes 1 ((t.map Additive.toNat).getD 0)
/-- The code of a pulse mode (R175). -/
def PulseMode.code : PulseMode → Nat
  | .single => 0 | .dual => 1

/-! ### Frames (R1, R174) -/

/-- One bit step of the CRC with the generator x^16+x^12+x^5+1 (R1). -/
def crcShift (c : Crc) : Crc := if c.msb then (c <<< 1) ^^^ 0x1021#16 else c <<< 1

/-- One byte into the CRC, most significant bit first (R1). -/
def crcByte (c : Crc) (b : Byte) : Crc :=
  crcShift (crcShift (crcShift (crcShift (crcShift (crcShift (crcShift (crcShift (c ^^^ (b.setWidth 16 <<< 8)))))))))

/-- The CRC of a frame's bytes after the start marker: it starts from all ones and has no final inversion (R1). -/
def crcOf (bs : List Byte) : Crc := bs.foldl crcByte 0xFFFF#16

/-- The CRC's two bytes, high byte first (R1). -/
def crcBytes (bs : List Byte) : List Byte := natBytes 2 (crcOf bs).toNat

/-- The bytes of a request frame, as a master sends it (R1, R174). -/
def Request.bytes (r : Request) : List Byte :=
  let body := [r.tag, r.code] ++ natBytes 1 r.payload.length ++ r.payload
  Config.startMarker :: (body ++ crcBytes body)

/-- The bytes of a response frame, as the part sends it (R1, R174). -/
def Response.bytes (r : Response) : List Byte :=
  let body := [r.tag, r.code] ++ natBytes 1 r.result.code ++ natBytes 4 r.status.toNat
    ++ natBytes 1 r.payload.length ++ r.payload
  Config.startMarker :: (body ++ crcBytes body)

/-! ### Request codes (R174) -/

/-- The known request codes: Basic 0x01 to 0x05, Bay 0x20 to 0x2D, Office 0x40 to 0x50, Service 0x60 to 0x65. -/
def knownCode (code : Byte) : Bool :=
  let n := code.toNat
  (0x01 ≤ n && n ≤ 0x05) || (0x20 ≤ n && n ≤ 0x2D) || (0x40 ≤ n && n ≤ 0x50) || (0x60 ≤ n && n ≤ 0x65)

end Sys2Proof.Machine
end

