-- ==== Sys2Proof/Machine/Defaults.lean ====
section
/-! DEFINITION. What each record and register holds after blank initialisation (R173) and after every reset. -/

namespace Sys2Proof.Machine

/-- An arm record after blank initialisation (R173, R110, R30, R130). -/
def ArmRecord.blank : ArmRecord :=
  { product := 0, kMilli := none, mf := { first := { rate := 0, mf := 100000 }, rest := [] }, offset := -4000, span := 11000
    mode := .dual, fidelity := 1, maxRate := 2000, lowRate := 300, highRate := 1800, deadband := 40
    startVolume := 300, topOffVolume := 400, initialLead := 20000, leadMaximum := 40000, overrunLimit := 10
    noFlowTime := 10, atcRequired := true }

/-- An injector record after blank initialisation (R132, R173). -/
def InjectorRecord.blank : InjectorRecord :=
  { additive := none, shotVolume := 50, kMilli := 1000000, timeLimit := 1500 }

/-- The rack configuration after blank initialisation (R21, R173). -/
def RackConfig.blank : RackConfig :=
  { debounce := { PerInput.const 64 with emergencyStop := 8 }, attemptLimit := 3, deadmanInterval := 120, pauseTimeout := 900 }

/-- The store after blank initialisation (R173). -/
def NvRecords.blank : NvRecords :=
  { drivers := [], products := [], recipes := [], arms := .const .blank, injectors := .const .blank, pumpRest := .const 400
    rack := .blank, outOfService := .const false, audit := { counter := 0, entries := [] }
    stock := .const { stock := 0, capacity := 0, reserve := 0 }, notes := [], nextNote := 1, totals := .const { gross := 0, net := 0 } }

/-- No C flag set (R12). -/
def CFlags.clear : CFlags :=
  { noteAdded := false, causeRaised := false, bayChanged := false, stockLow := false, inputChanged := false
    unauthorizedFlow := false, linkError := false, linkOverrun := false, roleConflict := false }

/-- A link after a reset, with the strap value and role latched (R14). -/
def StationLink.fresh (strap : Nat) (role : Role) : StationLink :=
  { strap := strap, role := role, receiver := .hunting, slot := .empty, planReset := false, flags := .clear, raised := .clear }

/-- A discrete input after a reset: assumed at the level that stops or refuses a load, timer started (R20). -/
def InputState.fresh (line : LineLevel) : InputState :=
  { line := line, accepted := .deenergized, settled := false, timing := true }

/-- An arm's meter input after a reset (R36). -/
def MeterInput.fresh (lineA lineB : LineLevel) : MeterInput :=
  { lineA := lineA, lineB := lineB, counts := { nA := 0, nB := 0, reverse := 0 }, last := none }

/-- The Input Conditioner after a reset (R36). -/
def InputConditioner.fresh (r : ResetLines) : InputConditioner :=
  { inputs := .tabulate fun i => .fresh (r.inputs.get i)
    buttons := .const { state := .released, stuckTimer := none }
    meters := .tabulate fun a => .fresh (r.meterA.get a) (r.meterB.get a)
    additiveLines := r.additive
    warning := false }

/-- An empty compartment selection (R74). -/
def Selection.empty : Selection := { first := none, last := none, excluded := [] }

/-- A bay after a reset: OUT_OF_SERVICE if its service flag is set, LOCKED otherwise (R74). -/
def BayController.fresh (out : Bool) : BayController :=
  { status := if out then .outOfService else .locked, closePending := false, driver := none, order := none
    selection := .empty, plan := [], pinTimer := none, inactivityTimer := none, deadmanTimer := none
    stage := .quiet, alarm := false, leftInWarning := [] }

/-- A Metering Engine channel after blank initialisation (R94, R173). -/
def MeteringChannel.blank : MeteringChannel :=
  { rawResidue := 0, grossResidue := 0, netResidue := 0, reverseResidue := 0, gross := 0, net := 0, unauthorized := 0
    rateWindow := [0, 0, 0, 0], temperatures := [], shownTemperature := none, shownUnauthorized := 0 }

/-- A Flow Controller after a reset: the learned lead is the initial lead, at most the lead maximum (R111). -/
def FlowController.fresh (r : ArmRecord) : FlowController :=
  { state := .idle, command := .close, causes := [], releaseMark := false, lead := min r.initialLead r.leadMaximum
    closingCount := 0, closingTimer := none, noFlowTimer := none, pauseTimer := none }

/-- An injector channel's working state after a reset, with the residue retained memory gives (R132). -/
def ChannelState.fresh (residue : Nat) : ChannelState :=
  { serving := none, place := .none, owed := 0, failed := 0, residue := residue, leak := 0 }

/-- A pump after a reset (R134). -/
def PumpState.fresh : PumpState :=
  { status := .idle, queue := [], restTimer := none, shotTimer := none, pulseCount := 0, target := 0, volume := 0 }

end Sys2Proof.Machine
end

