-- ==== Sys2Proof/Machine/State.lean ====
section
/-! DEFINITION. The state of the LD-42, the reasons a step can stop, and the state right after reset. -/

namespace Sys2Proof.Machine

/-- Reasons to stop with a fault: none. No rule of the manual stops the part; what goes wrong in it is a result code, a
stop cause or a C flag. Nothing raises a fault, so this is safe. -/
inductive Fault where
deriving DecidableEq, Repr

/-- Reasons to refuse a command. -/
inductive Refusal where
  /-- Raised by `exec` alone, for a command that has no meaning yet: safe. Every command has one, so nothing raises it. -/
  | notModelled (mnemonic : String)
deriving DecidableEq, Repr

/-- The state of the part, block by block (00, Block overview), and the queue of commands that wait. -/
structure State where
  /-- Whether the part runs (R36, R157, R161). -/
  condition : Condition
  /-- Link Controller, with the Rack Clock. -/
  lc : LinkController
  /-- Input Conditioner. -/
  ic : InputConditioner
  /-- The working copies of the nonvolatile records (R163). -/
  wc : NvRecords
  /-- Permit Table: the bound bays. -/
  pt : PermitTable
  /-- Order Book: the Order Table. -/
  ob : OrderBook
  /-- Bay Session Controllers. -/
  bsc : PerBay BayController
  /-- Metering Engine channels. -/
  me : PerArm MeteringChannel
  /-- Flow Controllers. -/
  fc : PerArm FlowController
  /-- The running compartment record of each arm, absent while it is IDLE (R94). -/
  running : PerArm (Option Running)
  /-- Additive Dosing Unit. -/
  adu : DosingUnit
  /-- Note Store. -/
  ns : NoteStore
  /-- Nonvolatile Store Controller. -/
  nvc : NvController
  /-- The MODEL's own field: the commands that wait, first in, first out. -/
  pending : List Instr
deriving DecidableEq, Repr

/-- The part as it leaves the power-on reset of a new device: no format mark was found, so the store is blank-initialised
(R173), and restoration is in progress. Straps and lines read as `ResetLines.allLow` (log 5). -/
def State.reset : State :=
  { condition := .restoring
    lc := { links := .const (.fresh 0 .unused), baudStrap := 0, clock := { count := 0, isSet := false } }
    ic := .fresh .allLow
    wc := .blank
    pt := { bound := [] }
    ob := { orders := [] }
    bsc := .const (.fresh false)
    me := .const .blank
    fc := .const (.fresh .blank)
    running := .const none
    adu := { channels := .const (.fresh 0), pumps := .const .fresh }
    ns := { reserved := .const false, held := .const false }
    nvc :=
      { store := .blank, formatMark := true, blankStrap := false, queue := [], buffer := none, phase := .normal
        areaWrite := none, clearDue := false, area := .const none, retainedValid := true, retainedLost := false }
    pending := [] }

end Sys2Proof.Machine
end

