-- ==== Sys2Proof/Machine/Ops.lean ====
section
/-! DEFINITION. The named reads and updates of the state: one per block member, and what several blocks ask of the field
lines and of each other (R10, R19, R23, R35, R37). -/

namespace Sys2Proof.Machine

/-! ### Updates, one per block member -/

/-- Link `l` changed by `f`. -/
def State.modifyLink (s : State) (l : Link) (f : StationLink → StationLink) : State :=
  { s with lc := { s.lc with links := s.lc.links.modify l f } }
/-- The Rack Clock replaced. -/
def State.setClock (s : State) (c : RackClock) : State := { s with lc := { s.lc with clock := c } }
/-- Discrete input `i` replaced. -/
def State.setInput (s : State) (i : DiscreteInput) (x : InputState) : State :=
  { s with ic := { s.ic with inputs := s.ic.inputs.set i x } }
/-- The dead-man button of bay `b` replaced. -/
def State.setButton (s : State) (b : Bay) (x : Button) : State :=
  { s with ic := { s.ic with buttons := s.ic.buttons.set b x } }
/-- The meter input of arm `a` replaced. -/
def State.setMeter (s : State) (a : Arm) (x : MeterInput) : State :=
  { s with ic := { s.ic with meters := s.ic.meters.set a x } }
/-- The filtered level of the additive meter line of channel `c` replaced. -/
def State.setAdditiveLine (s : State) (c : Channel) (x : LineLevel) : State :=
  { s with ic := { s.ic with additiveLines := s.ic.additiveLines.set c x } }
/-- The power-fail warning replaced. -/
def State.setWarning (s : State) (x : Bool) : State := { s with ic := { s.ic with warning := x } }
/-- The working copies replaced. -/
def State.setCopies (s : State) (x : NvRecords) : State := { s with wc := x }
/-- The bound bays replaced. -/
def State.setBound (s : State) (x : Assoc Bay) : State := { s with pt := { bound := x } }
/-- The Order Table replaced. -/
def State.setOrders (s : State) (x : Assoc Order) : State := { s with ob := { orders := x } }
/-- Bay `b`'s session changed by `f`. -/
def State.modifyBay (s : State) (b : Bay) (f : BayController → BayController) : State :=
  { s with bsc := s.bsc.modify b f }
/-- Arm `a`'s Metering Engine channel replaced. -/
def State.setMe (s : State) (a : Arm) (x : MeteringChannel) : State := { s with me := s.me.set a x }
/-- Arm `a`'s Flow Controller changed by `f`. -/
def State.modifyFc (s : State) (a : Arm) (f : FlowController → FlowController) : State :=
  { s with fc := s.fc.modify a f }
/-- Arm `a`'s running compartment record replaced. -/
def State.setRunning (s : State) (a : Arm) (x : Option Running) : State := { s with running := s.running.set a x }
/-- Arm `a`'s running compartment record changed by `f` where it is present. -/
def State.modifyRunning (s : State) (a : Arm) (f : Running → Running) : State :=
  { s with running := s.running.modify a (Option.map f) }
/-- Injector channel `c`'s working state changed by `f`. -/
def State.modifyChannel (s : State) (c : Channel) (f : ChannelState → ChannelState) : State :=
  { s with adu := { s.adu with channels := s.adu.channels.modify c f } }
/-- Pump `p` changed by `f`. -/
def State.modifyPump (s : State) (p : Additive) (f : PumpState → PumpState) : State :=
  { s with adu := { s.adu with pumps := s.adu.pumps.modify p f } }
/-- The Note Store's marks replaced. -/
def State.setNs (s : State) (x : NoteStore) : State := { s with ns := x }
/-- The NVC replaced. -/
def State.setNvc (s : State) (x : NvController) : State := { s with nvc := x }
/-- The condition replaced. -/
def State.setCondition (s : State) (x : Condition) : State := { s with condition := x }

/-! ### Condition of the part -/

/-- The part is out of reset and has power: running or in restoration (R36, R161). -/
def State.alive (s : State) : Bool := s.condition = .running || s.condition = .restoring
/-- Restoration is complete (R161). -/
def State.isRunning (s : State) : Bool := s.condition = .running
/-- The Link Controller hands requests to owners: restoration is complete and the power-fail warning is not asserted (R14, R161). -/
def State.answering (s : State) : Bool := s.isRunning && !s.ic.warning

/-! ### Accepted levels (R19, R23) -/

/-- The accepted level of an input is its energized one. -/
def State.accepts (s : State) (i : DiscreteInput) : Bool := (s.ic.inputs.get i).accepted = .energized
/-- The ground, overfill and vapour permissives of a bay are PRESENT. -/
def State.permissivesPresent (s : State) (b : Bay) : Bool :=
  s.accepts (.permissive .ground b) && s.accepts (.permissive .overfill b) && s.accepts (.permissive .vapour b)
/-- The arm is NOT_PARKED. -/
def State.notParked (s : State) (a : Arm) : Bool := s.accepts (.parked a)
/-- The emergency stop is INACTIVE. -/
def State.stopInactive (s : State) : Bool := s.accepts .emergencyStop
/-- The seal is OPEN (R33). -/
def State.sealOpen (s : State) : Bool := s.accepts .sealSwitch
/-- The loading permissive condition of an arm (R23). -/
def State.loadingPermissive (s : State) (a : Arm) : Bool :=
  s.permissivesPresent a.bay && s.notParked a && s.stopInactive

/-! ### Arms and bays -/

/-- The flowing states (00, Terms). -/
def ArmState.flowing : ArmState → Bool
  | .lowStart => true | .highFlow => true | .topOff => true
  | .idle => false | .closing => false | .paused => false | .ending => false
/-- The arm is IDLE. -/
def State.armIdle (s : State) (a : Arm) : Bool := (s.fc.get a).state = .idle
/-- The arm is in LOW_START, HIGH_FLOW or TOP_OFF. -/
def State.armFlowing (s : State) (a : Arm) : Bool := (s.fc.get a).state.flowing
/-- Both arms of the bay are IDLE. -/
def State.armsIdle (s : State) (b : Bay) : Bool := b.arms.all fun a => s.armIdle a
/-- An arm of the bay is in a flowing state (R90). -/
def State.bayFlowing (s : State) (b : Bay) : Bool := b.arms.any fun a => s.armFlowing a
/-- The active compartment of an arm: its running record, unless the arm is IDLE (R95). -/
def State.active (s : State) (a : Arm) : Option Running :=
  if s.armIdle a then none else s.running.get a

/-- An arm's running quantity in a basis (R111). -/
def Running.quantity (r : Running) : Nat :=
  match r.flow.basis with
  | .gross => r.metering.gross
  | .net => r.metering.net

/-! ### The Rack Clock (R17) -/

/-- A timestamp: the count if the clock is set, absent otherwise (R17). -/
def State.timestamp (s : State) : Option Nat := if s.lc.clock.isSet then some s.lc.clock.count else none
/-- The day number (R17). -/
def State.today (s : State) : Nat := s.lc.clock.count / 86400

/-! ### The Permit Table (R37) -/

/-- The bound bay of a driver. -/
def State.boundBay (s : State) (driver : Nat) : Option Bay := s.pt.bound.find driver

/-! ### The Note Store (R148, R149) -/

/-- The number of notes in the collection: "notes waiting". -/
def State.notesHeld (s : State) : Nat := s.wc.notes.length
/-- The reservation count: the number of arms whose mark is set. -/
def State.reservations (s : State) : Nat := (Arm.all.filter fun a => s.ns.reserved.get a).length

/-! ### The NV Write Queue (R164) -/

/-- The queue holds 8 or more entries: NV_BUSY, and a setting request is refused BUSY (R164, R165). -/
def State.nvBusy (s : State) : Bool := Config.busyLimit ≤ s.nvc.queue.length

/-! ### Outputs (R35) -/

/-- The horn of a bay is commanded on: the stage is WARNING or the alarm is set (R74). -/
def BayController.horn (b : BayController) : Bool := b.stage = .warning || b.alarm
/-- The upstream solenoid of an arm's valve is energized: OPEN (R112); in reset or without power it is not (R35). -/
def State.upstreamSolenoid (s : State) (a : Arm) : Bool := s.alive && (s.fc.get a).command = .openValve
/-- The downstream solenoid is energized: OPEN or HOLD (R112). -/
def State.downstreamSolenoid (s : State) (a : Arm) : Bool := s.alive && (s.fc.get a).command ≠ .close
/-- The injector solenoid of a channel is energized: the channel is in shot (R138, R139). -/
def State.injectorSolenoid (s : State) (c : Channel) : Bool := s.alive && (s.adu.channels.get c).place = .inShot
/-- The pump run output is energized exactly while the pump is in SHOT (R134). -/
def State.pumpRun (s : State) (p : Additive) : Bool :=
  s.alive && (match (s.adu.pumps.get p).status with | .shot _ => true | .idle => false | .rest => false)
/-- The horn output of a bay. -/
def State.hornOutput (s : State) (b : Bay) : Bool := s.alive && (s.bsc.get b).horn

end Sys2Proof.Machine
end

