-- ==== Sys2Proof/Machine/Flags.lean ====
section
/-! DEFINITION. The status word: C flags and the events that raise them (R12), PLAN_RESET (R11), attention lines (R13), the
word's layout (R177) and its clearing (R5). -/

namespace Sys2Proof.Machine

/-! ### C flags -/

/-- The C flags, in the order of R12. -/
inductive CFlag where
  | noteAdded | causeRaised | bayChanged | stockLow | inputChanged | unauthorizedFlow | linkError | linkOverrun
  | roleConflict
deriving DecidableEq, Repr

/-- A flag read. -/
def CFlags.get (f : CFlags) : CFlag → Bool
  | .noteAdded => f.noteAdded
  | .causeRaised => f.causeRaised
  | .bayChanged => f.bayChanged
  | .stockLow => f.stockLow
  | .inputChanged => f.inputChanged
  | .unauthorizedFlow => f.unauthorizedFlow
  | .linkError => f.linkError
  | .linkOverrun => f.linkOverrun
  | .roleConflict => f.roleConflict

/-- A flag set; one already set stays set (R12). -/
def CFlags.raise (f : CFlags) : CFlag → CFlags
  | .noteAdded => { f with noteAdded := true }
  | .causeRaised => { f with causeRaised := true }
  | .bayChanged => { f with bayChanged := true }
  | .stockLow => { f with stockLow := true }
  | .inputChanged => { f with inputChanged := true }
  | .unauthorizedFlow => { f with unauthorizedFlow := true }
  | .linkError => { f with linkError := true }
  | .linkOverrun => { f with linkOverrun := true }
  | .roleConflict => { f with roleConflict := true }

/-- A flag is set: the attention line is asserted (R13). -/
def CFlags.anySet (f : CFlags) : Bool :=
  f.noteAdded || f.causeRaised || f.bayChanged || f.stockLow || f.inputChanged || f.unauthorizedFlow || f.linkError
    || f.linkOverrun || f.roleConflict

/-- The bay of an input, where it belongs to one or to one of its arms (R12, R22). -/
def inputBay : DiscreteInput → Option Bay
  | .permissive _ b => some b
  | .parked a => some a.bay
  | .emergencyStop => none
  | .deadman b => some b
  | .sealSwitch => none

/-- The events that raise C flags, with what decides whom they concern (R12). ROLE_CONFLICT is set by the latch itself. -/
inductive FlagEvent where
  | noteAdded (b : Bay)
  | causeRaised (a : Arm)
  | bayChanged (b : Bay)
  | stockLow
  | inputChanged (i : DiscreteInput)
  | unauthorizedFlow (a : Arm)
  | linkError (l : Link)
  | linkOverrun (l : Link)
deriving DecidableEq, Repr

/-- The flag an event raises. -/
def FlagEvent.flag : FlagEvent → CFlag
  | .noteAdded _ => .noteAdded
  | .causeRaised _ => .causeRaised
  | .bayChanged _ => .bayChanged
  | .stockLow => .stockLow
  | .inputChanged _ => .inputChanged
  | .unauthorizedFlow _ => .unauthorizedFlow
  | .linkError _ => .linkError
  | .linkOverrun _ => .linkOverrun

/-- The column of R12 for a bay panel: the event concerns bay `b`, or its link `l`. -/
def FlagEvent.concernsPanel (e : FlagEvent) (l : Link) (b : Bay) : Bool :=
  match e with
  | .noteAdded b' => b' = b
  | .causeRaised a => a.bay = b
  | .bayChanged b' => b' = b
  | .stockLow => false
  | .inputChanged i => i = .emergencyStop || inputBay i = some b
  | .unauthorizedFlow a => a.bay = b
  | .linkError l' => l' = l
  | .linkOverrun l' => l' = l

/-- The column of R12 for a SERVICE link. -/
def FlagEvent.concernsService : FlagEvent → Bool
  | .inputChanged _ => true
  | .linkError _ => true
  | .linkOverrun _ => true
  | .noteAdded _ | .causeRaised _ | .bayChanged _ | .stockLow | .unauthorizedFlow _ => false

/-- The column of R12 for an UNUSED link. -/
def FlagEvent.concernsUnused (e : FlagEvent) (l : Link) : Bool :=
  match e with
  | .linkError l' => l' = l
  | .linkOverrun l' => l' = l
  | .noteAdded _ | .causeRaised _ | .bayChanged _ | .stockLow | .inputChanged _ | .unauthorizedFlow _ => false

/-- Whether an event concerns the link `l` of a role (the table of R12). -/
def FlagEvent.concerns (e : FlagEvent) (l : Link) : Role → Bool
  | .office => true
  | .panel b => e.concernsPanel l b
  | .service => e.concernsService
  | .unused => e.concernsUnused l

/-- A link as an event leaves it: its flag set, and noted as raised since the last capture, where the event concerns it
(R5, R12). -/
def FlagEvent.mark (e : FlagEvent) (l : Link) (k : StationLink) : StationLink :=
  if e.concerns l k.role then { k with flags := k.flags.raise e.flag, raised := k.raised.raise e.flag } else k

/-- An event sets its flag in the status word of each link it concerns (R12). -/
def State.raiseFlag (s : State) (e : FlagEvent) : State :=
  { s with lc := { s.lc with links := .tabulate fun l => e.mark l (s.lc.links.get l) } }

/-- The attention line of a link: asserted while a C flag is set, de-asserted in reset and without power (R13, R35). -/
def State.attention (s : State) (l : Link) : Bool := s.alive && (s.lc.links.get l).flags.anySet

/-! ### The word -/

/-- A one-bit content at a bit place. -/
def bitAt (b : Bool) (place : Nat) : Nat := if b then 2 ^ place else 0

/-- The C bits of a status word, bits 13 to 5 (R177). -/
def CFlags.bits (f : CFlags) : Nat :=
  bitAt f.noteAdded 13 + bitAt f.causeRaised 12 + bitAt f.bayChanged 11 + bitAt f.stockLow 10 + bitAt f.inputChanged 9
    + bitAt f.unauthorizedFlow 8 + bitAt f.linkError 7 + bitAt f.linkOverrun 6 + bitAt f.roleConflict 5

/-- The status word of link `l` as it stands: kind A from the owners, kind B and C of the link (R5, R10, R177). -/
def State.statusWord (s : State) (l : Link) : StatusWord :=
  let k := s.lc.links.get l
  BitVec.ofNat 32 (s.bsc.bayA.status.code * 2 ^ 29 + s.bsc.bayB.status.code * 2 ^ 26 + s.notesHeld % 128 * 2 ^ 19
    + bitAt s.nvBusy 18 + bitAt s.sealOpen 17 + bitAt s.lc.clock.isSet 16 + bitAt s.nvc.retainedLost 15
    + bitAt k.planReset 14 + k.flags.bits)

/-- The C flags less those a sent status word showed set, but for those raised after its capture (R5). -/
def CFlags.less (f : CFlags) (w : StatusWord) (raised : CFlags) : CFlags :=
  { noteAdded := f.noteAdded && (!w.getLsbD 13 || raised.noteAdded)
    causeRaised := f.causeRaised && (!w.getLsbD 12 || raised.causeRaised)
    bayChanged := f.bayChanged && (!w.getLsbD 11 || raised.bayChanged)
    stockLow := f.stockLow && (!w.getLsbD 10 || raised.stockLow)
    inputChanged := f.inputChanged && (!w.getLsbD 9 || raised.inputChanged)
    unauthorizedFlow := f.unauthorizedFlow && (!w.getLsbD 8 || raised.unauthorizedFlow)
    linkError := f.linkError && (!w.getLsbD 7 || raised.linkError)
    linkOverrun := f.linkOverrun && (!w.getLsbD 6 || raised.linkOverrun)
    roleConflict := f.roleConflict && (!w.getLsbD 5 || raised.roleConflict) }

/-- PLAN_RESET of a link set or cleared (R11). -/
def State.setPlanReset (s : State) (l : Link) (x : Bool) : State := s.modifyLink l fun k => { k with planReset := x }

end Sys2Proof.Machine
end

