-- ==== Sys2Proof/Machine/Shots.lean ====
section
/-! DEFINITION. Shots, pumps and Shot Queues: serving, ending and cutting shots, and the leaving of flow (R134 to R140). -/

namespace Sys2Proof.Machine

/-- The line record that channel `c` serves, changed by `f` (R135). -/
def State.modifyLine (s : State) (c : Channel) (f : LineRecord → LineRecord) : State :=
  match (s.adu.channels.get c).serving with
  | some i => s.modifyRunning c.arm fun r => { r with lines := r.lines.modify i f }
  | none => s

/-- The shot in progress on a pump ends: the injector closes, the place becomes NONE, and the pump enters REST for its rest
time (R139). -/
def State.endShot (s : State) (p : Additive) : State :=
  match (s.adu.pumps.get p).status with
  | .shot c =>
    (s.modifyChannel c fun k => { k with place := .none }).modifyPump p fun x =>
      { x with status := .rest, restTimer := some (s.wc.pumpRest.get p), shotTimer := none }
  | .idle => s
  | .rest => s

/-- The shot in progress on pump `p` is cut off where its channel is one of those `cut` names (R140). -/
def State.cutShot (cut : Channel → Bool) (s : State) (p : Additive) : State :=
  match (s.adu.pumps.get p).status with
  | .shot c => if cut c then s.endShot p else s
  | .idle => s
  | .rest => s

/-- Every shot in progress on a channel that `cut` names is cut off, ending SHOT_CUT (R140). -/
def State.cutShots (s : State) (cut : Channel → Bool) : State := Additive.all.foldl (State.cutShot cut) s

/-- A queued channel leaves its Shot Queue and its shot returns to the owed count (R137). -/
def State.unqueue (s : State) (c : Channel) : State :=
  if (s.adu.channels.get c).place = .queued then
    let s1 := { s with adu := { s.adu with
      pumps := .tabulate fun p => { s.adu.pumps.get p with queue := (s.adu.pumps.get p).queue.filter (· ≠ c) } } }
    let s2 := s1.modifyLine c fun x => { x with requested := x.requested - 1 }
    s2.modifyChannel c fun k => { k with place := .none, owed := k.owed + 1 }
  else s

/-- The arm leaves the flowing states: its queued channels are removed from the Shot Queues (R137). -/
def State.dosingLeft (s : State) (a : Arm) : State := (s.unqueue a.lowerChannel).unqueue a.upperChannel

/-- Every Shot Queue is emptied, each channel treated as in the leaving rule (R140). -/
def State.emptyQueues (s : State) : State := Channel.all.foldl State.unqueue s

/-- A pump serves the oldest channel of its queue, where it is IDLE, the emergency stop INACTIVE and the warning
de-asserted (R138). -/
def State.serve (s : State) (p : Additive) : State :=
  let pump := s.adu.pumps.get p
  match pump.status, pump.queue with
  | .idle, c :: rest =>
    if s.stopInactive && !s.ic.warning then
      let inj := s.wc.injectors.get c
      (s.modifyChannel c fun k => { k with place := .inShot }).modifyPump p fun x =>
        { x with
          status := .shot c, queue := rest, pulseCount := 0, volume := 0
          target := (inj.shotVolume * inj.kMilli + 999999) / 1000000
          shotTimer := some inj.timeLimit }
    else s
  | _, _ => s

/-- Every pump that may serve does so: the emergency stop became INACTIVE, or the warning de-asserted (R138). -/
def State.serveAll (s : State) : State := Additive.all.foldl State.serve s

/-- A channel joins the end of the Shot Queue of its pump, and an IDLE pump serves at once (R136, R138). -/
def State.joinQueue (s : State) (c : Channel) : State :=
  match (s.wc.injectors.get c).additive with
  | some p =>
    ((s.modifyChannel c fun k => { k with place := .queued }).modifyPump p fun x =>
      { x with queue := x.queue ++ [c] }).serve p
  | none => s

/-- The pump whose shot in progress is on channel `c`. -/
def State.shotPump (s : State) (c : Channel) : Option Additive :=
  Additive.all.find? fun p => (s.adu.pumps.get p).status = .shot c

/-- A channel of the arm is IN_SHOT: the ADU has not yet answered the Flow Controller (R119, R146). -/
def State.armInShot (s : State) (a : Arm) : Bool :=
  (s.adu.channels.get a.lowerChannel).place = .inShot || (s.adu.channels.get a.upperChannel).place = .inShot

/-- The channel of the arm that serves an additive type: 2a, or 2a+1 where only that one carries it (R135). -/
def State.servingChannel (s : State) (a : Arm) (t : Additive) : Option Channel :=
  if (s.wc.injectors.get a.lowerChannel).additive = some t then some a.lowerChannel
  else if (s.wc.injectors.get a.upperChannel).additive = some t then some a.upperChannel
  else none

end Sys2Proof.Machine
end

