-- ==== Sys2Proof/Machine/Flow.lean ====
section
/-! DEFINITION. The Flow Controller: entering each arm state, raising a stop cause, regulation, staging and the end of
closing, with what the Bay Session Controller and the ADU are told (R90, R111 to R123). -/

namespace Sys2Proof.Machine

/-! ### The Stop-Cause Set (R120) -/

/-- A terminal cause ends the compartment; the others are resumable (R120). The end reason it gives. -/
def StopCause.endReason : StopCause → Option EndReason
  | .emergencyStop => some .emergencyStop
  | .powerFail => some .powerFail
  | .bayOutOfService => some .bayOutOfService
  | .orderCancelled => some .orderCancelled
  | .pulseFault => some .pulseFault
  | .probeFault => some .probeFault
  | .permissiveLost | .additiveFault | .additiveLag | .noFlow | .deadman | .officeStop | .driverStop => none

/-- A cause joined to a set held in priority order. -/
def joinCause (c : StopCause) : List StopCause → List StopCause
  | [] => [c]
  | d :: rest => if c.priority < d.priority then c :: d :: rest else if c = d then d :: rest else d :: joinCause c rest

/-- The clearing condition of a cause on an arm (R120). -/
def State.clears (s : State) (a : Arm) : StopCause → Bool
  | .emergencyStop => s.stopInactive
  | .permissiveLost => s.permissivesPresent a.bay && s.notParked a
  | .additiveLag =>
    (s.adu.channels.get a.lowerChannel).owed ≤ Config.lagLimit && (s.adu.channels.get a.upperChannel).owed ≤ Config.lagLimit
  | .officeStop => (s.fc.get a).releaseMark
  | .powerFail | .bayOutOfService | .orderCancelled | .pulseFault | .probeFault | .additiveFault | .noFlow | .deadman
  | .driverStop => true

/-! ### What the Bay Session Controller is told (R90, R92) -/

/-- The first arm of a bay enters a flowing state: the dead-man timer starts for D in QUIET (R90). -/
def State.startDeadman (s : State) (b : Bay) : State :=
  s.modifyBay b fun x =>
    { x with deadmanTimer := some (s.wc.rack.deadmanInterval * 1000), stage := .quiet, leftInWarning := [] }

/-- An arm's leaving of the flowing states noted while the stage is WARNING (R91, log 32). -/
def BayController.noteLeft (x : BayController) (a : Arm) : BayController :=
  { x with
    leftInWarning :=
      if x.stage = .warning && !x.leftInWarning.contains a then x.leftInWarning ++ [a] else x.leftInWarning }

/-- An arm has left the flowing states: where none of the bay is left in them, the timer stops and the stage is QUIET (R90). -/
def State.deadmanFlowLeft (s : State) (a : Arm) : State :=
  s.modifyBay a.bay fun x =>
    if s.bayFlowing a.bay then x.noteLeft a else { x.noteLeft a with deadmanTimer := none, stage := .quiet }

/-- DEADMAN has left a set: the alarm is cleared where neither arm of the bay holds it (R92). -/
def State.deadmanCauseLeft (s : State) (b : Bay) : State :=
  if b.arms.any fun a => (s.fc.get a).causes.contains .deadman then s
  else s.modifyBay b fun x => { x with alarm := false }

/-! ### Entering states -/

/-- The ADU and the Bay Session Controller take an arm's leaving of the flowing states (R90, R137). -/
def State.flowLeft (s : State) (a : Arm) : State := (s.dosingLeft a).deadmanFlowLeft a

/-- The end reason of an arm's compartment fixed (R117, R119). -/
def State.setEndReason (s : State) (a : Arm) (r : EndReason) : State :=
  s.modifyRunning a fun x => { x with flow := { x.flow with endReason := some r } }

/-- Entering CLOSING: CLOSE, closing count 0, closing timer 10 s, no-flow and pause timers stopped (R117). -/
def State.enterClosing (s : State) (a : Arm) (r : EndReason) : State :=
  let s1 := (s.modifyFc a fun x =>
    { x with
      state := .closing, command := .close, closingCount := 0, closingTimer := some Config.closingTime
      noFlowTimer := none, pauseTimer := none }).setEndReason a r
  if s.armFlowing a then s1.flowLeft a else s1

/-- Entering PAUSED from a flowing state: CLOSE, no-flow timer stopped, pause timer started (R121, R128). -/
def State.enterPaused (s : State) (a : Arm) : State :=
  (s.modifyFc a fun x =>
    { x with
      state := .paused, command := .close, noFlowTimer := none
      pauseTimer := some (s.wc.rack.pauseTimeout * 1000) }).flowLeft a

/-- Entering ENDING: CLOSE and every timer of the arm stopped; a hand-over that reaches the Note Store while the warning is
asserted is held (R119, R158). -/
def State.enterEnding (s : State) (a : Arm) : State :=
  let s1 := s.modifyFc a fun x =>
    { x with state := .ending, command := .close, closingTimer := none, noFlowTimer := none, pauseTimer := none }
  if s.ic.warning then s1.setNs { s1.ns with held := s1.ns.held.set a true } else s1

/-- A stop cause raised on an arm, taken against its state (R121). A cause that joins the set sets CAUSE_RAISED, and cuts
off the shots of the arm's channels (R140). -/
def State.raiseCause (s : State) (a : Arm) (c : StopCause) : State :=
  let x := s.fc.get a
  if x.state = .idle || x.causes.contains c then s
  else
    let s1 := (((s.modifyFc a fun y => { y with causes := joinCause c y.causes }).raiseFlag (.causeRaised a)).cutShots
      fun k => k.arm = a)
    match x.state, c.endReason with
    | .lowStart, some r | .highFlow, some r | .topOff, some r | .paused, some r => s1.enterClosing a r
    | .lowStart, none | .highFlow, none | .topOff, none => s1.enterPaused a
    | _, _ => s1

/-- Causes raised in turn on one arm. -/
def State.raiseCauses (s : State) (a : Arm) (cs : List StopCause) : State := cs.foldl (fun t c => t.raiseCause a c) s

/-- One cause raised on each of several arms, each against its own state. -/
def State.raiseOn (s : State) (arms : List Arm) (c : StopCause) : State := arms.foldl (fun t a => t.raiseCause a c) s

/-! ### Regulation and staging -/

/-- The flow rate of the arm's last four intervals (R99). -/
def MeteringChannel.rate (m : MeteringChannel) : Nat := min Config.maxRate (m.rateWindow.sum * 60 / 1000)

/-- The setpoint of a flowing state (R114). -/
def ArmRecord.setpoint (r : ArmRecord) : ArmState → Nat
  | .highFlow => r.highRate
  | .lowStart => r.lowRate
  | .topOff => r.lowRate
  | .idle | .closing | .paused | .ending => 0

/-- The command that regulates a rate toward a setpoint with a deadband (R114). -/
def regulate (setpoint deadband rate : Nat) : ValveCommand :=
  if rate + deadband < setpoint then .openValve
  else if setpoint + deadband < rate then .close
  else .hold

/-- The stages of a load, in their order (R115). -/
inductive Stage where
  | lowStart | highFlow | topOff | closing
deriving DecidableEq, Repr

/-- The place of a stage in the order of R115. -/
def Stage.rank : Stage → Nat
  | .lowStart => 0 | .highFlow => 1 | .topOff => 2 | .closing => 3

/-- The arm state of a stage. -/
def Stage.state : Stage → ArmState
  | .lowStart => .lowStart | .highFlow => .highFlow | .topOff => .topOff | .closing => .closing

/-- The stage of a flowing state. -/
def ArmState.stage : ArmState → Option Stage
  | .lowStart => some .lowStart
  | .highFlow => some .highFlow
  | .topOff => some .topOff
  | .idle | .closing | .paused | .ending => none

/-- The stage a running quantity implies (R115). -/
def impliedStage (r : ArmRecord) (lead preset q : Nat) : Stage :=
  if preset ≤ q + lead then .closing
  else if preset ≤ q + r.topOffVolume * 1000 then .topOff
  else if r.startVolume * 1000 ≤ q then .highFlow
  else .lowStart

/-- The no-flow timer's period for an arm (R127, R130). -/
def ArmRecord.noFlowPeriod (r : ArmRecord) : Nat := r.noFlowTime * 1000

/-- The arm enters a flowing state from outside them: the command is chosen from the rate of the last interval, the no-flow
timer starts if it is OPEN, and the Bay Session Controller is told (R90, R114, R116, R126). -/
def State.enterFlow (s : State) (a : Arm) (st : ArmState) : State :=
  let r := s.wc.arms.get a
  let cmd := regulate (r.setpoint st) r.deadband (s.me.get a).rate
  let s1 := s.modifyFc a fun x =>
    { x with
      state := st, command := cmd, pauseTimer := none
      noFlowTimer := if cmd = .openValve then some r.noFlowPeriod else none }
  if s.armFlowing a.other then s1 else s1.startDeadman a.bay

/-- The arm takes a stage at START or RESUME: a flowing stage, or CLOSING with end reason COMPLETE (R116, R126). -/
def State.enterStage (s : State) (a : Arm) (st : Stage) : State :=
  match st with
  | .closing => s.enterClosing a .complete
  | .lowStart => s.enterFlow a .lowStart
  | .highFlow => s.enterFlow a .highFlow
  | .topOff => s.enterFlow a .topOff

/-- The no-flow timer as an interval end leaves it (R127): started as the command becomes OPEN, restarted for its period by
an interval with flow, running on without, stopped when the command leaves OPEN. -/
def noFlowAfter (old new : ValveCommand) (n : Nat) (period : Nat) (timer : Timer) : Timer :=
  if new = .openValve then
    if old = .openValve then (if 0 < n then some (timer.getD period) else timer) else some period
  else none

/-- The command chosen and the no-flow timer judged at an interval end of a flowing arm (R113, R114, R127). -/
def State.regulateArm (s : State) (a : Arm) (n : Nat) : State :=
  let r := s.wc.arms.get a
  s.modifyFc a fun x =>
    let cmd := regulate (r.setpoint x.state) r.deadband (s.me.get a).rate
    { x with command := cmd, noFlowTimer := noFlowAfter x.command cmd n r.noFlowPeriod x.noFlowTimer }

/-- Staging at an interval end: a flowing arm moves to the implied stage if that comes later (R115). -/
def State.stageArm (s : State) (a : Arm) : State :=
  match (s.fc.get a).state.stage, s.running.get a with
  | some now, some r =>
    let st := impliedStage (s.wc.arms.get a) (s.fc.get a).lead r.flow.preset r.quantity
    if now.rank < st.rank then
      match st with
      | .closing => s.enterClosing a .complete
      | .lowStart | .highFlow | .topOff => s.modifyFc a fun x => { x with state := st.state }
    else s
  | _, _ => s

/-! ### The end of closing (R117, R118) -/

/-- The lead learned from an overrun: lead + trunc(O / 2), within 0 and the lead maximum (R118). -/
def learnedLead (lead leadMaximum : Nat) (overrun : Int) : Nat :=
  min leadMaximum ((lead : Int) + overrun.tdiv 2).toNat

/-- CLOSING ends: the overrun is judged, the lead of a COMPLETE compartment is learned, and the arm enters ENDING (R117, R118). -/
def State.endClosing (s : State) (a : Arm) : State :=
  match s.running.get a with
  | some r =>
    let r' := s.wc.arms.get a
    let o : Int := (r.quantity : Int) - r.flow.preset
    let s1 := if (r'.overrunLimit * 1000 : Nat) < o then
        (s.modifyRunning a fun x => { x with flow := { x.flow with overrun := true } }).raiseFlag (.causeRaised a)
      else s
    let s2 := if r.flow.endReason = some .complete then
        s1.modifyFc a fun x => { x with lead := learnedLead x.lead r'.leadMaximum o }
      else s1
    s2.enterEnding a
  | none => s.enterEnding a

/-- The closing count judged at an interval end (R117). -/
def State.countClosing (s : State) (a : Arm) (n : Nat) : State :=
  let c := if n = 0 then (s.fc.get a).closingCount + 1 else 0
  let s1 := s.modifyFc a fun x => { x with closingCount := c }
  if Config.closingCount ≤ c then s1.endClosing a else s1

/-- An interval end at the Flow Controller: causes first, then staging, then the command; in CLOSING the count (R113). -/
def State.flowInterval (s : State) (a : Arm) (n : Nat) (causes : List StopCause) : State :=
  match (s.fc.get a).state with
  | .idle => s
  | .lowStart | .highFlow | .topOff =>
    let s1 := (s.raiseCauses a causes).stageArm a
    if s1.armFlowing a then s1.regulateArm a n else s1
  | .closing => (s.raiseCauses a causes).countClosing a n
  | .paused | .ending => s.raiseCauses a causes

end Sys2Proof.Machine
end

