-- ==== Sys2Proof/Machine/Metering.lean ====
section
/-! DEFINITION. The metering computation: the nine stages of an interval as one operation on an arm's channel and its
running compartment (R94 to R109). -/

namespace Sys2Proof.Machine

/-- What the computation reads of the arm's record and its product (R98, R100, R102, R103, R104). -/
structure MeterParameters where
  kMilli : Option Nat
  mf : MfTable
  offset : Int
  span : Nat
  atcRequired : Bool
  alpha : Nat
  fallback : Int
deriving DecidableEq, Repr

/-- What the computation hands on: the channel, the compartment's part, the forward count, the causes raised in stages 1
and 6, and whether UNAUTHORIZED_FLOW is raised (R95, R108). -/
structure MeterResult where
  channel : MeteringChannel
  part : Option MeteringPart
  forward : Nat
  causes : List StopCause
  unauthorized : Bool
deriving DecidableEq, Repr

/-- K_milli as the computation uses it: 100,000 for an uncommissioned arm (R98). -/
def MeterParameters.k (p : MeterParameters) : Nat := p.kMilli.getD Config.uncommissionedK

/-- The meter factor between or beyond the points that follow `prev` (R100). -/
def mfBeyond (prev : MfPoint) (rate : Nat) : List MfPoint → Nat
  | [] => prev.mf
  | q :: rest =>
    if q.rate ≤ rate then mfBeyond q rate rest
    else ((prev.mf : Int) + (((q.mf : Int) - prev.mf) * ((rate : Int) - prev.rate)).tdiv ((q.rate : Int) - prev.rate)).toNat

/-- The meter factor a table gives at a rate (R100). -/
def MfTable.at (t : MfTable) (rate : Nat) : Nat := if rate ≤ t.first.rate then t.first.mf else mfBeyond t.first rate t.rest

/-- The meter factor of stage 4: 100,000 for an uncommissioned arm (R100). -/
def MeterParameters.mfAt (p : MeterParameters) (rate : Nat) : Nat :=
  match p.kMilli with
  | some _ => p.mf.at rate
  | none => Config.unity

/-- The temperature of a raw count: offset + floor(raw × span / 65,536) (R102). -/
def MeterParameters.temperature (p : MeterParameters) (raw : Nat) : Int := p.offset + ((raw * p.span / 65536 : Nat) : Int)

/-- A sample is good: neither extreme count, and a temperature within −4,000 to +7,000 (R102). -/
def MeterParameters.good (p : MeterParameters) (raw : Nat) : Bool :=
  raw ≠ 0 && raw ≠ 65535 && decide (-4000 ≤ p.temperature raw) && decide (p.temperature raw ≤ 7000)

/-- A good sample accepted into the window of at most four, oldest first (R103). -/
def acceptSample (window : List Int) (t : Int) : List Int :=
  let w := window ++ [t]
  if 4 < w.length then w.drop 1 else w

/-- The working temperature: the mean of the window, by trunc; absent while it is empty (R103). -/
def workingTemperature (window : List Int) : Option Int :=
  match window with
  | [] => none
  | _ :: _ => some (window.sum.tdiv (window.length : Int))

/-- The volume correction factor before its clamp (R105). -/
def vcfUnclamped (alpha : Nat) (t : Int) : Int :=
  let p : Int := (alpha : Int) * (t - Config.referenceTemperature)
  let s : Int := (8 * p * p + 5000000000) / 10000000000
  let v : Int := 1000000000 - p - s
  (v + 5000) / 10000

/-- The volume correction factor, taken within 90,000 to 110,000 (R105). -/
def vcf (alpha : Nat) (t : Int) : Nat := (max 90000 (min 110000 (vcfUnclamped alpha t))).toNat

/-- The clamp of R105 acts. -/
def vcfIsClamped (alpha : Nat) (t : Int) : Bool :=
  decide (vcfUnclamped alpha t < 90000) || decide (110000 < vcfUnclamped alpha t)

/-- The channel after stages 1 to 3: reverse residue, raw residue and rate window (R97, R98, R99). -/
def MeteringChannel.afterRaw (m : MeteringChannel) (k : Nat) (h : Handover) : MeteringChannel :=
  { m with
    reverseResidue := (h.reverse * 1000000 + m.reverseResidue) % k
    rawResidue := (h.nA * 1000000 + m.rawResidue) % k
    rateWindow := (h.nA * 1000000 + m.rawResidue) / k :: m.rateWindow.take 3 }

/-- Reverse millilitres of an interval (R97). -/
def MeteringChannel.reverseMl (m : MeteringChannel) (k : Nat) (h : Handover) : Nat := (h.reverse * 1000000 + m.reverseResidue) / k

/-- Raw millilitres of an interval (R98). -/
def MeteringChannel.rawMl (m : MeteringChannel) (k : Nat) (h : Handover) : Nat := (h.nA * 1000000 + m.rawResidue) / k

/-- Whether stage 6 accepts the sample, by the arm's state and the compartment's phase (R103). -/
def samples (part : Option MeteringPart) : Bool :=
  match part with
  | none => true
  | some x => x.phase = .sampling

/-- This is the first flowing interval of a compartment (R103). -/
def firstFlowing (part : Option MeteringPart) (n : Nat) : Bool :=
  match part with
  | none => false
  | some x => x.phase = .waiting && decide (0 < n)

/-- The compartment's part as an interval leaves it (R96, R97, R103 to R105, R108); the count of marks stays at 65,535 (log 33). -/
def MeteringPart.after (x : MeteringPart) (p : MeterParameters) (h : Handover) (reverseMl grossInc netInc : Nat)
    (substituted : Bool) (tUsed : Int) : MeteringPart :=
  let judged := x.phase = .sampling && !p.good h.raw
  { x with
    pulseErrors := min Config.maxCount (x.pulseErrors + if h.mark then 1 else 0)
    pulseErrorsSeen := x.pulseErrorsSeen || h.mark
    reverse := x.reverse + reverseMl
    phase := if 0 < h.nA then .sampling else x.phase
    probeFault := x.probeFault || judged
    tempSubstituted := x.tempSubstituted || (substituted && decide (0 < grossInc) && !firstFlowing (some x) h.nA)
    vcfClamped := x.vcfClamped || vcfIsClamped p.alpha tUsed
    gross := x.gross + grossInc
    net := x.net + netInc
    weighted := x.weighted + (grossInc : Int) * tUsed }

/-- The causes an interval raises on a compartment: PULSE_FAULT by marks or by reverse volume, PROBE_FAULT (R96, R97, R104). -/
def MeteringPart.causes (x : MeteringPart) (p : MeterParameters) (h : Handover) (reverseMl : Nat) : List StopCause :=
  (if (h.mark && decide (Config.pulseErrorLimit < x.pulseErrors + 1))
      || (decide (0 < reverseMl) && decide (Config.reverseLimit < x.reverse + reverseMl)) then [.pulseFault] else [])
    ++ (if x.phase = .sampling && !p.good h.raw && p.atcRequired then [.probeFault] else [])

/-- The metering computation of one interval (R95): `part` is the active compartment's part, absent where the arm is IDLE. -/
def meterInterval (p : MeterParameters) (m : MeteringChannel) (part : Option MeteringPart) (h : Handover) : MeterResult :=
  let reverseMl := m.reverseMl p.k h
  let m1 := m.afterRaw p.k h
  let mf := p.mfAt m1.rate
  let gnum := m.rawMl p.k h * mf + m.grossResidue
  let grossInc := gnum / Config.unity
  let window := if samples part && p.good h.raw then acceptSample m.temperatures (p.temperature h.raw) else m.temperatures
  let working := workingTemperature window
  let tUsed := working.getD p.fallback
  let nnum := grossInc * vcf p.alpha tUsed + m.netResidue
  let netInc := nnum / Config.unity
  let counter := if part.isSome then m.unauthorized else min Config.maxUnauthorized (m.unauthorized + grossInc)
  { channel :=
      { m1 with
        grossResidue := gnum % Config.unity
        netResidue := nnum % Config.unity
        gross := (m.gross + grossInc) % Config.totalizerModulus
        net := (m.net + netInc) % Config.totalizerModulus
        unauthorized := counter
        temperatures := window
        shownTemperature := working
        shownUnauthorized := counter }
    part := part.map fun x => x.after p h reverseMl grossInc netInc working.isNone tUsed
    forward := h.nA
    causes := match part with
      | some x => x.causes p h reverseMl
      | none => []
    unauthorized := decide (m.unauthorized ≤ Config.unauthorizedLimit) && decide (Config.unauthorizedLimit < counter) }

/-! ### Around the computation -/

/-- The fallback temperature of a product code: 1,500 for code 0 or an empty position (R103). -/
def NvRecords.fallbackOf (r : NvRecords) (code : Nat) : Int :=
  match r.products.find code with
  | some x => x.fallback
  | none => Config.referenceTemperature

/-- The α of a product code: 0 for code 0 or an empty position (R103). -/
def NvRecords.alphaOf (r : NvRecords) (code : Nat) : Nat :=
  match r.products.find code with
  | some x => x.alpha
  | none => 0

/-- What the computation reads for an arm, from the working copies. -/
def State.meterParameters (s : State) (a : Arm) : MeterParameters :=
  let r := s.wc.arms.get a
  { kMilli := r.kMilli, mf := r.mf, offset := r.offset, span := r.span, atcRequired := r.atcRequired
    alpha := s.wc.alphaOf r.product, fallback := s.wc.fallbackOf r.product }

/-- The pulse-error mark: in DUAL mode, an interval with flow whose counts differ by more than the fidelity limit (R29). -/
def pulseErrorMark (r : ArmRecord) (c : IntervalCounts) : Bool :=
  r.mode = .dual && (decide (0 < c.nA) || decide (0 < c.nB))
    && (decide (r.fidelity < c.nA - c.nB) || decide (r.fidelity < c.nB - c.nA))

/-- What the Input Conditioner hands over at an interval end of an arm (R28, R29, R32). -/
def State.handoverOf (s : State) (a : Arm) (raw : Nat) : Handover :=
  let c := (s.ic.meters.get a).counts
  { nA := c.nA, nB := c.nB, reverse := c.reverse, mark := pulseErrorMark (s.wc.arms.get a) c, raw := raw }

/-- The handover made: the counts start again from 0 (R28). -/
def State.takeHandover (s : State) (a : Arm) (h : Handover) : State :=
  s.setMeter a { s.ic.meters.get a with counts := { nA := 0, nB := 0, reverse := 0 }, last := some h }

/-- The computation's result on arm `a` (R95). -/
def State.meterResult (s : State) (a : Arm) (h : Handover) : MeterResult :=
  meterInterval (s.meterParameters a) (s.me.get a) ((s.active a).map Running.metering) h

/-- The computation's changes: the channel, the running record, and UNAUTHORIZED_FLOW (R94, R108). -/
def State.credit (s : State) (a : Arm) (r : MeterResult) : State :=
  let s1 := s.setMe a r.channel
  let s2 := match r.part with
    | some x => s1.modifyRunning a fun y => { y with metering := x }
    | none => s1
  if r.unauthorized then s2.raiseFlag (.unauthorizedFlow a) else s2

/-- A compartment's metering part at an accepted START (R109). -/
def MeteringPart.opening (m : MeteringChannel) : MeteringPart :=
  { openGross := m.gross, openNet := m.net, gross := 0, net := 0, weighted := 0, pulseErrors := 0, reverse := 0
    phase := .waiting, tempSubstituted := false, probeFault := false, vcfClamped := false, pulseErrorsSeen := false }

end Sys2Proof.Machine
end

