-- ==== Sys2Proof/Machine/Dosing.lean ====
section
/-! DEFINITION. The ADU: pacing, additive pulses, stock, failed shots, line records and the check at a compartment's end
(R132 to R147). -/

namespace Sys2Proof.Machine

/-! ### Pacing (R136) -/

/-- The shots a line calls for by a running gross: floor(G × D / (S × 1,000,000)) (R136). -/
def dueShots (gross dose shotVolume : Nat) : Nat := gross * dose / (shotVolume * 1000000)

/-- One line paced at an interval end, and the causes it raises (R136). `g` is the running gross. -/
def State.paceLine (s : State) (g : Nat) (x : LineRecord) : State × List StopCause :=
  if (s.wc.stock.get x.additive).stock = 0 then (s, [.additiveFault])
  else
    let due := dueShots g x.dose (s.wc.injectors.get x.channel).shotVolume
    let s1 := s.modifyChannel x.channel fun k => { k with owed := due - x.requested }
    let ch := s1.adu.channels.get x.channel
    let s2 :=
      if 1 ≤ ch.owed && ch.place = .none then
        ((s1.modifyLine x.channel fun y => { y with requested := y.requested + 1 }).modifyChannel x.channel fun k =>
          { k with owed := k.owed - 1 }).joinQueue x.channel
      else s1
    (s2, if Config.lagLimit < (s2.adu.channels.get x.channel).owed then [.additiveLag] else [])

/-- The lines of a compartment paced in recipe order, with the causes they raise (R136). -/
def State.paceLines (s : State) (g : Nat) : List LineRecord → State × List StopCause
  | [] => (s, [])
  | x :: rest =>
    let r := s.paceLine g x
    let r' := r.1.paceLines g rest
    (r'.1, r.2 ++ r'.2)

/-- The lines of a flowing arm paced at an interval end, with the causes they raise (R136). -/
def State.pace (s : State) (a : Arm) : State × List StopCause :=
  match s.running.get a with
  | some r => if s.armFlowing a then s.paceLines r.metering.gross r.lines else (s, [])
  | none => (s, [])

/-- The interval at the ADU: a flowing arm's lines are paced, as one event, and the causes raised on the arm (R136, log 10). -/
def State.paceArm (s : State) (a : Arm) : State := (s.pace a).1.raiseCauses a (s.pace a).2

/-! ### Stock (R144, R145) -/

/-- An arm that is not IDLE has an active compartment with a line of the type (R145). -/
def State.usesAdditive (s : State) (t : Additive) (a : Arm) : Bool :=
  match s.active a with
  | some r => r.lines.any fun x => x.additive = t
  | none => false

/-- A type's stock replaced in the live table. -/
def State.setStockOf (s : State) (t : Additive) (x : StockRecord) : State :=
  s.setCopies { s.wc with stock := s.wc.stock.set t x }

/-- STOCK_LOW where a type's stock went from at or above its reserve to below it (R144). -/
def State.judgeReserve (s : State) (before after : StockRecord) : State :=
  if before.reserve ≤ before.stock && after.stock < after.reserve then s.raiseFlag .stockLow else s

/-- A volume drawn from a type's stock: STOCK_LOW on crossing the reserve, ADDITIVE_FAULT on reaching 0 (R144, R145). -/
def State.draw (s : State) (t : Additive) (ml : Nat) : State :=
  let x := s.wc.stock.get t
  let y : StockRecord := { x with stock := x.stock - ml }
  let s1 := (s.setStockOf t y).judgeReserve x y
  if 0 < x.stock && y.stock = 0 then s1.raiseOn (Arm.all.filter (s1.usesAdditive t)) .additiveFault else s1

/-! ### Additive meter pulses (R141) -/

/-- A pulse converted: the channel's new residue (R141). -/
def pulseResidue (k residue : Nat) : Nat := (1000000 + residue) % k
/-- A pulse converted: its volume in mL (R141). -/
def pulseVolume (k residue : Nat) : Nat := (1000000 + residue) / k

/-- The pulse counted to the shot in progress on pump `p`: SHOT_DONE where it reaches the target, which resets the
failed-shot count (R139, R141). -/
def State.countShotPulse (s : State) (p : Additive) (c : Channel) (ml : Nat) : State :=
  let s1 := (s.modifyPump p fun x => { x with pulseCount := x.pulseCount + 1, volume := x.volume + ml }).modifyLine c fun x =>
    { x with injected := x.injected + ml }
  let pump := s1.adu.pumps.get p
  if pump.target ≤ pump.pulseCount then (s1.endShot p).modifyChannel c fun k => { k with failed := 0 } else s1

/-- The pulse counted as leak volume (R141, R132). -/
def State.countLeak (s : State) (c : Channel) (ml : Nat) : State :=
  s.modifyChannel c fun k => { k with leak := min Config.maxLeak (k.leak + ml) }

/-- One additive meter pulse on a channel (R141): to the shot or to the leak counter, then drawn from stock. -/
def State.takePulse (s : State) (c : Channel) : State :=
  let inj := s.wc.injectors.get c
  let ml := pulseVolume inj.kMilli (s.adu.channels.get c).residue
  let s1 := s.modifyChannel c fun k => { k with residue := pulseResidue inj.kMilli k.residue }
  let s2 := match s1.shotPump c with
    | some p => s1.countShotPulse p c ml
    | none => s1.countLeak c ml
  match inj.additive with
  | some t => s2.draw t ml
  | none => s2

/-! ### Failed shots (R142) -/

/-- The shot timer of a pump expires: SHOT_SHORT, judged for failure (R139, R142). -/
def State.shotShort (s : State) (p : Additive) : State :=
  match (s.adu.pumps.get p).status with
  | .shot c =>
    let volume := (s.adu.pumps.get p).volume
    let s1 := s.endShot p
    if 2 * volume < (s.wc.injectors.get c).shotVolume then
      if (s.adu.channels.get c).failed = 0 then s1.modifyChannel c fun k => { k with failed := 1 }
      else (s1.modifyChannel c fun k => { k with failed := 0 }).raiseCause c.arm .additiveFault
    else s1.modifyChannel c fun k => { k with failed := 0 }
  | .idle => s
  | .rest => s

/-! ### Lines of a compartment (R135, R146) -/

/-- The line records an accepted START fixes for a recipe on an arm (R135). A line no channel serves has none: the
START's check 5 has found one for each. -/
def State.lineRecords (s : State) (a : Arm) (lines : List RecipeLine) : List LineRecord :=
  lines.filterMap fun x => (s.servingChannel a x.additive).map fun c =>
    { additive := x.additive, dose := x.dose, channel := c, requested := 0, injected := 0 }

/-- Each line's channel takes up its line: owed shots 0, failed-shot count 0 (R135). `i` is the first line's position. -/
def State.serveLines (s : State) (i : Nat) : List LineRecord → State
  | [] => s
  | x :: rest =>
    (s.modifyChannel x.channel fun k => { k with serving := some i, owed := 0, failed := 0 }).serveLines (i + 1) rest

/-- At the hand-over each serving channel of the arm serves no line and owes nothing (R135). -/
def State.releaseLines (s : State) (a : Arm) : State :=
  let free : ChannelState → ChannelState := fun k => if k.serving.isSome then { k with serving := none, owed := 0 } else k
  (s.modifyChannel a.lowerChannel free).modifyChannel a.upperChannel free

/-- A note's additive line from a line record and the running gross (R146). -/
def LineRecord.noteLine (x : LineRecord) (g : Nat) : NoteLine :=
  { additive := x.additive, required := g * x.dose / 1000000, injected := x.injected, shots := x.requested }

/-- The deviation of a note line, permille (R146). -/
def NoteLine.deviation (x : NoteLine) : Int := (((x.injected : Int) - x.required) * 1000).tdiv x.required

/-- A line's deviation exceeds a tolerance; none is judged where required is 0 (R146). -/
def NoteLine.deviates (x : NoteLine) (tolerance : Nat) : Bool :=
  decide (0 < x.required) && decide (tolerance < x.deviation.natAbs)

/-- The tolerance of a recipe code; a free value where its position is empty (log 20). -/
def NvRecords.toleranceOf (r : NvRecords) (recipe : Option Nat) : Nat :=
  match recipe with
  | some n =>
    match r.recipes.find n with
    | some x => x.tolerance
    | none => Config.unstatedTolerance n
  | none => Config.unstatedTolerance 0

end Sys2Proof.Machine
end

