-- ==== Sys2Proof/Machine/Nv.lean ====
section
/-! DEFINITION. The NVC's working: entries and their keys, joining the NV Write Queue, the write of a record, the choice of
the next write, and the working copies rebuilt after a reset (R158 to R168). -/

namespace Sys2Proof.Machine

/-- The key of an entry's contents (R163): a note and its release share one (log 24). -/
def NvContents.key : NvContents → NvKey
  | .driver n _ => .driver n
  | .product n _ => .product n
  | .recipe n _ => .recipe n
  | .arm a _ => .arm a
  | .injector c _ => .injector c
  | .pump p _ => .pump p
  | .rack _ => .rack
  | .bayService b _ => .bayService b
  | .audit _ => .audit
  | .stock _ => .stock
  | .note r _ => .note r.number
  | .release n => .note n
  | .totals a _ => .totals a

/-- A note release (R163). -/
def NvContents.isRelease : NvContents → Bool
  | .release _ => true
  | .driver _ _ | .product _ _ | .recipe _ _ | .arm _ _ | .injector _ _ | .pump _ _ | .rack _ | .bayService _ _ => false
  | .audit _ | .stock _ | .note _ _ | .totals _ _ => false

/-- The class of an entry replaced in place: that of the newer contents, except that an end-class entry stays end class (R164). -/
def EntryClass.replacedBy (old new : EntryClass) : EntryClass := if old = .endClass then .endClass else new

/-- A queued entry as a new entry of the same key leaves it: contents replaced, position kept (R164). -/
def NvEntry.absorb (new : NvEntry) (old : NvEntry) : NvEntry :=
  if old.contents.key = new.contents.key then { contents := new.contents, cls := old.cls.replacedBy new.cls } else old

/-- The queue without the release entries a new release entry replaces (R164). -/
def dropOlderReleases (e : NvEntry) (q : List NvEntry) : List NvEntry :=
  if e.contents.isRelease then q.filter fun o => !o.contents.isRelease || o.contents.key = e.contents.key else q

/-- An entry handed to the NVC: it replaces the queued entry of its key in place, a release by a note of its number too (log 24), or
joins at the newest end (R164). -/
def enqueue (q : List NvEntry) (e : NvEntry) : List NvEntry :=
  let q' := dropOlderReleases e q
  if q'.any fun o => o.contents.key = e.contents.key then q'.map e.absorb else q' ++ [e]

/-- The notes left in a collection by the release of note `n`: those made after it. Where note `n` itself was never
written, every note there is older than it (R164, R168, log 24). -/
def releaseNotes (n : Nat) (notes : List NoteRecord) : List NoteRecord :=
  if notes.any fun r => r.number = n then (notes.dropWhile fun r => r.number ≠ n).drop 1 else []

/-- The records with one entry's contents laid over them: the write of an entry to the store, and a change of a working
copy (R163, R164). -/
def NvRecords.write (r : NvRecords) : NvContents → NvRecords
  | .driver n (some d) => { r with drivers := r.drivers.put n d }
  | .driver n none => { r with drivers := r.drivers.remove n }
  | .product n p => { r with products := r.products.put n p }
  | .recipe n x => { r with recipes := r.recipes.put n x }
  | .arm a x => { r with arms := r.arms.set a x }
  | .injector c x => { r with injectors := r.injectors.set c x }
  | .pump p x => { r with pumpRest := r.pumpRest.set p x }
  | .rack x => { r with rack := x }
  | .bayService b x => { r with outOfService := r.outOfService.set b x }
  | .audit x => { r with audit := x }
  | .stock x => { r with stock := x }
  | .note n next => { r with notes := r.notes ++ [n], nextNote := next }
  | .release n => { r with notes := releaseNotes n r.notes }
  | .totals a x => { r with totals := r.totals.set a x }

/-- The working copies rebuilt from the store, with the write buffer and every queued change laid over it (R163). -/
def NvController.rebuilt (n : NvController) : NvRecords :=
  (n.buffer.toList ++ n.queue).foldl (fun r e => r.write e.contents) n.store

/-- The next checkpoint of the checkpoint phase begun, or the phase ended (R158). -/
def NvController.checkpointNext (n : NvController) : List Arm → NvController
  | [] => { n with phase := .drained }
  | a :: rest => { n with phase := .checkpointing rest, areaWrite := some (.checkpoint a) }

/-- The next write begun, where none is in progress: a clearing that is due (before a new drain too, log 34), the oldest entry, or a
checkpoint (R158, R160, R164). `arms` are the arms that are not IDLE. -/
def NvController.advance (n : NvController) (arms : List Arm) : NvController :=
  if n.buffer.isSome || n.areaWrite.isSome then n
  else if n.clearDue then { n with areaWrite := some .clearing, clearDue := false }
  else
    match n.phase, n.queue with
    | .normal, e :: q => { n with buffer := some e, queue := q }
    | .normal, [] => n
    | .draining, e :: q => { n with buffer := some e, queue := q }
    | .draining, [] => n.checkpointNext arms
    | .checkpointing todo, _ => n.checkpointNext todo
    | .drained, _ => n

/-- The arms that are not IDLE, in arm order. -/
def State.armsNotIdle (s : State) : List Arm := Arm.all.filter fun a => !s.armIdle a

/-- The NVC begins its next write; no write begins before restoration is complete (log 18). -/
def State.advanceNv (s : State) : State :=
  if s.isRunning then s.setNvc (s.nvc.advance s.armsNotIdle) else s

/-- A record's working copy changed and its entry handed to the NVC, in one event (R163, R164). -/
def State.commit (s : State) (c : NvContents) (cls : EntryClass) : State :=
  let s1 := s.setCopies (s.wc.write c)
  (s1.setNvc { s1.nvc with queue := enqueue s1.nvc.queue { contents := c, cls := cls } }).advanceNv

/-- The area holds a checkpoint: the power-fail marker is present (R159). -/
def NvController.marker (n : NvController) : Bool := Arm.all.any fun a => (n.area.get a).isSome

/-- The queue holds a note entry made for the arm (R166). -/
def State.noteQueued (s : State) (a : Arm) : Bool :=
  s.nvc.queue.any fun e => match e.contents with
    | .note r _ => r.arm = a
    | _ => false

/-- No checkpoint write and no clearing is in progress or due: the area is clear for held hand-overs (R160). -/
def State.areaSettled (s : State) : Bool := s.nvc.areaWrite.isNone && !s.nvc.clearDue

/-- An arm's checkpoint as it stands (R159). -/
def State.checkpointOf (s : State) (a : Arm) : Option Checkpoint :=
  match s.running.get a with
  | some r => some { running := r, gross := (s.me.get a).gross, net := (s.me.get a).net }
  | none => none

end Sys2Proof.Machine
end

