-- ==== Sys2Proof/Machine/Session.lean ====
section
/-! DEFINITION. Bay sessions and orders: changes of bay state, the selection's reset, release and close, and what the
Order Book does to an order (R67 to R92). -/

namespace Sys2Proof.Machine

/-! ### Orders -/

/-- An order changed by `f` where the table holds it. -/
def State.modifyOrder (s : State) (n : Nat) (f : Order → Order) : State :=
  match s.ob.orders.find n with
  | some o => s.setOrders (s.ob.orders.put n (f o))
  | none => s

/-- A compartment of an order by its number (R62). -/
def Order.compartment (o : Order) (n : Nat) : Option Compartment := o.compartments.find? fun c => c.number = n

/-- A compartment of an order changed by `f`. -/
def Order.modifyCompartment (o : Order) (n : Nat) (f : Compartment → Compartment) : Order :=
  { o with compartments := o.compartments.map fun c => if c.number = n then f c else c }

/-- The delivered quantity in the preset basis (R62). -/
def Compartment.delivered (c : Compartment) : Nat :=
  match c.basis with
  | .gross => c.deliveredGross
  | .net => c.deliveredNet

/-- The order as a release leaves it: COMPLETE if every compartment is LOADED, OPEN otherwise (R68). -/
def Order.released (o : Order) : Order :=
  { o with
    holding := none, cancelPending := false
    state := if o.compartments.all fun c => c.status = .loaded then .complete else .opened }

/-- The order as a cancellation leaves it (R71, R72). -/
def Order.cancelled (o : Order) : Order := { o with holding := none, cancelPending := false, state := .cancelled }

/-- A recipe is usable for a compartment: it exists and is for the compartment's product (R60). -/
def NvRecords.usableRecipe (r : NvRecords) (c : Compartment) (code : Nat) : Option RecipeRecord :=
  match r.recipes.find code with
  | some x => if x.product = c.product then some x else none
  | none => none

/-- The arm is on the order: it is not IDLE and its active compartment belongs to it (R71). -/
def State.armOnOrder (s : State) (n : Nat) (a : Arm) : Bool :=
  match s.active a with
  | some r => r.flow.order = n
  | none => false

/-! ### Bay states (R74, R87) -/

/-- The bay moves to a state; every change raises BAY_CHANGED (R74). -/
def State.moveBay (s : State) (b : Bay) (st : BayStatus) : State :=
  if (s.bsc.get b).status = st then s
  else (s.modifyBay b fun x => { x with status := st }).raiseFlag (.bayChanged b)

/-- The bay state is one in which the inactivity timer may run (R87). -/
def BayStatus.signedIn : BayStatus → Bool
  | .signed => true | .planning => true | .loading => true
  | .locked => false | .ident => false | .outOfService => false

/-- The inactivity timer started or restarted where it may run, and stopped in every other case (R87). -/
def State.refreshInactivity (s : State) (b : Bay) : State :=
  let run := (s.bsc.get b).status.signedIn && s.armsIdle b
  s.modifyBay b fun x => { x with inactivityTimer := if run then some Config.inactivityTime else none }

/-- The selection is reset to empty, and PLAN_RESET set on the bay's panel link (R11, R78). -/
def State.resetSelection (s : State) (b : Bay) (l : Link) : State :=
  (s.modifyBay b fun x => { x with selection := .empty }).setPlanReset l true

/-- The bound driver of a bay is unbound, on both sides in the one event (R37, R52). -/
def State.unbind (s : State) (b : Bay) : State :=
  match (s.bsc.get b).driver with
  | some d => (s.setBound (s.pt.bound.remove d)).modifyBay b fun x => { x with driver := none }
  | none => s

/-- The held order of a bay is released (R68). -/
def State.releaseOrder (s : State) (b : Bay) : State :=
  match (s.bsc.get b).order with
  | some n => (s.modifyOrder n Order.released).modifyBay b fun x => { x with order := none }
  | none => s

/-- A session close (R86): the order released, the lists cleared, the driver unbound, the timers stopped, and the bay to
LOCKED or OUT_OF_SERVICE. -/
def State.closeSession (s : State) (b : Bay) (dest : BayStatus) : State :=
  (((s.releaseOrder b).unbind b).modifyBay b fun x =>
    { x with
      plan := [], selection := .empty, pinTimer := none, inactivityTimer := none, closePending := false }).moveBay b dest

/-- The session loses its order to a cancellation: held order, Plan List and selection cleared (R71, R72, R78). -/
def State.dropOrder (s : State) (b : Bay) : State :=
  s.modifyBay b fun x => { x with order := none, plan := [], selection := .empty }

/-- The bay leaves IDENT for LOCKED with its driver unbound and its PIN timer stopped (R48, R50, R51). -/
def State.abandonIdent (s : State) (b : Bay) : State :=
  ((s.unbind b).modifyBay b fun x => { x with pinTimer := none }).moveBay b .locked

end Sys2Proof.Machine
end

