-- ==== Sys2Proof/Machine/Notes.lean ====
section
/-! DEFINITION. Delivery notes: building and numbering a note, the hand-over of a compartment, the end report, and what
follows at the Order Book and the bay (R70, R72, R88, R119, R148 to R156). -/

namespace Sys2Proof.Machine

/-- Whole litres of a quantity in mL, by round-half-up (R109). -/
def litres (ml : Nat) : Nat := (ml + 500) / 1000

/-- The next note number after one: after 999,999 it is 1 (R153). -/
def noteNumberAfter (n : Nat) : Nat := if Config.maxNoteNumber ≤ n then 1 else n + 1

/-- The average temperature of a compartment: trunc(weighted sum / running gross); the fallback of its product where the
running gross is 0 (R109). -/
def Running.average (r : Running) (wc : NvRecords) : Int :=
  if r.metering.gross = 0 then wc.fallbackOf r.note.product else r.metering.weighted.tdiv (r.metering.gross : Int)

/-- The note's additive lines (R146). -/
def Running.noteLines (r : Running) : List NoteLine := r.lines.map fun x => x.noteLine r.metering.gross

/-- The end-of-compartment check: some line deviates by more than the recipe's tolerance (R146). -/
def Running.deviates (r : Running) (wc : NvRecords) : Bool :=
  r.noteLines.any fun x => x.deviates (wc.toleranceOf r.note.recipe)

/-- A note built from a running compartment record (R152). -/
def Running.toNote (r : Running) (wc : NvRecords) (a : Arm) (reason : EndReason) (endTime : Option Nat) (close : Totals)
    (recovered : Bool) : NoteRecord :=
  { number := wc.nextNote, bay := r.note.bay, arm := a, order := r.note.order, compartment := r.note.compartment
    driver := r.note.driver, vehicle := r.note.vehicle, product := r.note.product, recipe := r.note.recipe
    startTime := r.note.startTime, endTime := endTime, preset := r.note.preset
    gross := litres r.metering.gross, net := litres r.metering.net, temperature := r.average wc
    openGross := r.metering.openGross, openNet := r.metering.openNet, closeGross := close.gross, closeNet := close.net
    lines := r.noteLines, endReason := reason
    tempSubstituted := r.metering.tempSubstituted, probeFault := r.metering.probeFault
    vcfClamped := r.metering.vcfClamped, overrun := r.flow.overrun, deviation := r.deviates wc
    pulseErrorsSeen := r.metering.pulseErrorsSeen, recovered := recovered }

/-- A note joins the collection: its slot's reservation and the unauthorized-flow counter are cleared, NOTE_ADDED is set,
CAUSE_RAISED where ADDITIVE_DEVIATION is, and three end-class entries go to the NVC (R146, R151, R162). -/
def State.addNote (s : State) (a : Arm) (n : NoteRecord) : State :=
  let s1 := s.setNs { s.ns with reserved := s.ns.reserved.set a false }
  let s2 := s1.setMe a { s1.me.get a with unauthorized := 0 }
  let s3 := s2.raiseFlag (.noteAdded n.bay)
  let s4 := if n.deviation then s3.raiseFlag (.causeRaised a) else s3
  let m := s4.me.get a
  let s5 := s4.commit (.note n (noteNumberAfter n.number)) .endClass
  let s6 := s5.commit (.totals a { gross := m.gross, net := m.net }) .endClass
  s6.commit (.stock s6.wc.stock) .endClass

/-- The compartment end report with a note (R70). -/
def Compartment.ended (c : Compartment) (reason : EndReason) (gross net : Nat) : Compartment :=
  { c with
    deliveredGross := c.deliveredGross + gross, deliveredNet := c.deliveredNet + net
    status := if reason = .complete then .loaded else .partLoaded, loadingArm := none, statusBefore := none }

/-- The compartment end report with no note: the status before loading comes back (R70). -/
def Compartment.unended (c : Compartment) : Compartment :=
  { c with status := c.statusBefore.getD c.status, loadingArm := none, statusBefore := none }

/-- A hand-over is free to be taken: the arm is in ENDING with a record, no channel of it is in shot, the warning is not
asserted, no note entry of the arm is queued, and a hand-over the warning held waits for a clear area and for the held
hand-overs of lower arms (R119, R158, R160, R166). A lower arm's held hand-over that R166 still keeps back does not keep this one
back: R160's arm order is read among those that may be taken (log 11). -/
def State.handOverReady (s : State) (a : Arm) : Bool :=
  s.isRunning && (s.fc.get a).state = .ending && !s.armInShot a && !s.ic.warning && !s.noteQueued a
    && (!s.ns.held.get a
        || (s.areaSettled
            && Arm.all.all fun b => !(decide (b.toNat < a.toNat)) || !s.ns.held.get b || s.noteQueued b))

/-- The Note Store takes a compartment: a note, or the reservation returned where the running gross is 0; and the end report
to the Order Book (R70, R151). -/
def State.takeCompartment (s : State) (a : Arm) (r : Running) : State :=
  if r.metering.gross = 0 then
    (s.setNs { s.ns with reserved := s.ns.reserved.set a false }).modifyOrder r.flow.order fun o =>
      o.modifyCompartment r.flow.compartment Compartment.unended
  else
    let reason := r.flow.endReason.getD .complete
    let m := s.me.get a
    let n := r.toNote s.wc a reason s.timestamp { gross := m.gross, net := m.net } false
    (s.addNote a n).modifyOrder r.flow.order fun o =>
      o.modifyCompartment r.flow.compartment fun c => c.ended reason n.gross n.net

/-- The Flow Controller at a hand-over: the set is emptied, the mark cleared, and the arm becomes IDLE (R119). -/
def FlowController.handedOver (x : FlowController) : FlowController :=
  { x with
    state := .idle, command := .close, causes := [], releaseMark := false, closingCount := 0
    closingTimer := none, noFlowTimer := none, pauseTimer := none }

/-- The arm returns to IDLE with its record discarded, its lines released and its hold ended (R119, R135). -/
def State.armToIdle (s : State) (a : Arm) : State :=
  let s1 := ((s.modifyFc a FlowController.handedOver).setRunning a none).releaseLines a
  s1.setNs { s1.ns with held := s1.ns.held.set a false }

/-- A pending cancellation completes where no arm remains on the order (R72): the order becomes CANCELLED, its session
loses it, and the bay goes to SIGNED, or to OUT_OF_SERVICE where a close is pending (R88). -/
def State.completeCancellation (s : State) (n : Nat) : State :=
  match s.ob.orders.find n with
  | some o =>
    if o.cancelPending && !(Arm.all.any (s.armOnOrder n)) then
      let s1 := s.modifyOrder n Order.cancelled
      match o.holding with
      | some b =>
        let s2 := s1.dropOrder b
        if (s2.bsc.get b).closePending then s2 else (s2.moveBay b .signed).refreshInactivity b
      | none => s1
    else s
  | none => s

/-- The Bay Session Controller is told an arm of the bay has reached IDLE (R87, R88). -/
def State.armReachedIdle (s : State) (b : Bay) : State :=
  if s.armsIdle b then
    if (s.bsc.get b).closePending then s.closeSession b .outOfService
    else if (s.bsc.get b).status = .loading then s.refreshInactivity b
    else s
  else s

/-- The hand-over of an arm (R119): Note Store, Flow Controller, Order Book and Bay Session Controller in one event. -/
def State.handOver (s : State) (a : Arm) : State :=
  match s.running.get a with
  | some r =>
    let hadDeadman := (s.fc.get a).causes.contains .deadman
    let s1 := (s.takeCompartment a r).armToIdle a
    let s2 := s1.completeCancellation r.flow.order
    let s3 := if hadDeadman then s2.deadmanCauseLeft a.bay else s2
    let s4 := s3.modifyBay a.bay fun x => { x with leftInWarning := x.leftInWarning.filter (· ≠ a) }
    s4.armReachedIdle a.bay
  | none => s

/-- The hand-overs that an event frees are taken in that event, in arm order: of the arms whose hand-over was not free
`before` it, those whose hand-over is free after it (R160, R166, log 11). -/
def State.takeFreed (s before : State) : State :=
  Arm.all.foldl (fun t a => if !before.handOverReady a && t.handOverReady a then t.handOver a else t) s

end Sys2Proof.Machine
end

