-- ==== Sys2Proof/Machine/Requests.lean ====
section
/-! DEFINITION. How the Link Controller takes a pending request: the checks of R4, the hand to the owner, and the response
(R4 to R14). -/

namespace Sys2Proof.Machine

/-- What an owner gives back: the result, the response payload, and the state its work leaves (R4). -/
structure Answer where
  result : ResultCode
  payload : List Byte
  state : State
deriving DecidableEq, Repr

/-- A refusal with no payload, leaving the state `s` (R9). -/
def State.refuse (s : State) (r : ResultCode) : Answer := { result := r, payload := [], state := s }

/-- OK with a payload, leaving the state `s` (R9). -/
def State.accept (s : State) (payload : List Byte) : Answer := { result := .ok, payload := payload, state := s }

/-- The roles that may issue a class (R8). -/
def RequestClass.mayIssue : RequestClass → Role → Bool
  | .basic, _ => true
  | .bay, .panel _ => true
  | .bay, .unused | .bay, .office | .bay, .service => false
  | .office, .office => true
  | .office, .unused | .office, .panel _ | .office, .service => false
  | .service, .service => true
  | .service, .unused | .service, .office | .service, .panel _ => false

/-- The response composed: the request's tag and code, the result, the payload, and the status word captured now; no flag is
raised since this capture (R5). -/
def State.respond (s : State) (l : Link) (r : Request) (result : ResultCode) (payload : List Byte) : State :=
  s.modifyLink l fun k =>
    { k with
      slot := .responding { tag := r.tag, code := r.code, result := result, status := s.statusWord l, payload := payload }
      raised := .clear }

/-- The response with an owner's answer. -/
def Answer.send (x : Answer) (l : Link) (r : Request) : State := x.state.respond l r x.result x.payload

/-- The Link Controller takes the pending request of link `l`, where that is a request with code `code`: class and role,
then form, then the owner (R4). Where the link holds no such request, or requests are not being handed on (R14, R161), the
command changes nothing (log 1). -/
def State.serveRequest {α : Type} (s : State) (l : Link) (code : Byte) (cls : RequestClass) (form : Walk α)
    (owner : α → State → Answer) : State :=
  match (s.lc.links.get l).slot with
  | .pending r =>
    if s.answering && r.code = code then
      if cls.mayIssue (s.lc.links.get l).role then
        match walkPayload form r.payload with
        | some x => (owner x s).send l r
        | none => s.respond l r .format []
      else s.respond l r .role []
    else s
  | .empty => s
  | .responding _ => s

/-- A Bay request: PLAN_RESET of the link is cleared first (R11), the Bay Session Controller of the link's bay takes it
(R8), and a request answered OK restarts the inactivity timer where that timer may run (R87). -/
def bayOwner {α : Type} (l : Link) (owner : Bay → α → State → Answer) (x : α) (s : State) : Answer :=
  match (s.lc.links.get l).role with
  | .panel b =>
    let ans := owner b x (s.setPlanReset l false)
    if ans.result = .ok then { ans with state := ans.state.refreshInactivity b } else ans
  | .unused | .office | .service => s.refuse .role

/-- A Bay request taken from link `l` (R8). -/
def State.serveBay {α : Type} (s : State) (l : Link) (code : Byte) (form : Walk α) (owner : Bay → α → State → Answer) :
    State :=
  s.serveRequest l code .bay form (bayOwner l owner)

/-- A Bay request that the bay state does not admit: refused STATE, and in PLANNING the selection is reset (R75, R78). -/
def State.refuseBayState (s : State) (b : Bay) (l : Link) : Answer :=
  if (s.bsc.get b).status = .planning then (s.resetSelection b l).refuse .state else s.refuse .state

/-- A value within a range, both ends included. -/
def within (lo hi n : Nat) : Bool := decide (lo ≤ n) && decide (n ≤ hi)

/-- A value taken as the nearer limit of a range (R39, R93, R128, R130). -/
def clampTo (lo hi n : Nat) : Nat := max lo (min hi n)

/-- A driver number (R37). -/
def driverNumberOk (n : Nat) : Bool := within 1 99999999 n
/-- An order number (R61). -/
def orderNumberOk (n : Nat) : Bool := within 1 9999999 n

end Sys2Proof.Machine
end

