-- ==== Sys2Proof/Machine/BasicRequests.lean ====
section
/-! DEFINITION. The Basic requests and the refusal of an unknown code (R4, R15, R16, R18). -/

namespace Sys2Proof.Machine

/-- IDENTIFY's response payload (R15). -/
def State.identifyPayload (s : State) : List Byte :=
  natBytes 2 Config.vendorCode ++ natBytes 1 Config.partCode ++ natBytes 1 Config.releaseLevel
    ++ Link.all.flatMap (fun l => natBytes 1 (s.lc.links.get l).strap)
    ++ Link.all.flatMap (fun l => natBytes 1 (s.lc.links.get l).role.code)
    ++ natBytes 1 s.lc.baudStrap ++ flagByte s.lc.clock.isSet

/-- IDENTIFY (R15). -/
def execIdentify (l : Link) (s : State) : Host.Outcome State Fault Refusal :=
  .next (s.serveRequest l 0x01#8 .basic formEmpty fun _ t => t.accept t.identifyPayload)

/-- READ_STATUS's response payload: the link's number and its latched role (R15). -/
def State.readStatusPayload (s : State) (l : Link) : List Byte :=
  natBytes 1 l.toNat ++ natBytes 1 (s.lc.links.get l).role.code

/-- READ_STATUS (R15). -/
def execReadStatus (l : Link) (s : State) : Host.Outcome State Fault Refusal :=
  .next (s.serveRequest l 0x02#8 .basic formEmpty fun _ t => t.accept (t.readStatusPayload l))

/-- READ_BAY's response payload (R16). A bay outside PLANNING, where R16 gives no selection entries, sends them in the same form: no
first, no last, and an empty list of excluded numbers (log 15). -/
def State.readBayPayload (s : State) (b : Bay) : List Byte :=
  let x := s.bsc.get b
  natBytes 1 x.status.code ++ flagByte (s.wc.outOfService.get b) ++ optionalBytes (natBytes 4) x.driver
    ++ optionalBytes (natBytes 4) x.order ++ listBytes (natBytes 1) x.plan
    ++ optionalBytes (natBytes 1) x.selection.first ++ optionalBytes (natBytes 1) x.selection.last
    ++ listBytes (natBytes 1) x.selection.excluded ++ flagByte (decide (x.stage = .warning)) ++ flagByte x.horn

/-- READ_BAY at its owner (R16). -/
def readBayOwner (n : Nat) (s : State) : Answer :=
  match Bay.ofNat? n with
  | some b => s.accept (s.readBayPayload b)
  | none => s.refuse .range

/-- READ_BAY (R16). -/
def execReadBay (l : Link) (s : State) : Host.Outcome State Fault Refusal :=
  .next (s.serveRequest l 0x03#8 .basic formByte readBayOwner)

/-- READ_ARM's response payload (R16, log 13, log 15). -/
def State.readArmPayload (s : State) (a : Arm) : List Byte :=
  let x := s.fc.get a
  let m := s.me.get a
  let r := s.wc.arms.get a
  let run := s.active a
  natBytes 1 x.state.code ++ listBytes (fun c => natBytes 1 c.priority) x.causes ++ flagByte r.kMilli.isSome
    ++ natBytes 1 r.product
    ++ optionalBytes (natBytes 4) (run.map fun y => y.flow.order)
    ++ optionalBytes (natBytes 1) (run.map fun y => y.flow.compartment)
    ++ optionalBytes (natBytes 4) (run.map fun y => y.flow.preset)
    ++ optionalBytes (natBytes 8) (run.map fun y => y.metering.gross)
    ++ optionalBytes (natBytes 8) (run.map fun y => y.metering.net)
    ++ natBytes 2 m.rate ++ optionalBytes intBytes m.shownTemperature
    ++ natBytes 8 m.gross ++ natBytes 8 m.net ++ natBytes 8 m.shownUnauthorized

/-- READ_ARM at its owners (R16). -/
def readArmOwner (n : Nat) (s : State) : Answer :=
  match Arm.ofNat? n with
  | some a => s.accept (s.readArmPayload a)
  | none => s.refuse .range

/-- READ_ARM (R16). -/
def execReadArm (l : Link) (s : State) : Host.Outcome State Fault Refusal :=
  .next (s.serveRequest l 0x04#8 .basic formByte readArmOwner)

/-- The clock's count and set flag (R18). -/
def RackClock.payload (c : RackClock) : List Byte := natBytes 4 c.count ++ flagByte c.isSet

/-- READ_CLOCK (R18). -/
def execReadClock (l : Link) (s : State) : Host.Outcome State Fault Refusal :=
  .next (s.serveRequest l 0x05#8 .basic formEmpty fun _ t => t.accept t.lc.clock.payload)

/-- A pending request with a code the part does not know is refused UNKNOWN_REQUEST by the Link Controller (R4). -/
def State.serveUnknown (s : State) (l : Link) : State :=
  match (s.lc.links.get l).slot with
  | .pending r => if s.answering && !knownCode r.code then s.respond l r .unknownRequest [] else s
  | .empty => s
  | .responding _ => s

/-- UNKNOWN_REQUEST (R4). -/
def execUnknownRequest (l : Link) (s : State) : Host.Outcome State Fault Refusal := .next (s.serveUnknown l)

end Sys2Proof.Machine
end

