-- ==== Sys2Proof/Machine/BayRequests.lean ====
section
/-! DEFINITION. The Bay requests: sign-in, planning, and the arms (R45 to R53, R67, R74 to R87, R116, R124 to R126). -/

namespace Sys2Proof.Machine

/-! ### CARD (R45 to R47) -/

/-- The permit has expired: the clock is set, the record has an expiry day, and today is greater (R47). -/
def State.expired (s : State) (d : DriverRecord) : Bool :=
  match d.expiry with
  | some day => s.lc.clock.isSet && decide (day < s.today)
  | none => false

/-- A driver bound to a bay by CARD: IDENT, with the PIN timer started (R46). -/
def State.bindDriver (s : State) (b : Bay) (n : Nat) : State :=
  ((s.setBound (s.pt.bound.put n b)).modifyBay b fun x =>
    { x with driver := some n, pinTimer := some Config.pinTime }).moveBay b .ident

/-- CARD at the bay's controller and the Permit Table (R45, R46). The attempts left are 0 for a count above the limit (log 30). -/
def cardOwner (l : Link) (b : Bay) (n : Nat) (s : State) : Answer :=
  if (s.bsc.get b).status ≠ .locked then s.refuseBayState b l
  else if !driverNumberOk n then s.refuse .range
  else
    match s.wc.drivers.find n with
    | none => s.refuse .notFound
    | some d =>
      if d.status = .blocked then s.refuse .blocked
      else if s.expired d then s.refuse .expired
      else if (s.boundBay n).isSome then s.refuse .driverBusy
      else (s.bindDriver b n).accept (natBytes 1 (s.wc.rack.attemptLimit - d.failed))

/-- CARD (R45). -/
def execCard (l : Link) (s : State) : Host.Outcome State Fault Refusal := .next (s.serveBay l 0x20#8 formLong (cardOwner l))

/-! ### PIN (R48 to R50) -/

/-- The digits within a count of 1 to 8 are digits (R48). -/
def PinField.rangeOk (p : PinField) : Bool := within 1 8 p.count && p.used.all (· ≤ 9)

/-- A driver record changed, with its setting-class entry (R37). -/
def State.putDriver (s : State) (n : Nat) (d : DriverRecord) : State := s.commit (.driver n (some d)) .setting

/-- A setting request whose other checks are passed, of a record that would hold the contents `c`: where it holds them already
(`held`), nothing changes, no entry is needed and none is refused; otherwise BUSY, or the change with its entry (R165, log 35). -/
def State.writeSetting (s : State) (held : Bool) (c : NvContents) : Answer :=
  if held then s.accept []
  else if s.nvBusy then s.refuse .busy
  else (s.commit c .setting).accept []

/-- A matching PIN: SIGNED, timer stopped, count 0 with an entry where it was above 0 (R49). -/
def State.pinMatched (s : State) (b : Bay) (n : Nat) (d : DriverRecord) : State :=
  let s1 := if d.failed = 0 then s else s.putDriver n { d with failed := 0 }
  (s1.modifyBay b fun x => { x with pinTimer := none }).moveBay b .signed

/-- A failed attempt: the count rises, and at the limit, or above it (log 30), the driver is blocked and unbound (R50). -/
def State.pinFailed (s : State) (b : Bay) (n : Nat) (d : DriverRecord) : Answer :=
  let count := d.failed + 1
  let limit := s.wc.rack.attemptLimit
  if count < limit then
    ((s.putDriver n { d with failed := count }).modifyBay b fun x =>
      { x with pinTimer := some Config.pinTime }) |> fun t =>
        { result := .pinFailed, payload := natBytes 1 (limit - count), state := t }
  else
    ((s.putDriver n { d with failed := count, status := .blocked }).abandonIdent b).refuse .blocked

/-- The PIN compared with the bound driver's record (R48, R49, R50). -/
def State.judgePin (s : State) (b : Bay) (n : Nat) (d : DriverRecord) (p : PinField) : Answer :=
  if d.status = .blocked then (s.abandonIdent b).refuse .blocked
  else if s.nvBusy then s.refuse .busy
  else if p.count = d.pin.length && p.used = d.pin then
    (s.pinMatched b n d).accept (listBytes (natBytes 1) d.classes ++ optionalBytes (natBytes 2) d.expiry)
  else s.pinFailed b n d

/-- PIN at the bay's controller and the Permit Table (R48). -/
def pinOwner (l : Link) (b : Bay) (p : PinField) (s : State) : Answer :=
  if (s.bsc.get b).status ≠ .ident then s.refuseBayState b l
  else if !p.rangeOk then s.refuse .range
  else
    match (s.bsc.get b).driver with
    | some n =>
      match s.wc.drivers.find n with
      | some d => s.judgePin b n d p
      | none => s.refuse .notFound
    | none => s.refuse .notFound

/-- PIN (R48). -/
def execPin (l : Link) (s : State) : Host.Outcome State Fault Refusal := .next (s.serveBay l 0x21#8 takePin (pinOwner l))

/-! ### SELECT_ORDER (R67, R76) -/

/-- The Order Book's judgement of a SELECT_ORDER: the order, or the refusal (R67). -/
def State.judgeSelect (s : State) (b : Bay) (n : Nat) : Except ResultCode Order :=
  if !orderNumberOk n then .error .range
  else
    match s.ob.orders.find n with
    | none => .error .notFound
    | some o =>
      if o.state = .held && o.holding ≠ some b then .error .orderBusy
      else if o.state = .cancelled || o.state = .complete then .error .state
      else if (o.driver.isSome && o.driver ≠ (s.bsc.get b).driver) || (o.bay.isSome && o.bay ≠ some b) then .error .range
      else .ok o

/-- The order claimed for the bay, and a different one it held released (R67). -/
def State.claimOrder (s : State) (b : Bay) (n : Nat) : State :=
  let s1 := if (s.bsc.get b).order = some n then s else s.releaseOrder b
  (s1.modifyOrder n fun o => { o with state := .held, holding := some b }).modifyBay b fun x => { x with order := some n }

/-- SELECT_ORDER's response payload (R67, log 16). -/
def Order.selectPayload (o : Order) : List Byte :=
  stringBytes o.vehicle ++ listBytes
    (fun c : Compartment => natBytes 1 c.number ++ natBytes 1 c.status.code ++ natBytes 2 c.planned ++ natBytes 4 c.delivered)
    o.compartments

/-- SELECT_ORDER at the bay's controller and the Order Book (R67, R76). -/
def selectOwner (l : Link) (b : Bay) (n : Nat) (s : State) : Answer :=
  match (s.bsc.get b).status with
  | .signed =>
    match s.judgeSelect b n with
    | .error r => s.refuse r
    | .ok o =>
      (((s.claimOrder b n).modifyBay b fun x => { x with selection := .empty, plan := [] }).moveBay b .planning).accept
        o.selectPayload
  | .planning =>
    let s1 := s.resetSelection b l
    match s1.judgeSelect b n with
    | .error r => s1.refuse r
    | .ok o => (s1.claimOrder b n).accept o.selectPayload
  | .locked | .ident | .loading | .outOfService => s.refuse .state

/-- SELECT_ORDER (R76). -/
def execSelectOrder (l : Link) (s : State) : Host.Outcome State Fault Refusal :=
  .next (s.serveBay l 0x22#8 formLong (selectOwner l))

/-! ### The planning requests (R77 to R80) -/

/-- A compartment number (R77). -/
def compartmentNumberOk (n : Nat) : Bool := within 1 8 n

/-- A planning request on the selection: the new selection, or the refusal (R77). -/
def planningOwner (l : Link) (b : Bay) (judge : Selection → Except ResultCode Selection) (s : State) : Answer :=
  if (s.bsc.get b).status ≠ .planning then s.refuse .state
  else
    match judge (s.bsc.get b).selection with
    | .ok sel => (s.modifyBay b fun x => { x with selection := sel }).accept []
    | .error r => (s.resetSelection b l).refuse r

/-- MARK_FIRST against the selection (R77). -/
def Selection.markFirst (c : Nat) (x : Selection) : Except ResultCode Selection :=
  if !compartmentNumberOk c then .error .range
  else
    match x.first with
    | none => .ok { x with first := some c }
    | some _ => .error .sequence

/-- MARK_LAST against the selection (R77). -/
def Selection.markLast (c : Nat) (x : Selection) : Except ResultCode Selection :=
  if !compartmentNumberOk c then .error .range
  else
    match x.first, x.last with
    | some f, none => if f ≤ c then .ok { x with last := some c } else .error .sequence
    | some _, some _ => .error .sequence
    | none, _ => .error .sequence

/-- EXCLUDE against the selection (R77). -/
def Selection.exclude (c : Nat) (x : Selection) : Except ResultCode Selection :=
  if !compartmentNumberOk c then .error .range
  else
    match x.first, x.last with
    | some f, some t =>
      if !within f t c then .error .sequence
      else if x.excluded.contains c then .ok x
      else if 6 ≤ x.excluded.length then .error .sequence
      else .ok { x with excluded := x.excluded ++ [c] }
    | some _, none => .error .sequence
    | none, _ => .error .sequence

/-- MARK_FIRST (R77). -/
def execMarkFirst (l : Link) (s : State) : Host.Outcome State Fault Refusal :=
  .next (s.serveBay l 0x23#8 formByte fun b c t => planningOwner l b (Selection.markFirst c) t)

/-- MARK_LAST (R77). -/
def execMarkLast (l : Link) (s : State) : Host.Outcome State Fault Refusal :=
  .next (s.serveBay l 0x24#8 formByte fun b c t => planningOwner l b (Selection.markLast c) t)

/-- EXCLUDE (R77). -/
def execExclude (l : Link) (s : State) : Host.Outcome State Fault Refusal :=
  .next (s.serveBay l 0x25#8 formByte fun b c t => planningOwner l b (Selection.exclude c) t)

/-! ### COMMIT_PLAN (R79, R80) -/

/-- The candidate list: the order's compartments within the marked range and not excluded, ascending (R79). -/
def Order.candidates (o : Order) (first last : Nat) (excluded : List Nat) : List Compartment :=
  ((List.range' 1 8).filterMap o.compartment).filter fun c => within first last c.number && !excluded.contains c.number

/-- An arm carries the compartment's product and a channel for every line (R80). -/
def State.armServes (s : State) (product : Nat) (lines : List RecipeLine) (a : Arm) : Bool :=
  (s.wc.arms.get a).product = product && lines.all fun x => (s.servingChannel a x.additive).isSome

/-- The driver's permitted classes include the product's class (R80). -/
def State.classPermitted (s : State) (b : Bay) (product : Nat) : Bool :=
  match (s.bsc.get b).driver with
  | some n =>
    match s.wc.drivers.find n, s.wc.products.find product with
    | some d, some p => d.classes.contains p.cls
    | _, _ => false
  | none => false

/-- A candidate is skipped (R80, tests 1 to 4). -/
def State.skipped (s : State) (b : Bay) (c : Compartment) : Bool :=
  c.status = .loaded || !s.classPermitted b c.product
    || !(b.arms.any fun a => (s.wc.arms.get a).product = c.product)
    || (match c.recipe with
        | none => false
        | some code =>
          match s.wc.usableRecipe c code with
          | some r => !(b.arms.any (s.armServes c.product r.lines))
          | none => true)

/-- The candidates of the bay's selection: of the held order, within the marked range (R79). -/
def State.candidatesOf (s : State) (b : Bay) (first last : Nat) : List Compartment :=
  match (s.bsc.get b).order with
  | some n =>
    match s.ob.orders.find n with
    | some o => o.candidates first last (s.bsc.get b).selection.excluded
    | none => []
  | none => []

/-- COMMIT_PLAN at the bay's controller (R79, R80). -/
def commitOwner (l : Link) (b : Bay) (s : State) : Answer :=
  if (s.bsc.get b).status ≠ .planning then s.refuse .state
  else
    match (s.bsc.get b).selection.first, (s.bsc.get b).selection.last with
    | some f, some t =>
      let candidates := s.candidatesOf b f t
      let plan := (candidates.filter fun c => !s.skipped b c).map Compartment.number
      let skipped := candidates.length - plan.length
      if plan.isEmpty then
        { result := .nothingToLoad, payload := natBytes 1 skipped, state := s.resetSelection b l }
      else
        ((s.modifyBay b fun x => { x with plan := plan, selection := .empty }).moveBay b .loading).accept
          (listBytes (natBytes 1) plan ++ natBytes 1 skipped)
    | some _, none => (s.resetSelection b l).refuse .sequence
    | none, _ => (s.resetSelection b l).refuse .sequence

/-- COMMIT_PLAN (R80). -/
def execCommitPlan (l : Link) (s : State) : Host.Outcome State Fault Refusal :=
  .next (s.serveBay l 0x26#8 formEmpty fun b _ t => commitOwner l b t)

/-! ### NEW_PLAN (R82) -/

/-- NEW_PLAN at the bay's controller (R82). -/
def newPlanOwner (l : Link) (b : Bay) (s : State) : Answer :=
  if (s.bsc.get b).status ≠ .loading then s.refuseBayState b l
  else if !s.armsIdle b then s.refuse .state
  else ((s.modifyBay b fun x => { x with plan := [], selection := .empty }).moveBay b .planning).accept []

/-- NEW_PLAN (R82). -/
def execNewPlan (l : Link) (s : State) : Host.Outcome State Fault Refusal :=
  .next (s.serveBay l 0x27#8 formEmpty fun b _ t => newPlanOwner l b t)

/-! ### START (R83, R84) -/

/-- The recipe lines of a compartment as START judges them: none needed, those of a usable recipe, or not usable (R60, R83). -/
def State.recipeLines (s : State) (c : Compartment) : Option (List RecipeLine) :=
  match c.recipe with
  | none => some []
  | some code => (s.wc.usableRecipe c code).map RecipeRecord.lines

/-- A compartment is startable (R69). -/
def Order.startable (o : Order) (c : Compartment) : Bool :=
  (c.status = .pending || c.status = .partLoaded) && !o.cancelPending

/-- The bay's held order with its number. -/
def State.heldOrder (s : State) (b : Bay) : Option (Nat × Order) :=
  match (s.bsc.get b).order with
  | some n => (s.ob.orders.find n).map fun o => (n, o)
  | none => none

/-- The bound driver's record is ACTIVE (R83, check 4). -/
def State.driverActive (s : State) (b : Bay) : Bool :=
  match (s.bsc.get b).driver with
  | some n =>
    match s.wc.drivers.find n with
    | some d => d.status = .active
    | none => false
  | none => false

/-- The remaining volume of a compartment, in litres (R83, check 9). -/
def Compartment.remaining (c : Compartment) : Nat := c.planned - c.delivered

/-- Checks 3 to 9 of START on a compartment that has passed checks 1 and 2 (R83); none where every check passes. -/
def State.startChecks (s : State) (b : Bay) (a : Arm) (c : Compartment) : Option ResultCode :=
  if (s.wc.arms.get a).product ≠ c.product then some .productMismatch
  else if !s.driverActive b then some .blocked
  else
    match s.recipeLines c with
    | none => some .recipeUnavailable
    | some lines =>
      if !(lines.all fun x => (s.servingChannel a x.additive).isSome) then some .recipeUnavailable
      else if !(lines.all fun x => (s.wc.stock.get x.additive).reserve < (s.wc.stock.get x.additive).stock) then
        some .additiveLow
      else if !s.loadingPermissive a then some .permissive
      else if Config.maxNotes ≤ s.notesHeld + s.reservations then some .noteStoreFull
      else if c.remaining = 0 then some .nothingToLoad
      else none

/-- Check 1 of START: an arm of this bay, IDLE and commissioned (R83). -/
def State.startArmOk (s : State) (b : Bay) (a : Arm) : Bool :=
  a.bay = b && s.armIdle a && (s.wc.arms.get a).kMilli.isSome

/-- Check 2 of START: the compartment is in the Plan List and startable; the held order's number, the order and the
compartment (R69, R83). -/
def State.startCompartment (s : State) (b : Bay) (n : Nat) : Option (Nat × Order × Compartment) :=
  match s.heldOrder b with
  | some (k, o) =>
    match o.compartment n with
    | some c => if (s.bsc.get b).plan.contains n && o.startable c then some (k, o, c) else none
    | none => none
  | none => none

/-- The running compartment record an accepted START creates (R109, R116, R135, R150). -/
def State.openRecord (s : State) (b : Bay) (a : Arm) (order : Nat) (o : Order) (c : Compartment) : Running :=
  { metering := .opening (s.me.get a)
    flow :=
      { bay := b, order := order, compartment := c.number, preset := c.remaining * 1000, basis := c.basis
        endReason := none, overrun := false }
    lines := s.lineRecords a ((s.recipeLines c).getD [])
    note :=
      { bay := b, driver := (s.bsc.get b).driver.getD 0, order := order, vehicle := o.vehicle, compartment := c.number
        product := c.product, recipe := c.recipe, preset := c.remaining, startTime := s.timestamp } }

/-- The compartment as an accepted START sets it (R69). -/
def Compartment.started (c : Compartment) (a : Arm) : Compartment :=
  { c with status := .loading, loadingArm := some a, statusBefore := some c.status }

/-- The stage an accepted START implies, with q = 0 (R116). -/
def State.startStage (s : State) (a : Arm) (c : Compartment) : Stage :=
  impliedStage (s.wc.arms.get a) (s.fc.get a).lead (c.remaining * 1000) 0

/-- An accepted START (R84): the reservation, the compartment LOADING, the record opened, the temperature window emptied, the
lines taken up, and the arm at its implied stage. -/
def State.startArm (s : State) (b : Bay) (a : Arm) (order : Nat) (o : Order) (c : Compartment) : State :=
  let rec0 := s.openRecord b a order o c
  let s1 := s.setNs { s.ns with reserved := s.ns.reserved.set a true }
  let s2 := s1.modifyOrder order fun x => x.modifyCompartment c.number fun y => y.started a
  let s3 := (s2.setRunning a (some rec0)).setMe a { s2.me.get a with temperatures := [] }
  let s4 := s3.serveLines 0 rec0.lines
  s4.enterStage a (s.startStage a c)

/-- START at the bay's controller (R83, R84). -/
def startOwner (l : Link) (b : Bay) (x : Nat × Nat) (s : State) : Answer :=
  if (s.bsc.get b).status ≠ .loading then s.refuseBayState b l
  else
    match Arm.ofNat? x.1 with
    | none => s.refuse .range
    | some a =>
      if !compartmentNumberOk x.2 then s.refuse .range
      else if (s.bsc.get b).closePending then s.refuse .state
      else if !s.startArmOk b a then s.refuse .state
      else
        match s.startCompartment b x.2 with
        | none => s.refuse .state
        | some (k, o, c) =>
          match s.startChecks b a c with
          | some r => s.refuse r
          | none =>
            let t := s.startArm b a k o c
            t.accept (natBytes 2 c.remaining ++ natBytes 1 (t.fc.get a).state.code)

/-- START (R83). -/
def execStart (l : Link) (s : State) : Host.Outcome State Fault Refusal := .next (s.serveBay l 0x28#8 formTwoBytes (startOwner l))

/-! ### STOP, RESUME, ACK_CAUSE, FINISH (R85, R124 to R126) -/

/-- An arm request: taken in LOADING, for an arm of this bay, and handed to its Flow Controller (R85). -/
def armOwner (l : Link) (b : Bay) (n : Nat) (flow : Arm → State → Answer) (s : State) : Answer :=
  if (s.bsc.get b).status ≠ .loading then s.refuseBayState b l
  else
    match Arm.ofNat? n with
    | none => s.refuse .range
    | some a => if a.bay ≠ b then s.refuse .state else flow a s

/-- STOP at the Flow Controller (R125). -/
def stopFlow (a : Arm) (s : State) : Answer :=
  if s.armFlowing a then
    let t := s.raiseCause a .driverStop
    t.accept (natBytes 1 (t.fc.get a).state.code)
  else s.refuse .state

/-- STOP (R125). -/
def execStop (l : Link) (s : State) : Host.Outcome State Fault Refusal :=
  .next (s.serveBay l 0x29#8 formByte fun b n t => armOwner l b n stopFlow t)

/-- RESUME at the Flow Controller (R126). -/
def resumeFlow (a : Arm) (s : State) : Answer :=
  if (s.fc.get a).state = .paused && (s.fc.get a).causes.isEmpty && s.loadingPermissive a then
    match s.running.get a with
    | some r =>
      let t := s.enterStage a (impliedStage (s.wc.arms.get a) (s.fc.get a).lead r.flow.preset r.quantity)
      t.accept (natBytes 1 (t.fc.get a).state.code)
    | none => s.refuse .state
  else s.refuse .state

/-- RESUME (R126). -/
def execResume (l : Link) (s : State) : Host.Outcome State Fault Refusal :=
  .next (s.serveBay l 0x2A#8 formByte fun b n t => armOwner l b n resumeFlow t)

/-- A cause acknowledged: it leaves the set; OFFICE_STOP clears the release mark, DEADMAN is told to the bay (R92, R124). -/
def State.removeCause (s : State) (a : Arm) (c : StopCause) : State :=
  let s1 := s.modifyFc a fun x =>
    { x with causes := x.causes.filter (· ≠ c), releaseMark := if c = .officeStop then false else x.releaseMark }
  if c = .deadman then s1.deadmanCauseLeft a.bay else s1

/-- ACK_CAUSE at the Flow Controller: the named cause is the shown one and its clearing condition holds (R124). -/
def ackFlow (c : StopCause) (a : Arm) (s : State) : Answer :=
  if (s.fc.get a).causes.head? = some c && s.clears a c then
    let t := s.removeCause a c
    t.accept (optionalBytes (fun d => natBytes 1 d.priority) (t.fc.get a).causes.head?)
  else s.refuse .state

/-- ACK_CAUSE at the bay's controller: an arm or a cause that does not exist is refused RANGE first (R85). -/
def ackOwner (l : Link) (b : Bay) (x : Nat × Nat) (s : State) : Answer :=
  if (s.bsc.get b).status ≠ .loading then s.refuseBayState b l
  else
    match StopCause.ofCode x.2 with
    | none => s.refuse .range
    | some c => armOwner l b x.1 (ackFlow c) s

/-- ACK_CAUSE (R124). -/
def execAckCause (l : Link) (s : State) : Host.Outcome State Fault Refusal :=
  .next (s.serveBay l 0x2B#8 formTwoBytes (ackOwner l))

/-- FINISH at the Flow Controller (R125). -/
def finishFlow (a : Arm) (s : State) : Answer :=
  if (s.fc.get a).state = .paused then ((s.setEndReason a .driverFinished).enterEnding a).accept []
  else s.refuse .state

/-- FINISH (R125). -/
def execFinish (l : Link) (s : State) : Host.Outcome State Fault Refusal :=
  .next (s.serveBay l 0x2C#8 formByte fun b n t => armOwner l b n finishFlow t)

/-! ### SIGN_OFF (R86) -/

/-- SIGN_OFF at the bay's controller (R86). -/
def signOffOwner (b : Bay) (s : State) : Answer :=
  match (s.bsc.get b).status with
  | .ident | .signed | .planning => (s.closeSession b .locked).accept []
  | .loading => if s.armsIdle b then (s.closeSession b .locked).accept [] else s.refuse .state
  | .locked | .outOfService => s.refuse .state

/-- SIGN_OFF (R86). -/
def execSignOff (l : Link) (s : State) : Host.Outcome State Fault Refusal :=
  .next (s.serveBay l 0x2D#8 formEmpty fun b _ t => signOffOwner b t)

end Sys2Proof.Machine
end

