-- ==== Sys2Proof/Machine/FieldEvents.lean ====
section
/-! DEFINITION. The field events: discrete inputs, buttons, meter edges, additive pulses and interval ends (R19 to R32, R92,
R95, R122, R137, R140, R141). -/

namespace Sys2Proof.Machine

/-! ### Discrete inputs (R19, R20, R22) -/

/-- An input as a change of its line leaves it. Settled: the change timer runs exactly while the line differs from the
accepted level. Before that: the timer restarts at every move (R19, R20). -/
def InputState.lineMoved (x : InputState) (level : LineLevel) : InputState :=
  if x.line = level then x
  else { x with line := level, timing := if x.settled then decide (level ≠ x.accepted) else true }

/-- DISCRETE_LINE_CHANGE (R19, R20). -/
def execDiscreteLineChange (i : DiscreteInput) (level : LineLevel) (s : State) : Host.Outcome State Fault Refusal :=
  .next (if s.alive then s.setInput i ((s.ic.inputs.get i).lineMoved level) else s)

/-- An input as the expiry of its change timer leaves it: the line's level accepted, and settled (R19, R20). -/
def InputState.accept (x : InputState) : InputState := { x with accepted := x.line, settled := true, timing := false }

/-- The dead-man press at the Bay Session Controller: QUIET, and the timer restarted, while an arm of the bay flows; nothing
otherwise (R92). -/
def State.deadmanPress (s : State) (b : Bay) : State := if s.bayFlowing b then s.startDeadman b else s

/-- The button of a bay at an expiry of its input's change timer (R24). `first`: the input first settles by it. -/
def State.buttonAccepted (s : State) (b : Bay) (first : Bool) (level : LineLevel) : State :=
  match level, first with
  | .energized, true => s.setButton b { state := .stuck, stuckTimer := none }
  | .energized, false => (s.setButton b { state := .pressed, stuckTimer := some Config.stuckTime }).deadmanPress b
  | .deenergized, _ => s.setButton b { state := .released, stuckTimer := none }

/-- A permissive of a bay accepted ABSENT: the shots of the bay's arms are cut off, and PERMISSIVE_LOST raised on each (R122,
R140). -/
def State.permissiveAbsent (s : State) (b : Bay) : State :=
  (s.cutShots fun c => c.arm.bay = b).raiseOn b.arms .permissiveLost

/-- The emergency stop accepted ACTIVE: every shot cut off, every queue emptied, EMERGENCY_STOP raised on every arm (R122,
R140). -/
def State.stopActive (s : State) : State :=
  ((s.raiseOn Arm.all .emergencyStop).cutShots fun _ => true).emptyQueues

/-- An accepted change handed to its consumers (R22): `first` where it is the first settling. -/
def State.changeAccepted (s : State) (i : DiscreteInput) (first : Bool) (level : LineLevel) : State :=
  match i, level with
  | .permissive _ b, .deenergized => s.permissiveAbsent b
  | .permissive _ _, .energized => s
  | .parked a, .deenergized => s.raiseCause a .permissiveLost
  | .parked _, .energized => s
  | .emergencyStop, .deenergized => s.stopActive
  | .emergencyStop, .energized => s.serveAll
  | .deadman b, x => s.buttonAccepted b first x
  | .sealSwitch, _ => s

/-- A change timer expires: the line's level is accepted, the input is settled, and a change is reported (R19, R20, R22). -/
def State.debounce (s : State) (i : DiscreteInput) : State :=
  let x := s.ic.inputs.get i
  let s1 := s.setInput i x.accept
  if x.accepted = x.line then s1
  else (s1.raiseFlag (.inputChanged i)).changeAccepted i (!x.settled) x.line

/-- DEBOUNCE_EXPIRY (R19, R20, R22). -/
def execDebounceExpiry (i : DiscreteInput) (s : State) : Host.Outcome State Fault Refusal :=
  .next (if s.alive && (s.ic.inputs.get i).timing then s.debounce i else s)

/-- STUCK_TIMER_EXPIRY: a PRESSED button becomes STUCK, with INPUT_CHANGED (R25). -/
def execStuckTimerExpiry (b : Bay) (s : State) : Host.Outcome State Fault Refusal :=
  .next
    (if s.alive && (s.ic.buttons.get b).stuckTimer.isSome then
      (s.setButton b { state := .stuck, stuckTimer := none }).raiseFlag (.inputChanged (.deadman b))
    else s)

/-! ### Product meter edges (R26 to R28) -/

/-- A count raised by 1, to 65,535 at most (R28, log 29). -/
def countUp (n : Nat) : Nat := min Config.maxCount (n + 1)

/-- The counts after an edge in DUAL mode, by the level of the other line (R27). -/
def IntervalCounts.dualEdge (c : IntervalCounts) (line : MeterLine) (other : LineLevel) : IntervalCounts :=
  match line, other with
  | .lineA, .deenergized => { c with nA := countUp c.nA }
  | .lineA, .energized => { c with reverse := countUp c.reverse }
  | .lineB, .energized => { c with nB := countUp c.nB }
  | .lineB, .deenergized => c

/-- The counts after an edge, by the arm's pulse mode (R27). -/
def IntervalCounts.edge (c : IntervalCounts) (mode : PulseMode) (line : MeterLine) (other : LineLevel) : IntervalCounts :=
  match mode, line with
  | .dual, _ => c.dualEdge line other
  | .single, .lineA => { c with nA := countUp c.nA }
  | .single, .lineB => c

/-- The filtered levels at the moment of an edge: the edge's line high, the other line as the command says (R26, log 8). -/
def MeterInput.edgeLevels (x : MeterInput) (line : MeterLine) (other : LineLevel) : MeterInput :=
  match line with
  | .lineA => { x with lineA := .energized, lineB := other }
  | .lineB => { x with lineA := other, lineB := .energized }

/-- An edge on a product meter line; edges during restoration are not counted (R27, R28). -/
def State.meterEdge (s : State) (a : Arm) (line : MeterLine) (other : LineLevel) : State :=
  let x := (s.ic.meters.get a).edgeLevels line other
  let counts := if s.isRunning then x.counts.edge (s.wc.arms.get a).mode line other else x.counts
  s.setMeter a { x with counts := counts }

/-- PRODUCT_METER_EDGE (R26, R27). -/
def execProductMeterEdge (a : Arm) (line : MeterLine) (other : LineLevel) (s : State) : Host.Outcome State Fault Refusal :=
  .next (if s.alive then s.meterEdge a line other else s)

/-! ### Additive pulses and interval ends -/

/-- ADDITIVE_PULSE (R31, R141). -/
def execAdditivePulse (c : Channel) (s : State) : Host.Outcome State Fault Refusal :=
  .next (if s.alive then (s.setAdditiveLine c .energized).takePulse c else s)

/-- The interval handed on: the Flow Controller and the ADU each take it once, in the order given (R95, R137, log 9).
With `leavingLast` the lines are paced on the arm as the ADU still has it, and the causes they raise meet the arm as the interval has
left it. -/
def State.handOn (s : State) (a : Arm) (n : Nat) (causes : List StopCause) : IntervalOrder → State
  | .flowFirst => (s.flowInterval a n causes).paceArm a
  | .dosingFirst => (s.paceArm a).flowInterval a n causes
  | .leavingLast => ((s.pace a).1.flowInterval a n causes).raiseCauses a (s.pace a).2

/-- An interval end of an arm: the counts handed over, the computation, its crediting, and its results handed on (R28, R95). -/
def State.intervalEnd (s : State) (a : Arm) (raw : Nat) (order : IntervalOrder) : State :=
  let h := s.handoverOf a raw
  let s1 := s.takeHandover a h
  let r := s1.meterResult a h
  (s1.credit a r).handOn a r.forward r.causes order

/-- METERING_INTERVAL_END (R95); intervals run from the completion of restoration on (R28). -/
def execMeteringIntervalEnd (a : Arm) (raw : Nat) (order : IntervalOrder) (s : State) : Host.Outcome State Fault Refusal :=
  .next (if s.isRunning then s.intervalEnd a raw order else s)

end Sys2Proof.Machine
end

