-- ==== Sys2Proof/Machine/LinkEvents.lean ====
section
/-! DEFINITION. The link events: characters, gaps and the end of a response, and the baud rate they come at (R1 to R3, R5,
R14). -/

namespace Sys2Proof.Machine

/-- The baud rate of a strap value (R1). -/
def baudRateOf : Nat → Nat
  | 0 => 9600
  | 1 => 19200
  | 2 => 38400
  | 3 => 57600
  | 4 => 115200
  | _ => 9600

/-- The baud rate of all four links, as latched at the last reset (R1). -/
def LinkController.baudRate (c : LinkController) : Nat := baudRateOf c.baudStrap

/-- The receiver of a link set. -/
def State.setReceiver (s : State) (l : Link) (r : Receiver) : State := s.modifyLink l fun k => { k with receiver := r }

/-- A frame in collection discarded: hunting again, and LINK_ERROR set (R2, R12). -/
def State.discardFrame (s : State) (l : Link) : State := (s.setReceiver l .hunting).raiseFlag (.linkError l)

/-- A complete frame offered to the link's slot: it becomes the pending request, or overruns; while the warning is asserted
it is discarded without a flag (R3, R14). -/
def State.offerFrame (s : State) (l : Link) (r : Request) : State :=
  if s.ic.warning then s
  else
    match (s.lc.links.get l).slot with
    | .empty => s.modifyLink l fun k => { k with slot := .pending r }
    | .pending _ => s.raiseFlag (.linkOverrun l)
    | .responding _ => s.raiseFlag (.linkOverrun l)

/-- What the bytes collected after a start marker amount to (R2). -/
inductive Collected where
  | incomplete
  | bad
  | complete (r : Request)
deriving DecidableEq, Repr

/-- The bytes after a start marker judged: too long, not yet all there, or complete with a CRC that matches or does not
(R2, R174). -/
def judgeFrame (bytes : List Byte) : Collected :=
  match bytes with
  | tag :: code :: len :: rest =>
    if Config.maxRequestPayload < len.toNat then .bad
    else if rest.length < len.toNat + 2 then .incomplete
    else if rest.drop len.toNat = crcBytes (bytes.take (3 + len.toNat)) then
      .complete { tag := tag, code := code, payload := rest.take len.toNat }
    else .bad
  | _ => .incomplete

/-- A character taken by a collecting receiver (R2). -/
def State.collect (s : State) (l : Link) (bytes : List Byte) : State :=
  match judgeFrame bytes with
  | .incomplete => s.setReceiver l (.collecting bytes)
  | .bad => s.discardFrame l
  | .complete r => (s.setReceiver l .hunting).offerFrame l r

/-- A character on a link, by the receiver's condition (R2). -/
def State.takeCharacter (s : State) (l : Link) (c : Byte) (stopBit : Bool) : State :=
  match (s.lc.links.get l).receiver with
  | .hunting => if stopBit && c = Config.startMarker then s.setReceiver l (.collecting []) else s
  | .collecting bytes => if stopBit then s.collect l (bytes ++ [c]) else s.discardFrame l

/-- CHARACTER_RECEIVED (R2, R3). -/
def execCharacterReceived (l : Link) (c : Byte) (stopBit : Bool) (s : State) : Host.Outcome State Fault Refusal :=
  .next (if s.alive then s.takeCharacter l c stopBit else s)

/-- The inter-character timer of a link expires: a frame in collection is discarded (R2). -/
def State.gapTimeout (s : State) (l : Link) : State :=
  match (s.lc.links.get l).receiver with
  | .hunting => s
  | .collecting _ => s.discardFrame l

/-- GAP_TIMEOUT (R2). -/
def execGapTimeout (l : Link) (s : State) : Host.Outcome State Fault Refusal := .next (if s.alive then s.gapTimeout l else s)

/-- The last character of a link's response has been sent: the C flags it showed set are cleared, but for those raised after
its capture, and the slot is empty (R3, R5). -/
def State.responseSent (s : State) (l : Link) : State :=
  match (s.lc.links.get l).slot with
  | .responding r => s.modifyLink l fun k => { k with slot := .empty, flags := k.flags.less r.status k.raised }
  | .empty => s
  | .pending _ => s

/-- RESPONSE_SENT (R5). -/
def execResponseSent (l : Link) (s : State) : Host.Outcome State Fault Refusal :=
  .next (if s.alive then s.responseSent l else s)

end Sys2Proof.Machine
end

