-- ==== Sys2Proof/Machine/OfficeRequests.lean ====
section
/-! DEFINITION. The Office requests: drivers, orders, recipes, bays, stock, notes and the clock (R40 to R44, R59, R63 to R72,
R88, R89, R129, R143, R154, R155, R18). -/

namespace Sys2Proof.Machine

/-! ### The Driver Table (R40 to R44) -/

/-- A driver status of a request (R40, R175). -/
def driverStatusOf : Nat → Option DriverStatus
  | 0 => some .active
  | 1 => some .blocked
  | _ => none

/-- A PIN as an office request may write it: 4 to 8 digits, each 0 to 9 (R40, R43). -/
def PinField.writable (p : PinField) : Bool := within 4 8 p.count && p.used.all (· ≤ 9)

/-- The ranges of WRITE_DRIVER, its status aside (R40). -/
def DriverFields.rangeOk (x : DriverFields) : Bool :=
  driverNumberOk x.number && x.pin.writable && within 1 8 x.classes.length && x.classes.all (within 1 8)
    && (match x.expiry with
        | some d => decide (d ≤ 49710)
        | none => true)

/-- The failed-attempt count after a rewrite: 0 where BLOCKED becomes ACTIVE, unchanged otherwise; 0 for a new record (R40, R41). -/
def failedAfter (old : Option DriverRecord) (status : DriverStatus) : Nat :=
  match old with
  | none => 0
  | some d => if d.status = .blocked && status = .active then 0 else d.failed

/-- The record WRITE_DRIVER writes (R40, R41). -/
def DriverFields.record (x : DriverFields) (old : Option DriverRecord) (status : DriverStatus) : DriverRecord :=
  { pin := x.pin.used, status := status, failed := failedAfter old status, classes := ascendingSet x.classes
    expiry := x.expiry }

/-- WRITE_DRIVER at the Permit Table (R40, R41, R165). -/
def writeDriverOwner (x : DriverFields) (s : State) : Answer :=
  match driverStatusOf x.status with
  | none => s.refuse .range
  | some st =>
    if !x.rangeOk then s.refuse .range
    else if (s.wc.drivers.find x.number).isNone && decide (Config.maxDrivers ≤ s.wc.drivers.length) then s.refuse .full
    else
      let d := x.record (s.wc.drivers.find x.number) st
      s.writeSetting (s.wc.drivers.find x.number = some d) (.driver x.number (some d))

/-- WRITE_DRIVER (R40). -/
def execWriteDriver (l : Link) (s : State) : Host.Outcome State Fault Refusal :=
  .next (s.serveRequest l 0x40#8 .office formWriteDriver writeDriverOwner)

/-- DELETE_DRIVER at the Permit Table (R42). -/
def deleteDriverOwner (n : Nat) (s : State) : Answer :=
  if !driverNumberOk n then s.refuse .range
  else if (s.wc.drivers.find n).isNone then s.refuse .notFound
  else if (s.boundBay n).isSome then s.refuse .driverBusy
  else s.writeSetting false (.driver n none)

/-- DELETE_DRIVER (R42). -/
def execDeleteDriver (l : Link) (s : State) : Host.Outcome State Fault Refusal :=
  .next (s.serveRequest l 0x41#8 .office formLong deleteDriverOwner)

/-- RESET_PIN at the Permit Table (R43, R165). -/
def resetPinOwner (x : Nat × PinField) (s : State) : Answer :=
  if !driverNumberOk x.1 || !x.2.writable then s.refuse .range
  else
    match s.wc.drivers.find x.1 with
    | none => s.refuse .notFound
    | some d =>
      let d' := { d with pin := x.2.used, failed := 0, status := .active }
      s.writeSetting (d = d') (.driver x.1 (some d'))

/-- RESET_PIN (R43). -/
def execResetPin (l : Link) (s : State) : Host.Outcome State Fault Refusal :=
  .next (s.serveRequest l 0x42#8 .office formResetPin resetPinOwner)

/-- A record addressed by number and selector: EXACT 0 within `exactOk`, NEXT 1 within `nextOk` (R44, R66). -/
def selectRecord {α : Type} (t : Assoc α) (x : Nat × Nat) (exactOk nextOk : Nat → Bool) : Except ResultCode (Nat × α) :=
  match x.2 with
  | 0 =>
    if !exactOk x.1 then .error .range
    else
      match t.find x.1 with
      | some r => .ok (x.1, r)
      | none => .error .notFound
  | 1 =>
    if !nextOk x.1 then .error .range
    else
      match t.after x.1 with
      | some e => .ok e
      | none => .error .notFound
  | _ => .error .range

/-- READ_DRIVER's response payload: no PIN digits (R44). -/
def State.readDriverPayload (s : State) (n : Nat) (d : DriverRecord) : List Byte :=
  natBytes 4 n ++ natBytes 1 d.pin.length ++ natBytes 1 d.status.code ++ natBytes 1 d.failed
    ++ listBytes (natBytes 1) d.classes ++ optionalBytes (natBytes 2) d.expiry ++ optionalBytes bayByte (s.boundBay n)
    ++ natBytes 1 s.wc.drivers.length ++ natBytes 1 s.wc.rack.attemptLimit

/-- READ_DRIVER at the Permit Table (R44). -/
def readDriverOwner (x : Nat × Nat) (s : State) : Answer :=
  match selectRecord s.wc.drivers x driverNumberOk (within 0 99999999) with
  | .ok (n, d) => s.accept (s.readDriverPayload n d)
  | .error r => s.refuse r

/-- READ_DRIVER (R44). -/
def execReadDriver (l : Link) (s : State) : Host.Outcome State Fault Refusal :=
  .next (s.serveRequest l 0x43#8 .office formSelect readDriverOwner)

/-! ### The Order Table (R63 to R72) -/

/-- A preset basis of a request (R63, R175). -/
def basisOf : Nat → Option Basis
  | 0 => some .gross
  | 1 => some .net
  | _ => none

/-- A compartment's ranges (R63, point 1). -/
def CompartmentFields.rangeOk (c : CompartmentFields) : Bool :=
  compartmentNumberOk c.number && within 1 15 c.product && within 100 40000 c.planned && (basisOf c.basis).isSome
    && (match c.recipe with
        | some r => within 1 24 r
        | none => true)

/-- No number is repeated in a list. -/
def noRepeats : List Nat → Bool
  | [] => true
  | n :: rest => !rest.contains n && noRepeats rest

/-- The ranges of WRITE_ORDER (R63, point 1). -/
def OrderFields.rangeOk (x : OrderFields) : Bool :=
  orderNumberOk x.number
    && (match x.driver with
        | some d => driverNumberOk d
        | none => true)
    && within 1 10 x.vehicle.length && x.vehicle.all (fun ch => within 32 126 ch.toNat)
    && (match x.bay with
        | some b => (Bay.ofNat? b).isSome
        | none => true)
    && within 1 8 x.compartments.length && x.compartments.all CompartmentFields.rangeOk
    && noRepeats (x.compartments.map CompartmentFields.number)

/-- Every product and recipe code named has a record (R63, point 2). -/
def OrderFields.codesKnown (x : OrderFields) (wc : NvRecords) : Bool :=
  x.compartments.all fun c => (wc.products.find c.product).isSome
    && (match c.recipe with
        | some r => (wc.recipes.find r).isSome
        | none => true)

/-- Every recipe named is for its compartment's product (R63, point 3). -/
def OrderFields.recipesFit (x : OrderFields) (wc : NvRecords) : Bool :=
  x.compartments.all fun c =>
    match c.recipe with
    | some r => (match wc.recipes.find r with
      | some y => y.product = c.product
      | none => false)
    | none => true

/-- A compartment as WRITE_ORDER makes it (R62). -/
def CompartmentFields.compartment (c : CompartmentFields) : Compartment :=
  { number := c.number, product := c.product, planned := c.planned, basis := (basisOf c.basis).getD .gross
    recipe := c.recipe, status := .pending, deliveredGross := 0, deliveredNet := 0, loadingArm := none, statusBefore := none }

/-- An order as WRITE_ORDER makes it: OPEN (R63, R64). -/
def OrderFields.order (x : OrderFields) : Order :=
  { driver := x.driver, vehicle := x.vehicle, bay := x.bay.bind Bay.ofNat?
    compartments := x.compartments.map CompartmentFields.compartment, state := .opened, holding := none
    cancelPending := false }

/-- The checks of a replacement against the order it would replace (R64). -/
def Order.replaceable (o : Order) : Option ResultCode :=
  if o.state = .held then some .orderBusy
  else if o.state = .cancelled then some .state
  else if o.compartments.any fun c => c.status = .partLoaded || c.status = .loaded then some .state
  else none

/-- WRITE_ORDER at the Order Book (R63, R64). -/
def writeOrderOwner (x : OrderFields) (s : State) : Answer :=
  if !x.rangeOk then s.refuse .range
  else if !x.codesKnown s.wc then s.refuse .notFound
  else if !x.recipesFit s.wc then s.refuse .range
  else
    match s.ob.orders.find x.number with
    | none =>
      if Config.maxOrders ≤ s.ob.orders.length then s.refuse .full
      else (s.setOrders (s.ob.orders.put x.number x.order)).accept []
    | some o =>
      match o.replaceable with
      | some r => s.refuse r
      | none => (s.setOrders (s.ob.orders.put x.number x.order)).accept []

/-- WRITE_ORDER (R63). -/
def execWriteOrder (l : Link) (s : State) : Host.Outcome State Fault Refusal :=
  .next (s.serveRequest l 0x44#8 .office formWriteOrder writeOrderOwner)

/-- DELETE_ORDER at the Order Book (R65). -/
def deleteOrderOwner (n : Nat) (s : State) : Answer :=
  if !orderNumberOk n then s.refuse .range
  else
    match s.ob.orders.find n with
    | none => s.refuse .notFound
    | some o => if o.state = .held then s.refuse .orderBusy else (s.setOrders (s.ob.orders.remove n)).accept []

/-- DELETE_ORDER (R65). -/
def execDeleteOrder (l : Link) (s : State) : Host.Outcome State Fault Refusal :=
  .next (s.serveRequest l 0x45#8 .office formLong deleteOrderOwner)

/-- A compartment in READ_ORDER's response: every field of R62, the loading arm and the status before loading as optional fields
(R66; log 15). -/
def Compartment.payload (c : Compartment) : List Byte :=
  natBytes 1 c.number ++ natBytes 1 c.product ++ natBytes 2 c.planned ++ natBytes 1 c.basis.code
    ++ optionalBytes (natBytes 1) c.recipe ++ natBytes 1 c.status.code ++ natBytes 4 c.deliveredGross
    ++ natBytes 4 c.deliveredNet ++ optionalBytes (fun a : Arm => natBytes 1 a.toNat) c.loadingArm
    ++ optionalBytes (fun x : CompartmentStatus => natBytes 1 x.code) c.statusBefore

/-- READ_ORDER's response payload: every field of R61, the compartments as written, and the number of orders (R66). The compartments
stand after the order's other fields, as R66 lists them; R61's table has them before the order state (R175; log 38). -/
def State.readOrderPayload (s : State) (n : Nat) (o : Order) : List Byte :=
  natBytes 4 n ++ optionalBytes (natBytes 4) o.driver ++ stringBytes o.vehicle ++ optionalBytes bayByte o.bay
    ++ natBytes 1 o.state.code ++ optionalBytes bayByte o.holding ++ flagByte o.cancelPending
    ++ listBytes Compartment.payload o.compartments ++ natBytes 1 s.ob.orders.length

/-- READ_ORDER at the Order Book (R66). -/
def readOrderOwner (x : Nat × Nat) (s : State) : Answer :=
  match selectRecord s.ob.orders x orderNumberOk (within 0 9999999) with
  | .ok (n, o) => s.accept (s.readOrderPayload n o)
  | .error r => s.refuse r

/-- READ_ORDER (R66). -/
def execReadOrder (l : Link) (s : State) : Host.Outcome State Fault Refusal :=
  .next (s.serveRequest l 0x46#8 .office formSelect readOrderOwner)

/-- An order taken from its idle session: the bay goes to SIGNED and the order is CANCELLED (R71). -/
def State.takeFromSession (s : State) (n : Nat) (holding : Option Bay) : State :=
  let s1 := s.modifyOrder n Order.cancelled
  match holding with
  | some b => ((s1.dropOrder b).moveBay b .signed).refreshInactivity b
  | none => s1

/-- A cancellation made pending: the mark, and ORDER_CANCELLED on each arm on the order (R72). -/
def State.cancelLoading (s : State) (n : Nat) : State :=
  let s1 := s.modifyOrder n fun o => { o with cancelPending := true }
  s1.raiseOn (Arm.all.filter (s1.armOnOrder n)) .orderCancelled

/-- CANCEL_ORDER's effect on an order by its state (R71). -/
def State.cancelOrder (s : State) (n : Nat) (o : Order) : State :=
  match o.state with
  | .opened | .complete => s.modifyOrder n Order.cancelled
  | .cancelled => s
  | .held =>
    if o.cancelPending then s
    else if Arm.all.any (s.armOnOrder n) then s.cancelLoading n
    else s.takeFromSession n o.holding

/-- CANCEL_ORDER at the Order Book (R71). -/
def cancelOrderOwner (n : Nat) (s : State) : Answer :=
  if !orderNumberOk n then s.refuse .range
  else
    match s.ob.orders.find n with
    | none => s.refuse .notFound
    | some o => (s.cancelOrder n o).accept []

/-- CANCEL_ORDER (R71). -/
def execCancelOrder (l : Link) (s : State) : Host.Outcome State Fault Refusal :=
  .next (s.serveRequest l 0x47#8 .office formLong cancelOrderOwner)

/-! ### The Recipe Table (R58, R59) -/

/-- A line of WRITE_RECIPE in range (R59). -/
def recipeLineOf (x : Nat × Nat) : Option RecipeLine :=
  match Additive.ofNat? x.1 with
  | some t => if within 10 10000 x.2 then some { additive := t, dose := x.2 } else none
  | none => none

/-- The lines of WRITE_RECIPE: 1 or 2, in range, of different additive types (R59). -/
def RecipeFields.recipeLines (x : RecipeFields) : Option (List RecipeLine) :=
  match x.lines with
  | [p] => (recipeLineOf p).map fun y => [y]
  | [p, q] =>
    match recipeLineOf p, recipeLineOf q with
    | some y, some z => if y.additive = z.additive then none else some [y, z]
    | _, _ => none
  | _ => none

/-- The other ranges of WRITE_RECIPE (R59). -/
def RecipeFields.rangeOk (x : RecipeFields) : Bool :=
  within 1 24 x.code && within 1 15 x.product
    && (match x.tolerance with
        | some t => within 10 200 t
        | none => true)

/-- The recipe is in use: an arm is not IDLE with an active compartment naming it (R59). -/
def State.recipeInUse (s : State) (code : Nat) : Bool :=
  Arm.all.any fun a =>
    match s.active a with
    | some r => r.note.recipe = some code
    | none => false

/-- WRITE_RECIPE at the Order Book (R59, R165). -/
def writeRecipeOwner (x : RecipeFields) (s : State) : Answer :=
  match x.recipeLines with
  | none => s.refuse .range
  | some lines =>
    if !x.rangeOk then s.refuse .range
    else if (s.wc.products.find x.product).isNone then s.refuse .notFound
    else if (s.wc.recipes.find x.code).isSome && s.recipeInUse x.code then s.refuse .inUse
    else
      let r : RecipeRecord := { product := x.product, lines := lines, tolerance := x.tolerance.getD Config.defaultTolerance }
      s.writeSetting (s.wc.recipes.find x.code = some r) (.recipe x.code r)

/-- WRITE_RECIPE (R59). -/
def execWriteRecipe (l : Link) (s : State) : Host.Outcome State Fault Refusal :=
  .next (s.serveRequest l 0x48#8 .office formWriteRecipe writeRecipeOwner)

/-! ### SET_BAY_SERVICE (R88, R89) -/

/-- The service flag of a bay written, with its entry (R88). -/
def State.setService (s : State) (b : Bay) (out : Bool) : State := s.commit (.bayService b out) .setting

/-- SET_BAY_SERVICE OUT would change the flag (R88). -/
def State.outChanges (s : State) (b : Bay) : Bool :=
  (s.bsc.get b).status ≠ .outOfService && !((s.bsc.get b).status = .loading && (s.bsc.get b).closePending)

/-- SET_BAY_SERVICE OUT on a bay whose flag it changes (R88). -/
def State.takeOut (s : State) (b : Bay) : State :=
  let s1 := s.setService b true
  match (s.bsc.get b).status with
  | .locked => s1.moveBay b .outOfService
  | .ident | .signed | .planning => s1.closeSession b .outOfService
  | .loading =>
    if s.armsIdle b then s1.closeSession b .outOfService
    else (s1.modifyBay b fun x => { x with closePending := true }).raiseOn b.arms .bayOutOfService
  | .outOfService => s

/-- SET_BAY_SERVICE IN on a bay whose flag it changes (R89). -/
def State.bringIn (s : State) (b : Bay) : State :=
  let s1 := s.setService b false
  if (s.bsc.get b).status = .outOfService then s1.moveBay b .locked
  else s1.modifyBay b fun x => { x with closePending := false }

/-- SET_BAY_SERVICE at the bay's controller (R88, R89). -/
def setServiceOwner (x : Nat × Nat) (s : State) : Answer :=
  match Bay.ofNat? x.1, x.2 with
  | some b, 0 =>
    if !s.outChanges b then s.accept []
    else if s.nvBusy then s.refuse .busy
    else (s.takeOut b).accept []
  | some b, 1 =>
    if s.outChanges b then s.accept []
    else if s.nvBusy then s.refuse .busy
    else (s.bringIn b).accept []
  | _, _ => s.refuse .range

/-- SET_BAY_SERVICE (R88). -/
def execSetBayService (l : Link) (s : State) : Host.Outcome State Fault Refusal :=
  .next (s.serveRequest l 0x49#8 .office formTwoBytes setServiceOwner)

/-! ### OFFICE_STOP and OFFICE_RELEASE (R129) -/

/-- The arms of a bay that `p` picks, as a response list. -/
def armsPayload (b : Bay) (p : Arm → Bool) : List Byte := listBytes (fun a : Arm => natBytes 1 a.toNat) (b.arms.filter p)

/-- The arm's set holds OFFICE_STOP. -/
def State.holdsOfficeStop (s : State) (a : Arm) : Bool := (s.fc.get a).causes.contains .officeStop

/-- OFFICE_STOP on one arm: raised, or a release already given withdrawn (R129). -/
def State.officeStopArm (s : State) (a : Arm) : State :=
  if s.holdsOfficeStop a then s.modifyFc a fun x => { x with releaseMark := false } else s.raiseCause a .officeStop

/-- OFFICE_STOP at the Flow Controllers of the bay (R129). -/
def officeStopOwner (n : Nat) (s : State) : Answer :=
  match Bay.ofNat? n with
  | some b =>
    let t := b.arms.foldl State.officeStopArm s
    t.accept (armsPayload b t.holdsOfficeStop)
  | none => s.refuse .range

/-- OFFICE_STOP (R129). -/
def execOfficeStop (l : Link) (s : State) : Host.Outcome State Fault Refusal :=
  .next (s.serveRequest l 0x4A#8 .office formByte officeStopOwner)

/-- OFFICE_RELEASE on one arm (R129). -/
def State.officeReleaseArm (s : State) (a : Arm) : State :=
  if s.holdsOfficeStop a then s.modifyFc a fun x => { x with releaseMark := true } else s

/-- OFFICE_RELEASE at the Flow Controllers of the bay (R129). -/
def officeReleaseOwner (n : Nat) (s : State) : Answer :=
  match Bay.ofNat? n with
  | some b =>
    let t := b.arms.foldl State.officeReleaseArm s
    t.accept (armsPayload b fun a => (t.fc.get a).releaseMark)
  | none => s.refuse .range

/-- OFFICE_RELEASE (R129). -/
def execOfficeRelease (l : Link) (s : State) : Host.Outcome State Fault Refusal :=
  .next (s.serveRequest l 0x4B#8 .office formByte officeReleaseOwner)

/-! ### Stock (R143, R144) -/

/-- The record SET_STOCK writes: the stock at most the capacity (R143). -/
def StockFields.record (x : StockFields) : StockRecord :=
  { stock := min x.stock x.capacity, capacity := x.capacity, reserve := x.reserve }

/-- SET_STOCK at the ADU: RANGE, BUSY, and otherwise always an entry, also where it repeats the values held (R6, R143, R144; R165's
exception read as not reaching it: log 35). -/
def setStockOwner (x : StockFields) (s : State) : Answer :=
  match Additive.ofNat? x.additive with
  | none => s.refuse .range
  | some t =>
    if decide (Config.maxCapacity < x.capacity) || decide (x.capacity < x.reserve) then s.refuse .range
    else if s.nvBusy then s.refuse .busy
    else
      let before := s.wc.stock.get t
      let s1 := s.commit (.stock (s.wc.stock.set t x.record)) .setting
      (s1.judgeReserve before x.record).accept (natBytes 4 x.record.stock)

/-- SET_STOCK (R143). -/
def execSetStock (l : Link) (s : State) : Host.Outcome State Fault Refusal :=
  .next (s.serveRequest l 0x4C#8 .office formSetStock setStockOwner)

/-- READ_STOCK's response payload (R143). -/
def State.readStockPayload (s : State) : List Byte :=
  Additive.all.flatMap (fun t =>
      let x := s.wc.stock.get t
      natBytes 4 x.stock ++ natBytes 4 x.capacity ++ natBytes 4 x.reserve)
    ++ Additive.all.flatMap (fun t =>
      let x := s.adu.pumps.get t
      natBytes 1 x.status.code ++ listBytes (fun c : Channel => natBytes 1 c.toNat) x.queue)
    ++ Channel.all.flatMap (fun c =>
      let x := s.adu.channels.get c
      additiveByte (s.wc.injectors.get c).additive ++ natBytes 1 x.place.code ++ natBytes 2 x.owed ++ natBytes 1 x.failed
        ++ natBytes 4 x.leak)

/-- READ_STOCK (R143). -/
def execReadStock (l : Link) (s : State) : Host.Outcome State Fault Refusal :=
  .next (s.serveRequest l 0x4D#8 .office formEmpty fun _ t => t.accept t.readStockPayload)

/-! ### Notes (R154, R155, R178) -/

/-- An additive line of the note record (R178). -/
def NoteLine.payload (x : NoteLine) : List Byte :=
  natBytes 1 x.additive.toNat ++ natBytes 4 x.required ++ natBytes 4 x.injected ++ natBytes 2 x.shots

/-- The flags byte of the note record (R178). -/
def NoteRecord.flagsByte (n : NoteRecord) : Nat :=
  bitAt n.tempSubstituted 0 + bitAt n.probeFault 1 + bitAt n.vcfClamped 2 + bitAt n.overrun 3 + bitAt n.deviation 4
    + bitAt n.pulseErrorsSeen 5 + bitAt n.recovered 6

/-- The note record (R178). -/
def NoteRecord.payload (n : NoteRecord) : List Byte :=
  natBytes 4 n.number ++ bayByte n.bay ++ natBytes 1 n.arm.toNat ++ natBytes 4 n.order ++ natBytes 1 n.compartment
    ++ natBytes 4 n.driver ++ stringBytes n.vehicle ++ natBytes 1 n.product ++ optionalBytes (natBytes 1) n.recipe
    ++ optionalBytes (natBytes 4) n.startTime ++ optionalBytes (natBytes 4) n.endTime ++ natBytes 2 n.preset
    ++ natBytes 4 n.gross ++ natBytes 4 n.net ++ intBytes n.temperature ++ natBytes 8 n.openGross ++ natBytes 8 n.openNet
    ++ natBytes 8 n.closeGross ++ natBytes 8 n.closeNet ++ listBytes NoteLine.payload n.lines
    ++ natBytes 1 n.endReason.code ++ natBytes 1 n.flagsByte

/-- READ_NOTE at the Note Store: the k-th note from the oldest (R154). -/
def readNoteOwner (k : Nat) (s : State) : Answer :=
  match s.wc.notes[k]? with
  | some n => s.accept (n.payload ++ natBytes 1 s.notesHeld)
  | none => s.refuse .notFound

/-- READ_NOTE (R154). -/
def execReadNote (l : Link) (s : State) : Host.Outcome State Fault Refusal :=
  .next (s.serveRequest l 0x4E#8 .office formByte readNoteOwner)

/-- RELEASE_NOTE at the Note Store; a hand-over held behind the released note's own entry is taken (R155, R166). -/
def releaseNoteOwner (n : Nat) (s : State) : Answer :=
  if !within 1 Config.maxNoteNumber n then s.refuse .range
  else
    match s.wc.notes with
    | [] => s.refuse .notFound
    | oldest :: rest =>
      if oldest.number = n then ((s.commit (.release n) .endClass).takeFreed s).accept []
      else if rest.any fun r => r.number = n then s.refuse .notOldest
      else s.refuse .notFound

/-- RELEASE_NOTE (R155). -/
def execReleaseNote (l : Link) (s : State) : Host.Outcome State Fault Refusal :=
  .next (s.serveRequest l 0x4F#8 .office formLong releaseNoteOwner)

/-! ### SET_CLOCK (R18) -/

/-- SET_CLOCK (R18). -/
def execSetClock (l : Link) (s : State) : Host.Outcome State Fault Refusal :=
  .next (s.serveRequest l 0x50#8 .office formLong fun n t => (t.setClock { count := n, isSet := true }).accept [])

end Sys2Proof.Machine
end

