-- ==== Sys2Proof/Machine/ResetEvents.lean ====
section
/-! DEFINITION. The supply, clock and reset events: the power-fail warning, the clock's tick, the resets with start-up
restoration and recovery notes, and the losses of power (R7, R14, R17, R34, R36, R123, R157 to R162, R173). -/

namespace Sys2Proof.Machine

/-! ### The power-fail warning (R14, R123, R140, R158, R160) -/

/-- A link at the assertion: a request not yet answered, and a response not yet begun, are dropped (R14, log 7). -/
def StationLink.warned (k : StationLink) (begun : Bool) : StationLink :=
  match k.slot with
  | .empty => k
  | .pending _ => { k with slot := .empty }
  | .responding _ => if begun then k else { k with slot := .empty }

/-- Every link at the assertion (R14). -/
def State.dropUnanswered (s : State) (begun : PerLink Bool) : State :=
  { s with lc := { s.lc with links := .tabulate fun l => (s.lc.links.get l).warned (begun.get l) } }

/-- The hand-overs of the arms in ENDING are held (R158, R166). -/
def State.holdHandOvers (s : State) : State :=
  s.setNs { s.ns with held := .tabulate fun a => s.ns.held.get a || decide ((s.fc.get a).state = .ending) }

/-- The assertion of the power-fail warning (R14, R123, R140, R158). -/
def State.warn (s : State) (begun : PerLink Bool) : State :=
  let s1 := (s.setWarning true).dropUnanswered begun
  let s2 := ((s1.raiseOn Arm.all .powerFail).cutShots fun _ => true).emptyQueues
  let s3 := s2.holdHandOvers
  (s3.setNvc { s3.nvc with phase := .draining }).advanceNv

/-- POWER_FAIL_WARNING_ASSERT (R34, R158); `begun` says for each link whether its composed response has begun to leave. -/
def execPowerFailWarningAssert (begun : PerLink Bool) (s : State) : Host.Outcome State Fault Refusal :=
  .next (if s.alive && !s.ic.warning then s.warn begun else s)

/-- The area is to be cleared after the de-assertion: a checkpoint stands in it or is being written (R160). -/
def NvController.clearingDue (n : NvController) : Bool :=
  match n.areaWrite with
  | some (.checkpoint _) => true
  | some .clearing => n.clearDue
  | none => n.clearDue || n.marker

/-- The de-assertion of the power-fail warning: pumps may serve, the NVC goes back to its usual work, and the held hand-overs
are taken where the area is clear already (R138, R160). -/
def State.endWarning (s : State) : State :=
  let s1 := (s.setWarning false).serveAll
  (s1.setNvc { s1.nvc with phase := .normal, clearDue := s1.nvc.clearingDue }).advanceNv.takeFreed s

/-- POWER_FAIL_WARNING_DEASSERT (R34, R160). -/
def execPowerFailWarningDeassert (s : State) : Host.Outcome State Fault Refusal :=
  .next (if s.alive && s.ic.warning then s.endWarning else s)

/-! ### The Rack Clock (R17) -/

/-- The clock one second later; after 4,294,967,295 it wraps to 0 (R17). -/
def RackClock.tick (c : RackClock) : RackClock := { c with count := (c.count + 1) % 4294967296 }

/-- RACK_CLOCK_TICK: the clock counts in every condition, on the backup supply too (R17). -/
def execRackClockTick (s : State) : Host.Outcome State Fault Refusal := .next (s.setClock s.lc.clock.tick)

/-! ### The role latch (R7) -/

/-- The role of a strap value before conflicts are resolved (R7). -/
def roleOf : Nat → Role
  | 1 => .office
  | 2 => .panel .bayA
  | 3 => .panel .bayB
  | 4 => .service
  | _ => .unused

/-- A lower-numbered link straps the same bay panel role (R7). -/
def losesRole (straps : PerLink Nat) (l : Link) : Bool :=
  match roleOf (straps.get l) with
  | .panel b => Link.all.any fun k => decide (k.toNat < l.toNat) && roleOf (straps.get k) = .panel b
  | .unused | .office | .service => false

/-- The role latched for a link (R7). -/
def latchedRole (straps : PerLink Nat) (l : Link) : Role := if losesRole straps l then .unused else roleOf (straps.get l)

/-- Two or more links strap the same bay panel role (R7). -/
def roleConflict (straps : PerLink Nat) : Bool := Link.all.any (losesRole straps)

/-- A conflict sets ROLE_CONFLICT on the link: OFFICE, SERVICE, or latched UNUSED because of it (R7, R12). -/
def showsConflict (straps : PerLink Nat) (l : Link) : Bool :=
  roleConflict straps
    && (losesRole straps l || latchedRole straps l = .office || latchedRole straps l = .service)

/-- A link after a reset (R7, R14). -/
def latchedLink (straps : PerLink Nat) (l : Link) : StationLink :=
  let k : StationLink := .fresh (straps.get l) (latchedRole straps l)
  { k with flags := { CFlags.clear with roleConflict := showsConflict straps l } }

/-! ### Restoration of state (R148, R157, R161, R163, R168, R173) -/

/-- What a reset finds of retained memory and the store. -/
inductive Restoration where
  | blank | retained | lost
deriving DecidableEq, Repr

/-- Which restoration a reset makes: blank initialisation where the strap is set or the format mark is missing, otherwise by
the validity of retained memory (R161, R173). -/
def State.restorationKind (s : State) (blankStrap retainedValid : Bool) : Restoration :=
  if blankStrap || !s.nvc.formatMark then .blank else if retainedValid then .retained else .lost

/-- The working copies after a reset (R163, R168, R173); with retained memory, the live stock table (R143) and the next note
number of the working copy (R148) are kept. -/
def State.copiesAfter (s : State) : Restoration → NvRecords
  | .blank => .blank
  | .retained => { s.nvc.rebuilt with stock := s.wc.stock, nextNote := s.wc.nextNote }
  | .lost => s.nvc.store

/-- An arm's Metering Engine channel after a reset: windows afresh; residues, totalizers and counter kept, or 0 and the
totals record's (R94, R161). Until the first interval end READ_ARM shows the counter as kept here, also where a recovery note clears
it (log 13). -/
def State.channelAfter (s : State) (r : Restoration) (a : Arm) : MeteringChannel :=
  match r with
  | .blank => .blank
  | .retained =>
    { s.me.get a with
      rateWindow := [0, 0, 0, 0], temperatures := [], shownTemperature := none
      shownUnauthorized := (s.me.get a).unauthorized }
  | .lost =>
    { MeteringChannel.blank with gross := (s.nvc.store.totals.get a).gross, net := (s.nvc.store.totals.get a).net }

/-- An arm's running compartment record as start-up finds it (R161). -/
def State.runningAfter (s : State) (r : Restoration) (a : Arm) : Option Running :=
  match r with
  | .blank => none
  | .retained => s.running.get a
  | .lost => (s.nvc.area.get a).map Checkpoint.running

/-- An arm's reservation mark as start-up finds it (R148). -/
def State.reservedAfter (s : State) (r : Restoration) (a : Arm) : Bool :=
  match r with
  | .blank => false
  | .retained => s.ns.reserved.get a
  | .lost => (s.nvc.area.get a).isSome

/-- An injector channel's pulse residue after a reset (R132). -/
def State.residueAfter (s : State) (r : Restoration) (c : Channel) : Nat :=
  match r with
  | .blank => 0
  | .retained => (s.adu.channels.get c).residue
  | .lost => 0

/-- The Rack Clock after a reset (R17). -/
def State.clockAfter (s : State) : Restoration → RackClock
  | .blank => { count := 0, isSet := false }
  | .retained => s.lc.clock
  | .lost => { count := 0, isSet := false }

/-- The NVC after a reset: the queue and the write buffer with retained memory, the checkpoint area as it stands, no write
in progress (R161, R164, R173); a blank initialisation is done as a whole (log 36). -/
def State.nvcAfter (s : State) (blankStrap : Bool) : Restoration → NvController
  | .blank =>
    { store := .blank, formatMark := true, blankStrap := blankStrap, queue := [], buffer := none, phase := .normal
      areaWrite := none, clearDue := false, area := .const none, retainedValid := true, retainedLost := false }
  | .retained =>
    { s.nvc with
      blankStrap := blankStrap, phase := .normal, areaWrite := none, clearDue := false, retainedValid := true
      retainedLost := false }
  | .lost =>
    { s.nvc with
      blankStrap := blankStrap, queue := [], buffer := none, phase := .normal, areaWrite := none, clearDue := false
      retainedValid := true, retainedLost := true }

/-- The state of every block as it leaves a reset, before the recovery notes. -/
def State.restored (s : State) (x : ResetLines) (r : Restoration) : State :=
  let wc := s.copiesAfter r
  { condition := .restoring
    lc := { links := .tabulate (latchedLink x.roleStraps), baudStrap := x.baudStrap, clock := s.clockAfter r }
    ic := .fresh x
    wc := wc
    pt := { bound := [] }
    ob := { orders := [] }
    bsc := .tabulate fun b => .fresh (wc.outOfService.get b)
    me := .tabulate (s.channelAfter r)
    fc := .tabulate fun a => .fresh (wc.arms.get a)
    running := .tabulate (s.runningAfter r)
    adu := { channels := .tabulate fun c => .fresh (s.residueAfter r c), pumps := .const .fresh }
    ns := { reserved := .tabulate (s.reservedAfter r), held := .const false }
    nvc := s.nvcAfter x.blankStrap r
    pending := s.pending }

/-! ### Recovery notes (R162) -/

/-- The closing totalizers of an arm's recovery note: the restored totalizers, or those of its checkpoint (R162). -/
def State.recoveryTotals (s : State) (r : Restoration) (a : Arm) : Totals :=
  match r, s.nvc.area.get a with
  | .lost, some c => { gross := c.gross, net := c.net }
  | _, _ => { gross := (s.me.get a).gross, net := (s.me.get a).net }

/-- The end reason of recovery notes: POWER_LOSS where the power-fail marker is present, RESET otherwise (R162). -/
def State.recoveryReason (s : State) : EndReason := if s.nvc.marker then .powerLoss else .reset

/-- An arm's running compartment record found at start-up becomes a recovery note (R162). -/
def State.recover (r : Restoration) (s : State) (a : Arm) : State :=
  match s.running.get a with
  | some x =>
    (s.addNote a (x.toNote s.wc a s.recoveryReason s.timestamp (s.recoveryTotals r a) true)).setRunning a none
  | none => s

/-- The part leaves a reset (R36, R161): every block as restored, then a recovery note for each running compartment record,
in arm order. -/
def State.leaveReset (s : State) (x : ResetLines) (retainedValid : Bool) : State :=
  let r := s.restorationKind x.blankStrap retainedValid
  Arm.all.foldl (State.recover r) (s.restored x r)

/-! ### The resets and the supply -/

/-- RESET_ASSERTED: the reset line holds the part in reset (R36). -/
def execResetAsserted (s : State) : Host.Outcome State Fault Refusal :=
  .next (if s.condition = .unpowered then s else s.setCondition .heldInReset)

/-- EXTERNAL_RESET: the reset line is released; retained memory is taken as valid (R36, R157, log 22). -/
def execExternalReset (lines : ResetLines) (s : State) : Host.Outcome State Fault Refusal :=
  .next (if s.condition = .unpowered then s else s.leaveReset lines true)

/-- POWER_ON_RESET: main power reaches its working level, and retained memory is checked (R36, R157, R161). -/
def execPowerOnReset (lines : ResetLines) (s : State) : Host.Outcome State Fault Refusal :=
  .next (s.leaveReset lines s.nvc.retainedValid)

/-- Restoration is complete: counting begins with all counts at 0, and a checkpoint area that holds any checkpoint has been
cleared; the links hand on requests from here, and the NVC writes (R28, R161, R164, log 18). -/
def State.completeRestoration (s : State) : State :=
  let zero : MeterInput → MeterInput := fun x => { x with counts := { nA := 0, nB := 0, reverse := 0 } }
  let s1 := (s.setCondition .running).setNvc { s.nvc with area := .const none }
  ({ s1 with ic := { s1.ic with meters := .tabulate fun a => zero (s1.ic.meters.get a) } }).advanceNv

/-- RESTORATION_COMPLETE (R28, R161). -/
def execRestorationComplete (s : State) : Host.Outcome State Fault Refusal :=
  .next (if s.condition = .restoring then s.completeRestoration else s)

/-- MAIN_POWER_LOSS (R157). -/
def execMainPowerLoss (s : State) : Host.Outcome State Fault Refusal := .next (s.setCondition .unpowered)

/-- BACKUP_SUPPLY_RAN_FLAT: with main power absent, retained memory is left invalid (R157). -/
def execBackupSupplyRanFlat (s : State) : Host.Outcome State Fault Refusal :=
  .next (if s.condition = .unpowered then s.setNvc { s.nvc with retainedValid := false } else s)

end Sys2Proof.Machine
end

