-- ==== Sys2Proof/Machine/ServiceRequests.lean ====
section
/-! DEFINITION. The Service requests: products, arms, injectors, pumps, the rack configuration and the audit list, with the
checks of the metrological seal (R21, R30, R39, R56, R93, R110, R128, R130, R133, R134, R169 to R172). -/

namespace Sys2Proof.Machine

/-! ### The seal and the Audit List (R169 to R171) -/

/-- The NVC's checks of a sealed write, in their order (R169); `busyArm`: an arm the write concerns is not IDLE. -/
def State.sealedChecks (s : State) (busyArm : Bool) : Option ResultCode :=
  if !s.sealOpen then some .sealedParameter
  else if Config.maxCounter ≤ s.wc.audit.counter then some .sealedParameter
  else if busyArm then some .state
  else none

/-- The audit record after an accepted sealed write: the counter raised, the entry added at the newest end, the oldest
removed where 32 are held (R170, R171). -/
def AuditRecord.add (r : AuditRecord) (time : Option Nat) (subject : AuditSubject) (changes : List ParameterChange) :
    AuditRecord :=
  let e : AuditEntry := { counter := r.counter + 1, time := time, subject := subject, changes := changes }
  { counter := r.counter + 1
    entries := (if Config.maxAudit ≤ r.entries.length then r.entries.drop 1 else r.entries) ++ [e] }

/-- An accepted sealed write logged, with its setting-class entry (R170, R171). -/
def State.logSealed (s : State) (subject : AuditSubject) (changes : List ParameterChange) : State :=
  s.commit (.audit (s.wc.audit.add s.timestamp subject changes)) .setting

/-! ### WRITE_PRODUCT (R56) -/

/-- The ranges of WRITE_PRODUCT (R56, check 1). -/
def ProductFields.rangeOk (x : ProductFields) : Bool :=
  within 1 15 x.code && within 1 8 x.cls && within 0 20000 x.alpha && decide (-4000 ≤ x.fallback) && decide (x.fallback ≤ 7000)

/-- The record WRITE_PRODUCT writes. -/
def ProductFields.record (x : ProductFields) : ProductRecord := { cls := x.cls, alpha := x.alpha, fallback := x.fallback }

/-- A WRITE_PRODUCT is a sealed write where it defines the product or changes its α (R56). -/
def productSealed (old : Option ProductRecord) (alpha : Nat) : Bool :=
  match old with
  | none => true
  | some p => p.alpha ≠ alpha

/-- An arm whose configured product is the code is not IDLE (R56, check 3). -/
def State.productInFlow (s : State) (code : Nat) : Bool :=
  Arm.all.any fun a => (s.wc.arms.get a).product = code && !s.armIdle a

/-- WRITE_PRODUCT at the Order Book and the NVC: a sealed write hands on the product's entry, then the audit entry (R56, R165,
log 37). -/
def writeProductOwner (x : ProductFields) (s : State) : Answer :=
  if !x.rangeOk then s.refuse .range
  else
    let old := s.wc.products.find x.code
    if productSealed old x.alpha then
      match s.sealedChecks (s.productInFlow x.code) with
      | some r => s.refuse r
      | none =>
        if s.nvBusy then s.refuse .busy
        else
          ((s.commit (.product x.code x.record) .setting).logSealed (.product x.code)
            [.alpha (old.map ProductRecord.alpha) x.alpha]).accept []
    else s.writeSetting (old = some x.record) (.product x.code x.record)

/-- WRITE_PRODUCT (R56). -/
def execWriteProduct (l : Link) (s : State) : Host.Outcome State Fault Refusal :=
  .next (s.serveRequest l 0x60#8 .service formWriteProduct writeProductOwner)

/-! ### WRITE_ARM (R110, R30, R130, R169) -/

/-- A pulse mode of a request (R30, R175). -/
def pulseModeOf : Nat → Option PulseMode
  | 0 => some .single
  | 1 => some .dual
  | _ => none

/-- A yes or no of a request: yes is 0 (R175). -/
def yesNoOf : Nat → Option Bool
  | 0 => some true
  | 1 => some false
  | _ => none

/-- The points of an MF table after a point of rate `prev`: rates rising and in range, factors in range (R110). -/
def mfPointsOk (prev : Nat) : List (Nat × Nat) → Bool
  | [] => true
  | p :: rest => decide (prev < p.1) && within 0 9999 p.1 && within 90000 110000 p.2 && mfPointsOk p.1 rest

/-- The MF table of a request: 1 to 6 points, all in range (R110). -/
def mfTableOf : List (Nat × Nat) → Option MfTable
  | [] => none
  | p :: rest =>
    if within 0 9999 p.1 && within 90000 110000 p.2 && decide (rest.length ≤ 5) && mfPointsOk p.1 rest then
      some
        { first := { rate := p.1, mf := p.2 }
          rest := rest.map fun q => { rate := q.1, mf := q.2 } }
    else none

/-- The other ranges of WRITE_ARM (R110, R30, R130); the three rates are taken as nearer limits instead. -/
def ArmFields.rangeOk (x : ArmFields) : Bool :=
  within 0 15 x.product
    && (match x.kMilli with
        | some k => within 1000 999999 k
        | none => true)
    && decide (-10000 ≤ x.offset) && decide (x.offset ≤ 10000) && within 0 30000 x.span && within 0 10 x.fidelity
    && within 10 200 x.deadband && within 50 1000 x.startVolume && within 50 2000 x.topOffVolume
    && within 0 50000 x.initialLead && within 0 50000 x.leadMaximum && within 0 200 x.overrunLimit
    && within 5 60 x.noFlowTime

/-- The max rate taken as the nearer limit (R130). -/
def ArmFields.maxRateTaken (x : ArmFields) : Nat := clampTo 100 4000 x.maxRate
/-- The low rate taken against the max rate (R130). -/
def ArmFields.lowRateTaken (x : ArmFields) : Nat := clampTo 50 x.maxRateTaken x.lowRate
/-- The high rate taken against the low rate and the max rate (R130). -/
def ArmFields.highRateTaken (x : ArmFields) : Nat := clampTo x.lowRateTaken x.maxRateTaken x.highRate

/-- The record WRITE_ARM writes, or none where a field is refused RANGE (R130). -/
def ArmFields.record (x : ArmFields) : Option ArmRecord :=
  match mfTableOf x.mf, pulseModeOf x.mode, yesNoOf x.atcRequired with
  | some mf, some mode, some atc =>
    if x.rangeOk then
      some
        { product := x.product, kMilli := x.kMilli, mf := mf, offset := x.offset, span := x.span, mode := mode
          fidelity := x.fidelity, maxRate := x.maxRateTaken, lowRate := x.lowRateTaken, highRate := x.highRateTaken
          deadband := x.deadband, startVolume := x.startVolume, topOffVolume := x.topOffVolume
          initialLead := x.initialLead, leadMaximum := x.leadMaximum, overrunLimit := x.overrunLimit
          noFlowTime := x.noFlowTime, atcRequired := atc }
    else none
  | _, _, _ => none

/-- Every point of a table. -/
def MfTable.points (t : MfTable) : List MfPoint := t.first :: t.rest

/-- What an audit entry says of a table: its point count, lowest and highest MF (R171). -/
def MfTable.summary (t : MfTable) : MfSummary :=
  { points := t.points.length
    lowest := t.points.foldl (fun m p => min m p.mf) t.first.mf
    highest := t.points.foldl (fun m p => max m p.mf) t.first.mf }

/-- A change listed only where its condition holds. -/
def listed (changed : Bool) (c : ParameterChange) : List ParameterChange := if changed then [c] else []

/-- The sealed parameters a write changes, in the order of R169, each with its old and new value (R171). -/
def ArmRecord.changes (old new : ArmRecord) : List ParameterChange :=
  listed (old.kMilli ≠ new.kMilli) (.kMilli old.kMilli new.kMilli)
    ++ listed (old.mode ≠ new.mode) (.mode old.mode new.mode)
    ++ listed (old.fidelity ≠ new.fidelity) (.fidelity old.fidelity new.fidelity)
    ++ listed (old.mf ≠ new.mf) (.mf old.mf.summary new.mf.summary)
    ++ listed (old.offset ≠ new.offset) (.offset old.offset new.offset)
    ++ listed (old.span ≠ new.span) (.span old.span new.span)

/-- The learned lead after an accepted write (R130). -/
def leadAfter (old new : ArmRecord) (lead : Nat) : Nat :=
  if new.initialLead ≠ old.initialLead then min new.initialLead new.leadMaximum else min lead new.leadMaximum

/-- An accepted WRITE_ARM that changes the record: the record's entry, then the audit entry of a sealed write (log 37), and the
learned lead (R130, R171). -/
def State.writeArm (s : State) (a : Arm) (new : ArmRecord) : State :=
  let old := s.wc.arms.get a
  let s1 := s.commit (.arm a new) .setting
  let s2 := match old.changes new with
    | [] => s1
    | c :: cs => s1.logSealed (.arm a) (c :: cs)
  s2.modifyFc a fun x => { x with lead := leadAfter old new x.lead }

/-- WRITE_ARM's checks after RANGE: the seal, the product of a working arm, and BUSY for a write that changes the record (R130, R165,
R169). -/
def State.writeArmChecks (s : State) (a : Arm) (new : ArmRecord) : Option ResultCode :=
  let old := s.wc.arms.get a
  match (if (old.changes new).isEmpty then none else s.sealedChecks (!s.armIdle a)) with
  | some r => some r
  | none =>
    if new.product ≠ old.product && !s.armIdle a then some .state
    else if new ≠ old && s.nvBusy then some .busy
    else none

/-- WRITE_ARM at the Flow Controller, the Metering Engine channel and the NVC (R130, R165). -/
def writeArmOwner (x : ArmFields) (s : State) : Answer :=
  match Arm.ofNat? x.arm, x.record with
  | some a, some new =>
    match s.writeArmChecks a new with
    | some r => s.refuse r
    | none => (if new = s.wc.arms.get a then s else s.writeArm a new).accept []
  | _, _ => s.refuse .range

/-- WRITE_ARM (R130). -/
def execWriteArm (l : Link) (s : State) : Host.Outcome State Fault Refusal :=
  .next (s.serveRequest l 0x61#8 .service formWriteArm writeArmOwner)

/-! ### WRITE_INJECTOR and WRITE_PUMP (R133, R134) -/

/-- An additive type field: 0 none, 1 to 6 (R175); the outer none where it is out of range. -/
def additiveOf (n : Nat) : Option (Option Additive) := if n = 0 then some none else (Additive.ofNat? n).map some

/-- The record WRITE_INJECTOR writes, or none where a field is refused RANGE (R133, check 1). -/
def InjectorFields.record (x : InjectorFields) : Option InjectorRecord :=
  match additiveOf x.additive with
  | some t =>
    if within 10 500 x.shotVolume && within 1000 9999999 x.kMilli && within 200 5000 x.timeLimit then
      some { additive := t, shotVolume := x.shotVolume, kMilli := x.kMilli, timeLimit := x.timeLimit }
    else none
  | none => none

/-- WRITE_INJECTOR at the ADU (R133, R165). -/
def writeInjectorOwner (x : InjectorFields) (s : State) : Answer :=
  match Channel.ofNat? x.channel, x.record with
  | some c, some r =>
    if !s.armIdle c.arm then s.refuse .state
    else s.writeSetting (s.wc.injectors.get c = r) (.injector c r)
  | _, _ => s.refuse .range

/-- WRITE_INJECTOR (R133). -/
def execWriteInjector (l : Link) (s : State) : Host.Outcome State Fault Refusal :=
  .next (s.serveRequest l 0x62#8 .service formWriteInjector writeInjectorOwner)

/-- WRITE_PUMP at the ADU (R134, R165). -/
def writePumpOwner (x : Nat × Nat) (s : State) : Answer :=
  match Additive.ofNat? x.1 with
  | some p =>
    if !within 100 2000 x.2 then s.refuse .range
    else s.writeSetting (s.wc.pumpRest.get p = x.2) (.pump p x.2)
  | none => s.refuse .range

/-- WRITE_PUMP (R134). -/
def execWritePump (l : Link) (s : State) : Host.Outcome State Fault Refusal :=
  .next (s.serveRequest l 0x63#8 .service formWritePump writePumpOwner)

/-! ### WRITE_RACK (R21, R39, R93, R128) -/

/-- A debounce choice (R21). -/
def debounceOk (n : Nat) : Bool := n = 8 || n = 64 || n = 250 || n = 1000

/-- The fourteen debounce choices, in the order of `DiscreteInput.all` (R176). -/
def debounceOf (l : List Nat) : Option (PerInput Nat) :=
  match l with
  | [ga, oa, va, gb, ob, vb, p0, p1, p2, p3, es, da, db, sl] =>
    if l.all debounceOk then
      some
        { ground := { bayA := ga, bayB := gb }, overfill := { bayA := oa, bayB := ob }, vapour := { bayA := va, bayB := vb }
          parked := { arm0 := p0, arm1 := p1, arm2 := p2, arm3 := p3 }, emergencyStop := es
          deadman := { bayA := da, bayB := db }, sealSwitch := sl }
    else none
  | _ => none

/-- A driver record in step with an attempt limit (R39). -/
def DriverRecord.inStep (d : DriverRecord) (limit : Nat) : Bool :=
  match d.status with
  | .active => decide (d.failed < limit)
  | .blocked => decide (d.failed ≤ limit)

/-- The configuration WRITE_RACK writes, or none where a debounce choice is refused RANGE (R21, R39, R93, R128). -/
def RackFields.config (x : RackFields) : Option RackConfig :=
  match debounceOf x.debounce with
  | some d =>
    some
      { debounce := d, attemptLimit := clampTo 1 9 x.attemptLimit, deadmanInterval := clampTo 30 600 x.deadmanInterval
        pauseTimeout := clampTo 60 3600 x.pauseTimeout }
  | none => none

/-- WRITE_RACK at the owners of the settings (R21, R39, R93, R128): RANGE, then STATE, then BUSY (R165, log 25). -/
def writeRackOwner (x : RackFields) (s : State) : Answer :=
  match x.config with
  | none => s.refuse .range
  | some c =>
    if !(s.wc.drivers.all fun e => e.2.inStep c.attemptLimit) then s.refuse .state
    else s.writeSetting (s.wc.rack = c) (.rack c)

/-- WRITE_RACK (R21). -/
def execWriteRack (l : Link) (s : State) : Host.Outcome State Fault Refusal :=
  .next (s.serveRequest l 0x64#8 .service formWriteRack writeRackOwner)

/-! ### READ_AUDIT (R172) -/

/-- The summary of an MF table in a response (R171, log 14). -/
def MfSummary.payload (m : MfSummary) : List Byte := natBytes 1 m.points ++ natBytes 4 m.lowest ++ natBytes 4 m.highest

/-- A changed parameter in a response: its place in R169, then its old and new value (R171, log 14). -/
def ParameterChange.payload : ParameterChange → List Byte
  | .kMilli old new => natBytes 1 0 ++ optionalBytes (natBytes 4) old ++ optionalBytes (natBytes 4) new
  | .mode old new => natBytes 1 1 ++ natBytes 1 old.code ++ natBytes 1 new.code
  | .fidelity old new => natBytes 1 2 ++ natBytes 1 old ++ natBytes 1 new
  | .mf old new => natBytes 1 3 ++ old.payload ++ new.payload
  | .offset old new => natBytes 1 4 ++ intBytes old ++ intBytes new
  | .span old new => natBytes 1 5 ++ natBytes 2 old ++ natBytes 2 new
  | .alpha old new => natBytes 1 6 ++ optionalBytes (natBytes 2) old ++ natBytes 2 new

/-- The subject of an entry in a response: 0 and an arm, or 1 and a product code (R171, log 14). -/
def AuditSubject.payload : AuditSubject → List Byte
  | .arm a => natBytes 1 0 ++ natBytes 1 a.toNat
  | .product code => natBytes 1 1 ++ natBytes 1 code

/-- An audit entry in a response (R171). -/
def AuditEntry.payload (e : AuditEntry) : List Byte :=
  natBytes 4 e.counter ++ optionalBytes (natBytes 4) e.time ++ e.subject.payload ++ listBytes ParameterChange.payload e.changes

/-- READ_AUDIT at the NVC: the k-th newest entry, the counter and the number of entries held (R172). -/
def readAuditOwner (k : Nat) (s : State) : Answer :=
  match s.wc.audit.entries.reverse[k]? with
  | some e => s.accept (e.payload ++ natBytes 4 s.wc.audit.counter ++ natBytes 1 s.wc.audit.entries.length)
  | none => s.refuse .notFound

/-- READ_AUDIT (R172). -/
def execReadAudit (l : Link) (s : State) : Host.Outcome State Fault Refusal :=
  .next (s.serveRequest l 0x65#8 .service formByte readAuditOwner)

end Sys2Proof.Machine
end

