-- ==== Sys2Proof/Machine/StoreEvents.lean ====
section
/-! DEFINITION. The note and store events: hand-overs, the completion of store writes and of checkpoints, and the clearing of
the checkpoint area (R119, R151, R158 to R160, R164). -/

namespace Sys2Proof.Machine

/-- HAND_OVER, where nothing holds it (R119, R158, R160, R166, log 11). -/
def execHandOver (a : Arm) (s : State) : Host.Outcome State Fault Refusal :=
  .next (if s.handOverReady a then s.handOver a else s)

/-- The write in progress is complete: the record is in the store, the buffer empties, and the next write begins; a hand-over
held behind the note entry whose write begins is taken (R164, R166). -/
def State.writeComplete (s : State) : State :=
  match s.nvc.buffer with
  | some e => (s.setNvc { s.nvc with store := s.nvc.store.write e.contents, buffer := none }).advanceNv.takeFreed s
  | none => s

/-- NV_WRITE_COMPLETE (R164). -/
def execNvWriteComplete (s : State) : Host.Outcome State Fault Refusal := .next (if s.isRunning then s.writeComplete else s)

/-- The checkpoint being written is complete: the arm's record as it stands is in its place, and the next write begins (R158,
R159, log 12). -/
def State.checkpointComplete (s : State) : State :=
  match s.nvc.areaWrite with
  | some (.checkpoint a) =>
    (s.setNvc { s.nvc with area := s.nvc.area.set a (s.checkpointOf a), areaWrite := none }).advanceNv
  | some .clearing => s
  | none => s

/-- CHECKPOINT_WRITE_COMPLETE (R158, R159). -/
def execCheckpointWriteComplete (s : State) : Host.Outcome State Fault Refusal :=
  .next (if s.isRunning then s.checkpointComplete else s)

/-- The clearing of the checkpoint area is complete, the next write begins, and the hand-overs that waited for a clear area
are taken (R159, R160). -/
def State.areaCleared (s : State) : State :=
  match s.nvc.areaWrite with
  | some .clearing => (s.setNvc { s.nvc with area := .const none, areaWrite := none }).advanceNv.takeFreed s
  | some (.checkpoint _) => s
  | none => s

/-- CHECKPOINT_AREA_CLEARED (R160). -/
def execCheckpointAreaCleared (s : State) : Host.Outcome State Fault Refusal := .next (if s.isRunning then s.areaCleared else s)

end Sys2Proof.Machine
end

