-- ==== Sys2Proof/Machine/TimerEvents.lean ====
section
/-! DEFINITION. The timer events: pumps, arms and bays (R51, R87, R91, R117, R127, R128, R139). An expiry of a timer that is
not running changes nothing (log 2). -/

namespace Sys2Proof.Machine

/-- SHOT_TIMER_EXPIRY: the shot ends SHOT_SHORT (R139, R142). -/
def execShotTimerExpiry (p : Additive) (s : State) : Host.Outcome State Fault Refusal :=
  .next (if s.alive && (s.adu.pumps.get p).shotTimer.isSome then s.shotShort p else s)

/-- The rest of a pump ends: IDLE, and it serves at once if its queue is not empty (R138, R139). -/
def State.restEnded (s : State) (p : Additive) : State :=
  (s.modifyPump p fun x => { x with status := .idle, restTimer := none }).serve p

/-- REST_TIMER_EXPIRY (R139). -/
def execRestTimerExpiry (p : Additive) (s : State) : Host.Outcome State Fault Refusal :=
  .next (if s.alive && (s.adu.pumps.get p).restTimer.isSome then s.restEnded p else s)

/-- CLOSING_TIMER_EXPIRY: CLOSING ends (R117). -/
def execClosingTimerExpiry (a : Arm) (s : State) : Host.Outcome State Fault Refusal :=
  .next (if s.alive && (s.fc.get a).closingTimer.isSome && (s.fc.get a).state = .closing then s.endClosing a else s)

/-- The no-flow timer of an arm expires: NO_FLOW is raised (R127). -/
def State.noFlowExpired (s : State) (a : Arm) : State :=
  (s.modifyFc a fun x => { x with noFlowTimer := none }).raiseCause a .noFlow

/-- NO_FLOW_TIMER_EXPIRY (R127). -/
def execNoFlowTimerExpiry (a : Arm) (s : State) : Host.Outcome State Fault Refusal :=
  .next (if s.alive && (s.fc.get a).noFlowTimer.isSome then s.noFlowExpired a else s)

/-- The pause timer of an arm expires: end reason PAUSE_TIMEOUT, and ENDING (R128). -/
def State.pauseExpired (s : State) (a : Arm) : State := (s.setEndReason a .pauseTimeout).enterEnding a

/-- PAUSE_TIMER_EXPIRY (R128). -/
def execPauseTimerExpiry (a : Arm) (s : State) : Host.Outcome State Fault Refusal :=
  .next (if s.alive && (s.fc.get a).pauseTimer.isSome && (s.fc.get a).state = .paused then s.pauseExpired a else s)

/-- PIN_TIMER_EXPIRY: the driver is unbound and the bay goes to LOCKED (R51). -/
def execPinTimerExpiry (b : Bay) (s : State) : Host.Outcome State Fault Refusal :=
  .next (if s.alive && (s.bsc.get b).pinTimer.isSome && (s.bsc.get b).status = .ident then s.abandonIdent b else s)

/-- INACTIVITY_TIMER_EXPIRY: a session close to LOCKED (R87). -/
def execInactivityTimerExpiry (b : Bay) (s : State) : Host.Outcome State Fault Refusal :=
  .next (if s.alive && (s.bsc.get b).inactivityTimer.isSome then s.closeSession b .locked else s)

/-- The dead-man timer expires in QUIET: WARNING, and the timer restarted (R91). -/
def State.deadmanWarn (s : State) (b : Bay) : State :=
  s.modifyBay b fun x =>
    { x with stage := .warning, deadmanTimer := some (s.wc.rack.deadmanInterval * 1000), leftInWarning := [] }

/-- The expiry reaches the Bay Session Controller ahead of an arm's leaving of flow, which the Flow Controller has already made in
WARNING: the arm counts as it stood (R91, log 32). -/
def State.overtaken (s : State) (x : DeadmanExpiry) (a : Arm) : Bool :=
  x.ahead.get a && (s.bsc.get x.bay).leftInWarning.contains a && !s.armIdle a

/-- The dead-man timer expires in WARNING: the alarm set, the stage QUIET, and DEADMAN on each arm of the bay that flows, or whose
leaving the expiry overtakes, taken against the state the arm has reached (R91). -/
def State.deadmanStop (s : State) (x : DeadmanExpiry) : State :=
  let s1 := s.modifyBay x.bay fun y => { y with stage := .quiet, alarm := true, deadmanTimer := none, leftInWarning := [] }
  s1.raiseOn (x.bay.arms.filter fun a => s.armFlowing a || s.overtaken x a) .deadman

/-- The dead-man timer of a bay expires (R91); stopped, it has expired only where the expiry overtakes the leaving that stopped it. -/
def State.deadmanExpired (s : State) (x : DeadmanExpiry) : State :=
  if (s.bsc.get x.bay).deadmanTimer.isSome then
    match (s.bsc.get x.bay).stage with
    | .quiet => s.deadmanWarn x.bay
    | .warning => s.deadmanStop x
  else if x.bay.arms.any (s.overtaken x) then s.deadmanStop x
  else s

/-- DEADMAN_TIMER_EXPIRY (R91). -/
def execDeadmanTimerExpiry (x : DeadmanExpiry) (s : State) : Host.Outcome State Fault Refusal :=
  .next (if s.alive then s.deadmanExpired x else s)

end Sys2Proof.Machine
end

