-- ==== Sys2Proof/Machine/Dispatch.lean ====
section
/-! DEFINITION. One arm per command: a direct call of its meaning. -/

namespace Sys2Proof.Machine

def exec (i : Instr) (s : State) : Host.Outcome State Fault Refusal :=
  match i with
  | .identify l => Sys2Proof.Machine.execIdentify l s
  | .readStatus l => Sys2Proof.Machine.execReadStatus l s
  | .readBay l => Sys2Proof.Machine.execReadBay l s
  | .readArm l => Sys2Proof.Machine.execReadArm l s
  | .readClock l => Sys2Proof.Machine.execReadClock l s
  | .unknownRequest l => Sys2Proof.Machine.execUnknownRequest l s
  | .card l => Sys2Proof.Machine.execCard l s
  | .pin l => Sys2Proof.Machine.execPin l s
  | .selectOrder l => Sys2Proof.Machine.execSelectOrder l s
  | .markFirst l => Sys2Proof.Machine.execMarkFirst l s
  | .markLast l => Sys2Proof.Machine.execMarkLast l s
  | .exclude l => Sys2Proof.Machine.execExclude l s
  | .commitPlan l => Sys2Proof.Machine.execCommitPlan l s
  | .newPlan l => Sys2Proof.Machine.execNewPlan l s
  | .start l => Sys2Proof.Machine.execStart l s
  | .stop l => Sys2Proof.Machine.execStop l s
  | .resume l => Sys2Proof.Machine.execResume l s
  | .ackCause l => Sys2Proof.Machine.execAckCause l s
  | .finish l => Sys2Proof.Machine.execFinish l s
  | .signOff l => Sys2Proof.Machine.execSignOff l s
  | .writeDriver l => Sys2Proof.Machine.execWriteDriver l s
  | .deleteDriver l => Sys2Proof.Machine.execDeleteDriver l s
  | .resetPin l => Sys2Proof.Machine.execResetPin l s
  | .readDriver l => Sys2Proof.Machine.execReadDriver l s
  | .writeOrder l => Sys2Proof.Machine.execWriteOrder l s
  | .deleteOrder l => Sys2Proof.Machine.execDeleteOrder l s
  | .readOrder l => Sys2Proof.Machine.execReadOrder l s
  | .cancelOrder l => Sys2Proof.Machine.execCancelOrder l s
  | .writeRecipe l => Sys2Proof.Machine.execWriteRecipe l s
  | .setBayService l => Sys2Proof.Machine.execSetBayService l s
  | .officeStop l => Sys2Proof.Machine.execOfficeStop l s
  | .officeRelease l => Sys2Proof.Machine.execOfficeRelease l s
  | .setStock l => Sys2Proof.Machine.execSetStock l s
  | .readStock l => Sys2Proof.Machine.execReadStock l s
  | .readNote l => Sys2Proof.Machine.execReadNote l s
  | .releaseNote l => Sys2Proof.Machine.execReleaseNote l s
  | .setClock l => Sys2Proof.Machine.execSetClock l s
  | .writeProduct l => Sys2Proof.Machine.execWriteProduct l s
  | .writeArm l => Sys2Proof.Machine.execWriteArm l s
  | .writeInjector l => Sys2Proof.Machine.execWriteInjector l s
  | .writePump l => Sys2Proof.Machine.execWritePump l s
  | .writeRack l => Sys2Proof.Machine.execWriteRack l s
  | .readAudit l => Sys2Proof.Machine.execReadAudit l s
  | .characterReceived l c stopBit => Sys2Proof.Machine.execCharacterReceived l c stopBit s
  | .gapTimeout l => Sys2Proof.Machine.execGapTimeout l s
  | .responseSent l => Sys2Proof.Machine.execResponseSent l s
  | .discreteLineChange d level => Sys2Proof.Machine.execDiscreteLineChange d level s
  | .debounceExpiry d => Sys2Proof.Machine.execDebounceExpiry d s
  | .stuckTimerExpiry b => Sys2Proof.Machine.execStuckTimerExpiry b s
  | .productMeterEdge a line other => Sys2Proof.Machine.execProductMeterEdge a line other s
  | .additivePulse c => Sys2Proof.Machine.execAdditivePulse c s
  | .meteringIntervalEnd a raw order => Sys2Proof.Machine.execMeteringIntervalEnd a raw order s
  | .shotTimerExpiry p => Sys2Proof.Machine.execShotTimerExpiry p s
  | .restTimerExpiry p => Sys2Proof.Machine.execRestTimerExpiry p s
  | .closingTimerExpiry a => Sys2Proof.Machine.execClosingTimerExpiry a s
  | .noFlowTimerExpiry a => Sys2Proof.Machine.execNoFlowTimerExpiry a s
  | .pauseTimerExpiry a => Sys2Proof.Machine.execPauseTimerExpiry a s
  | .pinTimerExpiry b => Sys2Proof.Machine.execPinTimerExpiry b s
  | .inactivityTimerExpiry b => Sys2Proof.Machine.execInactivityTimerExpiry b s
  | .deadmanTimerExpiry x => Sys2Proof.Machine.execDeadmanTimerExpiry x s
  | .handOver a => Sys2Proof.Machine.execHandOver a s
  | .nvWriteComplete => Sys2Proof.Machine.execNvWriteComplete s
  | .checkpointWriteComplete => Sys2Proof.Machine.execCheckpointWriteComplete s
  | .checkpointAreaCleared => Sys2Proof.Machine.execCheckpointAreaCleared s
  | .powerFailWarningAssert begun => Sys2Proof.Machine.execPowerFailWarningAssert begun s
  | .powerFailWarningDeassert => Sys2Proof.Machine.execPowerFailWarningDeassert s
  | .rackClockTick => Sys2Proof.Machine.execRackClockTick s
  | .resetAsserted => Sys2Proof.Machine.execResetAsserted s
  | .externalReset lines => Sys2Proof.Machine.execExternalReset lines s
  | .powerOnReset lines => Sys2Proof.Machine.execPowerOnReset lines s
  | .restorationComplete => Sys2Proof.Machine.execRestorationComplete s
  | .mainPowerLoss => Sys2Proof.Machine.execMainPowerLoss s
  | .backupSupplyRanFlat => Sys2Proof.Machine.execBackupSupplyRanFlat s

end Sys2Proof.Machine
end

