-- ==== Sys2Proof/Safety.lean ====
section
/-! DEFINITION. The terms in which statements about the part speak: a request that waits and its answer, what kinds of
requests there are, and the laws of a well-formed state. -/

namespace Sys2Proof

/-- The request rows with the link each names, its code and its class (R8, R174). UNKNOWN_REQUEST has no code of its own. -/
def Instr.request : Instr → Option (Link × Byte × Machine.RequestClass)
  | .identify l => some (l, 0x01#8, .basic)
  | .readStatus l => some (l, 0x02#8, .basic)
  | .readBay l => some (l, 0x03#8, .basic)
  | .readArm l => some (l, 0x04#8, .basic)
  | .readClock l => some (l, 0x05#8, .basic)
  | .card l => some (l, 0x20#8, .bay)
  | .pin l => some (l, 0x21#8, .bay)
  | .selectOrder l => some (l, 0x22#8, .bay)
  | .markFirst l => some (l, 0x23#8, .bay)
  | .markLast l => some (l, 0x24#8, .bay)
  | .exclude l => some (l, 0x25#8, .bay)
  | .commitPlan l => some (l, 0x26#8, .bay)
  | .newPlan l => some (l, 0x27#8, .bay)
  | .start l => some (l, 0x28#8, .bay)
  | .stop l => some (l, 0x29#8, .bay)
  | .resume l => some (l, 0x2A#8, .bay)
  | .ackCause l => some (l, 0x2B#8, .bay)
  | .finish l => some (l, 0x2C#8, .bay)
  | .signOff l => some (l, 0x2D#8, .bay)
  | .writeDriver l => some (l, 0x40#8, .office)
  | .deleteDriver l => some (l, 0x41#8, .office)
  | .resetPin l => some (l, 0x42#8, .office)
  | .readDriver l => some (l, 0x43#8, .office)
  | .writeOrder l => some (l, 0x44#8, .office)
  | .deleteOrder l => some (l, 0x45#8, .office)
  | .readOrder l => some (l, 0x46#8, .office)
  | .cancelOrder l => some (l, 0x47#8, .office)
  | .writeRecipe l => some (l, 0x48#8, .office)
  | .setBayService l => some (l, 0x49#8, .office)
  | .officeStop l => some (l, 0x4A#8, .office)
  | .officeRelease l => some (l, 0x4B#8, .office)
  | .setStock l => some (l, 0x4C#8, .office)
  | .readStock l => some (l, 0x4D#8, .office)
  | .readNote l => some (l, 0x4E#8, .office)
  | .releaseNote l => some (l, 0x4F#8, .office)
  | .setClock l => some (l, 0x50#8, .office)
  | .writeProduct l => some (l, 0x60#8, .service)
  | .writeArm l => some (l, 0x61#8, .service)
  | .writeInjector l => some (l, 0x62#8, .service)
  | .writePump l => some (l, 0x63#8, .service)
  | .writeRack l => some (l, 0x64#8, .service)
  | .readAudit l => some (l, 0x65#8, .service)
  | .unknownRequest _ | .characterReceived _ _ _ | .gapTimeout _ | .responseSent _ | .discreteLineChange _ _
  | .debounceExpiry _ | .stuckTimerExpiry _ | .productMeterEdge _ _ _ | .additivePulse _
  | .meteringIntervalEnd _ _ _ | .shotTimerExpiry _ | .restTimerExpiry _ | .closingTimerExpiry _
  | .noFlowTimerExpiry _ | .pauseTimerExpiry _ | .pinTimerExpiry _ | .inactivityTimerExpiry _
  | .deadmanTimerExpiry _ | .handOver _ | .nvWriteComplete | .checkpointWriteComplete
  | .checkpointAreaCleared | .powerFailWarningAssert _ | .powerFailWarningDeassert | .rackClockTick
  | .resetAsserted | .externalReset _ | .powerOnReset _ | .restorationComplete | .mainPowerLoss
  | .backupSupplyRanFlat => none

/-- The payload length of the requests whose form has no varying part (R4, R175, R176). -/
def Instr.fixedLength : Instr → Option Nat
  | .identify _ | .readStatus _ | .readClock _ | .commitPlan _ | .newPlan _ | .signOff _ | .readStock _ => some 0
  | .readBay _ | .readArm _ | .markFirst _ | .markLast _ | .exclude _ | .stop _ | .resume _ | .finish _
  | .officeStop _ | .officeRelease _ | .readNote _ | .readAudit _ => some 1
  | .start _ | .ackCause _ | .setBayService _ => some 2
  | .writePump _ => some 3
  | .card _ | .selectOrder _ | .deleteDriver _ | .deleteOrder _ | .cancelOrder _ | .releaseNote _
  | .setClock _ => some 4
  | .readDriver _ | .readOrder _ => some 5
  | .writeProduct _ => some 6
  | .pin _ => some 9
  | .writeInjector _ => some 10
  | .resetPin _ | .setStock _ => some 13
  | .writeRack _ => some 33
  | .unknownRequest _ | .writeDriver _ | .writeOrder _ | .writeRecipe _ | .writeArm _
  | .characterReceived _ _ _ | .gapTimeout _ | .responseSent _ | .discreteLineChange _ _ | .debounceExpiry _
  | .stuckTimerExpiry _ | .productMeterEdge _ _ _ | .additivePulse _ | .meteringIntervalEnd _ _ _
  | .shotTimerExpiry _ | .restTimerExpiry _ | .closingTimerExpiry _ | .noFlowTimerExpiry _
  | .pauseTimerExpiry _ | .pinTimerExpiry _ | .inactivityTimerExpiry _ | .deadmanTimerExpiry _ | .handOver _
  | .nvWriteComplete | .checkpointWriteComplete | .checkpointAreaCleared | .powerFailWarningAssert _
  | .powerFailWarningDeassert | .rackClockTick | .resetAsserted | .externalReset _ | .powerOnReset _
  | .restorationComplete | .mainPowerLoss | .backupSupplyRanFlat => none

/-- The requests that change setting-class records and judge BUSY before anything else they do (R163, R165). A PIN may change more. -/
def Instr.needsSetting : Instr → Bool
  | .writeDriver _ | .deleteDriver _ | .resetPin _ | .writeRecipe _ | .setBayService _ | .setStock _
  | .writeProduct _ | .writeArm _ | .writeInjector _ | .writePump _ | .writeRack _ => true
  | .identify _ | .readStatus _ | .readBay _ | .readArm _ | .readClock _ | .unknownRequest _ | .card _
  | .pin _ | .selectOrder _ | .markFirst _ | .markLast _ | .exclude _ | .commitPlan _ | .newPlan _ | .start _
  | .stop _ | .resume _ | .ackCause _ | .finish _ | .signOff _ | .readDriver _ | .writeOrder _
  | .deleteOrder _ | .readOrder _ | .cancelOrder _ | .officeStop _ | .officeRelease _
  | .readStock _ | .readNote _ | .releaseNote _ | .setClock _ | .readAudit _ | .characterReceived _ _ _
  | .gapTimeout _ | .responseSent _ | .discreteLineChange _ _ | .debounceExpiry _ | .stuckTimerExpiry _
  | .productMeterEdge _ _ _ | .additivePulse _ | .meteringIntervalEnd _ _ _ | .shotTimerExpiry _
  | .restTimerExpiry _ | .closingTimerExpiry _ | .noFlowTimerExpiry _ | .pauseTimerExpiry _
  | .pinTimerExpiry _ | .inactivityTimerExpiry _ | .deadmanTimerExpiry _ | .handOver _ | .nvWriteComplete
  | .checkpointWriteComplete | .checkpointAreaCleared | .powerFailWarningAssert _ | .powerFailWarningDeassert
  | .rackClockTick | .resetAsserted | .externalReset _ | .powerOnReset _ | .restorationComplete
  | .mainPowerLoss | .backupSupplyRanFlat => false

/-- The two resets: the events that take state from retained memory and the store. -/
def Instr.isReset : Instr → Bool
  | .externalReset _ | .powerOnReset _ => true
  | .identify _ | .readStatus _ | .readBay _ | .readArm _ | .readClock _ | .unknownRequest _ | .card _
  | .pin _ | .selectOrder _ | .markFirst _ | .markLast _ | .exclude _ | .commitPlan _ | .newPlan _ | .start _
  | .stop _ | .resume _ | .ackCause _ | .finish _ | .signOff _ | .writeDriver _ | .deleteDriver _
  | .resetPin _ | .readDriver _ | .writeOrder _ | .deleteOrder _ | .readOrder _ | .cancelOrder _
  | .writeRecipe _ | .setBayService _ | .officeStop _ | .officeRelease _ | .setStock _ | .readStock _
  | .readNote _ | .releaseNote _ | .setClock _ | .writeProduct _ | .writeArm _ | .writeInjector _
  | .writePump _ | .writeRack _ | .readAudit _ | .characterReceived _ _ _ | .gapTimeout _ | .responseSent _
  | .discreteLineChange _ _ | .debounceExpiry _ | .stuckTimerExpiry _ | .productMeterEdge _ _ _
  | .additivePulse _ | .meteringIntervalEnd _ _ _ | .shotTimerExpiry _ | .restTimerExpiry _
  | .closingTimerExpiry _ | .noFlowTimerExpiry _ | .pauseTimerExpiry _ | .pinTimerExpiry _
  | .inactivityTimerExpiry _ | .deadmanTimerExpiry _ | .handOver _ | .nvWriteComplete
  | .checkpointWriteComplete | .checkpointAreaCleared | .powerFailWarningAssert _ | .powerFailWarningDeassert
  | .rackClockTick | .resetAsserted | .restorationComplete | .mainPowerLoss | .backupSupplyRanFlat => false

end Sys2Proof

namespace Sys2Proof.Machine

/-! ### A request and its answer (R3 to R5, R11, R12) -/

/-- Link `l` of an answering part holds the pending request `r`, of code `code`, whose payload has the form `form` and
carries `x` (R3, R4, R14, R161). -/
def State.asks {α : Type} (s : State) (l : Link) (r : Request) (code : Byte) (form : Walk α) (x : α) : Prop :=
  s.condition = .running ∧ s.ic.warning = false ∧ (s.lc.links.get l).slot = .pending r ∧ r.code = code
    ∧ walkPayload form r.payload = some x

/-- C flags of link `k` after some events: each event sets its flag where it concerns the link's role (R12). -/
def State.marked (s : State) (events : List FlagEvent) (k : Link) (flags : CFlags) : CFlags :=
  events.foldl (fun f e => if e.concerns k (s.lc.links.get k).role then f.raise e.flag else f) flags

/-- The C flags of link `k` after some events (R12). -/
def State.flagsAfter (s : State) (events : List FlagEvent) (k : Link) : CFlags :=
  s.marked events k (s.lc.links.get k).flags

/-- The C flags raised on link `k` since the last capture, after some events (R5, R12). -/
def State.raisedAfter (s : State) (events : List FlagEvent) (k : Link) : CFlags :=
  s.marked events k (s.lc.links.get k).raised

/-- The Link Controller of `t` is that of `s`, but that the events have set their flags on every link they concern (R12). -/
def State.flagged (s t : State) (events : List FlagEvent) : Prop :=
  t.lc.clock = s.lc.clock ∧ t.lc.baudStrap = s.lc.baudStrap
    ∧ ∀ k, t.lc.links.get k =
      { s.lc.links.get k with flags := s.flagsAfter events k, raised := s.raisedAfter events k }

/-- The Link Controller of `t` is that of `s`, but that link `l` holds the response to `r` with the status word captured in
`t` after the events, PLAN_RESET of `l` reads `planReset`, and the events have set their flags on every link they concern
(R5, R11, R12). -/
def State.answered (s t : State) (l : Link) (r : Request) (result : ResultCode) (payload : List Byte) (planReset : Bool)
    (events : List FlagEvent) : Prop :=
  t.lc.clock = s.lc.clock ∧ t.lc.baudStrap = s.lc.baudStrap
    ∧ ∀ k, t.lc.links.get k =
      { s.lc.links.get k with
        slot :=
          if k = l then
            .responding { tag := r.tag, code := r.code, result := result, status := t.statusWord l, payload := payload }
          else (s.lc.links.get k).slot
        planReset := if k = l then planReset else (s.lc.links.get k).planReset
        flags := s.flagsAfter events k
        raised := if k = l then .clear else s.raisedAfter events k }

/-- The PLAN_RESET of a link (R11). -/
def State.planReset (s : State) (l : Link) : Bool := (s.lc.links.get l).planReset

/-- As `State.asks`, on a link whose latched role is `role` (R7, R8). -/
def State.asksAs {α : Type} (s : State) (role : Role) (l : Link) (r : Request) (code : Byte) (form : Walk α) (x : α) : Prop :=
  s.asks l r code form x ∧ (s.lc.links.get l).role = role

/-- The outcome `o` of a request taken in `s`: a next state with the answer of `State.answered`, which outside the Link
Controller is exactly `u`. -/
def State.answers (s : State) (o : Host.Outcome State Fault Refusal) (l : Link) (r : Request) (result : ResultCode)
    (payload : List Byte) (planReset : Bool) (events : List FlagEvent) (u : State) : Prop :=
  ∃ t, o = .next t ∧ s.answered t l r result payload planReset events ∧ t = { u with lc := t.lc }

/-- The outcome `o` of an event in `s`: a next state with the flags of `State.flagged`, which outside the Link Controller is
exactly `u`. -/
def State.becomes (s : State) (o : Host.Outcome State Fault Refusal) (events : List FlagEvent) (u : State) : Prop :=
  ∃ t, o = .next t ∧ s.flagged t events ∧ t = { u with lc := t.lc }

/-- A request of link `l` answered without any change: the result, no payload but what is named, PLAN_RESET as named (R9, R11). -/
def State.replies (s : State) (o : Host.Outcome State Fault Refusal) (l : Link) (r : Request) (result : ResultCode)
    (payload : List Byte) (planReset : Bool) : Prop :=
  s.answers o l r result payload planReset [] s

/-- Bay `b`'s inactivity timer as a Bay request answered OK leaves it, the bay being in `status` (R87). -/
def State.inactivityAfter (s : State) (b : Bay) (status : BayStatus) : Timer :=
  if status.signedIn && s.armsIdle b then some Config.inactivityTime else none

/-- The bays as arm `a` enters a flowing state: its bay's dead-man timer started in QUIET, where the other arm does not flow
(R90). -/
def State.deadmanStarted (s : State) (a : Arm) : PerBay BayController :=
  if (s.fc.get a.other).state.flowing then s.bsc
  else
    s.bsc.set a.bay
      { s.bsc.get a.bay with
        deadmanTimer := some (s.wc.rack.deadmanInterval * 1000), stage := .quiet, leftInWarning := [] }

/-- The bays as arm `a` leaves the flowing states: the leaving noted where it was in WARNING, and the bay's dead-man timer stopped in
QUIET, where the other arm does not flow (R90, R91). -/
def State.deadmanLeft (s : State) (a : Arm) : PerBay BayController :=
  let x := s.bsc.get a.bay
  let left := if x.stage = .warning ∧ a ∉ x.leftInWarning then x.leftInWarning ++ [a] else x.leftInWarning
  s.bsc.set a.bay
    (if (s.fc.get a.other).state.flowing then { x with leftInWarning := left }
    else { x with leftInWarning := left, deadmanTimer := none, stage := .quiet })

/-- Commands carried out in turn. -/
def execAll : List Instr → State → Host.Outcome State Fault Refusal
  | [], s => .next s
  | c :: rest, s =>
    match exec c s with
    | .next t => execAll rest t
    | .fault e => .fault e
    | .refused e => .refused e

/-- HAND_OVER comes in `u`, in arm order, for each arm whose hand-over was not free in `s`: what an event that leads from `s` to
`u` frees (R160, R166). -/
def State.freed (s u : State) : Host.Outcome State Fault Refusal :=
  execAll (([Arm.arm0, .arm1, .arm2, .arm3].filter fun a => !s.handOverReady a).map Instr.handOver) u

/-- A bay's controller as a session close leaves it, in `dest` (R86). -/
def BayController.closed (x : BayController) (dest : BayStatus) : BayController :=
  { x with
    status := dest, closePending := false, driver := none, order := none
    selection := { first := none, last := none, excluded := [] }, plan := [], pinTimer := none, inactivityTimer := none }

/-- An order as its session's close leaves it: held by no bay, COMPLETE where every compartment is LOADED and OPEN otherwise
(R68). -/
def Order.letGo (o : Order) : Order :=
  { o with
    holding := none, cancelPending := false
    state := if ∀ c ∈ o.compartments, c.status = .loaded then .complete else .opened }

/-! ### Laws of a well-formed state -/

/-- The law of the valves: outside the flowing states the command is CLOSE; a flowing arm, like an IDLE one, has an empty
Stop-Cause Set; and an arm flows only while its loading permissive condition holds (R111, R112). -/
def State.flowLaw (s : State) : Prop :=
  ∀ a, (s.armFlowing a = false → (s.fc.get a).command = .close)
    ∧ ((s.armFlowing a = true ∨ s.armIdle a = true) → (s.fc.get a).causes = [])
    ∧ (s.armFlowing a = true → s.loadingPermissive a = true)

/-- The law of the dead-man timer: it runs exactly while an arm of the bay flows, the stage is WARNING only then, and the alarm
is set exactly while an arm of the bay holds DEADMAN (R90 to R92). -/
def State.deadmanLaw (s : State) : Prop :=
  ∀ b, ((s.bsc.get b).deadmanTimer.isSome = s.bayFlowing b)
    ∧ ((s.bsc.get b).stage = .warning → s.bayFlowing b = true)
    ∧ ((s.bsc.get b).alarm = b.arms.any fun a => (s.fc.get a).causes.contains .deadman)

/-- The law of the sessions: an arm that is not IDLE belongs to a LOADING bay whose inactivity timer is stopped, and loads on
the order that bay holds; only a bay in PLANNING or LOADING holds an order; and an order held by a bay is the one that bay's
controller holds (R74, R81, R82, R86, R87, R112). -/
def State.sessionLaw (s : State) : Prop :=
  (∀ a, s.armIdle a = false →
    (s.bsc.get a.bay).status = .loading ∧ (s.bsc.get a.bay).inactivityTimer = none
      ∧ ∃ n r, (s.bsc.get a.bay).order = some n ∧ s.running.get a = some r ∧ r.flow.order = n)
    ∧ (∀ b, (s.bsc.get b).status ≠ .planning → (s.bsc.get b).status ≠ .loading → (s.bsc.get b).order = none)
    ∧ ∀ n o b, s.ob.orders.find n = some o → o.holding = some b → (s.bsc.get b).order = some n

/-- The law of the totalizers: a running compartment record stands exactly while the arm is not IDLE, and its opening
totalizers with its running quantities are the totalizers, modulo 10^12 (R94, R107 to R109). -/
def State.totalsLaw (s : State) : Prop :=
  ∀ a, ((s.running.get a).isNone = s.armIdle a)
    ∧ ∀ r, s.running.get a = some r →
        (r.metering.openGross + r.metering.gross) % Config.totalizerModulus = (s.me.get a).gross % Config.totalizerModulus
          ∧ (r.metering.openNet + r.metering.net) % Config.totalizerModulus = (s.me.get a).net % Config.totalizerModulus

/-- The keyed tables of a set of records are in their canonical form: no two records with one key (R37, R55, R58). -/
def NvRecords.tablesLaw (r : NvRecords) : Prop :=
  r.drivers.wf = true ∧ r.products.wf = true ∧ r.recipes.wf = true

/-- Every keyed table is in its canonical form: no two records with one key (R37, R55, R58, R61). -/
def State.tablesLaw (s : State) : Prop :=
  s.wc.tablesLaw ∧ s.nvc.store.tablesLaw ∧ s.ob.orders.wf = true ∧ s.pt.bound.wf = true

/-- The two sides of the binding agree: driver d has bound bay b exactly while b's controller has bound driver d, and a bay
that is LOCKED or OUT_OF_SERVICE has none (R37, R74). -/
def State.bindingLaw (s : State) : Prop :=
  (∀ d b, s.boundBay d = some b ↔ (s.bsc.get b).driver = some d)
    ∧ ∀ b, ((s.bsc.get b).status = .locked ∨ (s.bsc.get b).status = .outOfService) → (s.bsc.get b).driver = none

/-- The law of the NV Write Queue: no two entries for one key, and at most one release entry (R164, R167). -/
def NvController.queueLaw (n : NvController) : Prop :=
  (n.queue.map fun e => e.contents.key).Nodup ∧ (n.queue.filter fun e => e.contents.isRelease).length ≤ 1

/-- The entries the NV Write Queue holds, with those that may join before the next sign-in or setting request: a totals entry and a
note of each arm, a stock entry and a release, where none is queued, and a recovery note of each arm that has a running record or
whose bay is signed in (R164 to R167). -/
def State.queueLoad (s : State) : Nat :=
  let queued : NvKey → Bool := fun k => s.nvc.queue.any fun e => e.contents.key = k
  s.nvc.queue.length + (Arm.all.filter fun a => !queued (.totals a)).length + (if queued .stock then 0 else 1)
    + (if s.nvc.queue.any fun e => e.contents.isRelease then 0 else 1)
    + (Arm.all.filter fun a => !s.noteQueued a).length
    + (Arm.all.filter fun a => (s.running.get a).isSome || (s.bsc.get a.bay).status.signedIn).length

/-- The law of the note slots: notes and reservations together are at most 64, and an arm that is not IDLE holds its
reservation (R149). -/
def State.notesLaw (s : State) : Prop :=
  s.notesHeld + s.reservations ≤ Config.maxNotes ∧ ∀ a, s.armIdle a = false → s.ns.reserved.get a = true

/-- The numbers of the notes in the store, in the write buffer and in the queue (R163, R164). -/
def NvController.noteNumbers (n : NvController) : List Nat :=
  n.store.notes.map NoteRecord.number ++ (n.buffer.toList ++ n.queue).filterMap fun e =>
    match e.contents with
    | .note r _ => some r.number
    | _ => none

/-- Neither number `k` nor any of the three that follow it (R153) stands in the store, the write buffer or the queue, as a note's or
as a release's: no note one step can make repeats such a number. -/
def NvController.numbersFree (n : NvController) (k : Nat) : Prop :=
  ∀ i < 4, (∀ r ∈ n.store.notes, r.number ≠ noteNumberAfter^[i] k)
    ∧ ∀ e ∈ n.buffer.toList ++ n.queue, e.contents.key ≠ .note (noteNumberAfter^[i] k)

/-- The law of the working copies: each is what a reset rebuilds from the store, the write buffer and the queue, but for the live
stock table and the next note number, and no note number stands twice among these (R143, R153, R163). -/
def State.copiesLaw (s : State) : Prop :=
  s.wc = { s.nvc.rebuilt with stock := s.wc.stock, nextNote := s.wc.nextNote } ∧ s.nvc.noteNumbers.Nodup

/-- The law of the attempt limit: every driver record is in step with it (R39). -/
def State.attemptLaw (s : State) : Prop :=
  1 ≤ s.wc.rack.attemptLimit ∧ ∀ e ∈ s.wc.drivers, e.2.inStep s.wc.rack.attemptLimit = true

/-! ### The sealed parameters (R169) -/

/-- The sealed parameters of an arm record (R169). -/
structure SealedPart where
  kMilli : Option Nat
  mode : PulseMode
  fidelity : Nat
  mf : MfTable
  offset : Int
  span : Nat
deriving DecidableEq, Repr

/-- The sealed parameters of an arm record (R169). -/
def ArmRecord.sealedPart (r : ArmRecord) : SealedPart :=
  { kMilli := r.kMilli, mode := r.mode, fidelity := r.fidelity, mf := r.mf, offset := r.offset, span := r.span }

/-- Two states hold the same sealed parameters, the same counter and the same Audit List (R169 to R171). -/
def State.sameSealed (s t : State) : Prop :=
  (∀ a, (t.wc.arms.get a).sealedPart = (s.wc.arms.get a).sealedPart)
    ∧ (∀ code, (t.wc.products.find code).map ProductRecord.alpha = (s.wc.products.find code).map ProductRecord.alpha)
    ∧ t.wc.audit = s.wc.audit

end Sys2Proof.Machine
end

