-- ==== Sys2Proof/Certificates/Slice0/Obligations.lean ====
section
/-! DEFINITION. The statements about the LD-42 for the provers. In each, `s.answers o l r result payload planReset events u`
says that the outcome `o` is a next state in which link `l` holds the response to `r`, the named events have set their flags,
and everything outside the Link Controller is exactly `u`; `s.becomes o events u` says the same of an event, with no
response (Safety.lean). -/

open Sys2Proof Sys2Proof.Machine

/-! ### The queue of commands, and all commands -/

/-- One step carries out the command at the front of the queue on the state with the queue's rest. That it idles on an empty
queue is the model's choice (log 3). -/
def Obligations.StepTakesTheFrontCommand : Prop :=
  (∀ (c : Instr) (rest : List Instr) (s : State), step { s with pending := c :: rest } = exec c { s with pending := rest })
    ∧ ∀ s : State, s.pending = [] → step s = .next s

/-- Each command is one whole step: from every state it answers a next state, and the waiting commands stay as they were.
That a command that cannot happen in a state answers that state is the model's (log 2). -/
def Obligations.EveryCommandAnswersNext : Prop :=
  ∀ (c : Instr) (s : State), ∃ t, exec c s = .next t ∧ t.pending = s.pending

/-! ### What the Link Controller does with a request (R3, R4, R14, R161) -/

/-- A request row changes nothing where the part does not answer, or where the link holds no request of its code: the model's
choice for a command that cannot happen (log 1). The same of UNKNOWN_REQUEST where the code is known. -/
def Obligations.RequestWithoutItsFrameChangesNothing : Prop :=
  (∀ (c : Instr) (l : Link) (code : Byte) (cls : RequestClass) (s : State), c.request = some (l, code, cls) →
    ¬(s.condition = .running ∧ s.ic.warning = false ∧ ∃ r, (s.lc.links.get l).slot = .pending r ∧ r.code = code) →
    exec c s = .next s)
  ∧ ∀ (l : Link) (s : State),
    ¬(s.condition = .running ∧ s.ic.warning = false ∧ ∃ r, (s.lc.links.get l).slot = .pending r ∧ knownCode r.code = false) →
    exec (.unknownRequest l) s = .next s

/-- The Link Controller's own refusals, each of which changes nothing else. A code outside the four ranges of R174 is
UNKNOWN_REQUEST, whatever the link's role. A request of a class that the link's role may not issue is ROLE: Bay requests belong
to bay panels, Office requests to OFFICE links, Service requests to SERVICE links. A request from a role that may issue it,
whose form fixes its payload's length, is FORMAT at any other length (R4, R8, R9, R174 to R176). -/
def Obligations.LinkControllerRefusals : Prop :=
  (∀ (l : Link) (r : Request) (s : State), s.condition = .running → s.ic.warning = false →
     (s.lc.links.get l).slot = .pending r →
     (r.code.toNat = 0x00 ∨ (0x05 < r.code.toNat ∧ r.code.toNat < 0x20) ∨ (0x2D < r.code.toNat ∧ r.code.toNat < 0x40)
       ∨ (0x50 < r.code.toNat ∧ r.code.toNat < 0x60) ∨ 0x65 < r.code.toNat) →
     s.replies (exec (.unknownRequest l) s) l r .unknownRequest [] (s.planReset l))
  ∧ (∀ (c : Instr) (l : Link) (code : Byte) (cls : RequestClass) (r : Request) (s : State),
     c.request = some (l, code, cls) → s.condition = .running → s.ic.warning = false →
     (s.lc.links.get l).slot = .pending r → r.code = code →
     ((cls = .bay ∧ ∀ b, (s.lc.links.get l).role ≠ .panel b) ∨ (cls = .office ∧ (s.lc.links.get l).role ≠ .office)
       ∨ (cls = .service ∧ (s.lc.links.get l).role ≠ .service)) →
     s.replies (exec c s) l r .role [] (s.planReset l))
  ∧ (∀ (c : Instr) (l : Link) (code : Byte) (cls : RequestClass) (r : Request) (n : Nat) (s : State),
     c.request = some (l, code, cls) → c.fixedLength = some n → s.condition = .running → s.ic.warning = false →
     (s.lc.links.get l).slot = .pending r → r.code = code → cls.mayIssue (s.lc.links.get l).role = true →
     r.payload.length ≠ n →
     s.replies (exec c s) l r .format [] (s.planReset l))

/-! ### The Basic requests (R15, R16, R18) -/

/-- The Basic requests return what R15, R16 and R18 list, from every role, and change nothing else. READ_BAY is refused RANGE for
a bay other than 0 and 1, READ_ARM for an arm above 3; an arm's order, compartment and quantities stand only while a compartment
is active. How absent parts, flags and latched roles are written is the model's (logs 14, 15), and so is that an arm's temperature and
unauthorized flow are those of the last interval end (log 13). -/
def Obligations.BasicRequestsRead : Prop :=
  (∀ (l : Link) (r : Request) (s : State),
     (s.asks l r 0x01#8 formEmpty () →
       s.replies (exec (.identify l) s) l r .ok
         (natBytes 2 0x2D17 ++ natBytes 1 42 ++ natBytes 1 65
           ++ (natBytes 1 s.lc.links.sl0.strap ++ natBytes 1 s.lc.links.sl1.strap ++ natBytes 1 s.lc.links.sl2.strap
             ++ natBytes 1 s.lc.links.sl3.strap)
           ++ (natBytes 1 s.lc.links.sl0.role.code ++ natBytes 1 s.lc.links.sl1.role.code
             ++ natBytes 1 s.lc.links.sl2.role.code ++ natBytes 1 s.lc.links.sl3.role.code)
           ++ natBytes 1 s.lc.baudStrap ++ natBytes 1 (if s.lc.clock.isSet then 1 else 0)) (s.planReset l))
     ∧ (s.asks l r 0x02#8 formEmpty () →
       s.replies (exec (.readStatus l) s) l r .ok (natBytes 1 l.toNat ++ natBytes 1 (s.lc.links.get l).role.code)
         (s.planReset l))
     ∧ (s.asks l r 0x05#8 formEmpty () →
       s.replies (exec (.readClock l) s) l r .ok
         (natBytes 4 s.lc.clock.count ++ natBytes 1 (if s.lc.clock.isSet then 1 else 0)) (s.planReset l)))
  ∧ (∀ (l : Link) (r : Request) (n : Nat) (s : State),
     (∀ b, s.asks l r 0x03#8 formByte n → Bay.ofNat? n = some b →
       s.replies (exec (.readBay l) s) l r .ok
         (natBytes 1 (s.bsc.get b).status.code ++ flagByte (s.wc.outOfService.get b)
           ++ optionalBytes (natBytes 4) (s.bsc.get b).driver ++ optionalBytes (natBytes 4) (s.bsc.get b).order
           ++ listBytes (natBytes 1) (s.bsc.get b).plan ++ optionalBytes (natBytes 1) (s.bsc.get b).selection.first
           ++ optionalBytes (natBytes 1) (s.bsc.get b).selection.last
           ++ listBytes (natBytes 1) (s.bsc.get b).selection.excluded
           ++ flagByte (decide ((s.bsc.get b).stage = .warning)) ++ flagByte (s.bsc.get b).horn) (s.planReset l))
     ∧ (s.asks l r 0x03#8 formByte n → 1 < n → s.replies (exec (.readBay l) s) l r .range [] (s.planReset l))
     ∧ (∀ a, s.asks l r 0x04#8 formByte n → Arm.ofNat? n = some a →
       s.replies (exec (.readArm l) s) l r .ok
         (natBytes 1 (s.fc.get a).state.code ++ listBytes (fun c => natBytes 1 c.priority) (s.fc.get a).causes
           ++ flagByte (s.wc.arms.get a).kMilli.isSome ++ natBytes 1 (s.wc.arms.get a).product
           ++ (match (if s.armIdle a then none else s.running.get a) with
               | none => natBytes 1 0 ++ natBytes 1 0 ++ natBytes 1 0 ++ natBytes 1 0 ++ natBytes 1 0
               | some y =>
                 natBytes 1 1 ++ natBytes 4 y.flow.order ++ natBytes 1 1 ++ natBytes 1 y.flow.compartment
                   ++ natBytes 1 1 ++ natBytes 4 y.flow.preset ++ natBytes 1 1 ++ natBytes 8 y.metering.gross
                   ++ natBytes 1 1 ++ natBytes 8 y.metering.net)
           ++ natBytes 2 (s.me.get a).rate ++ optionalBytes intBytes (s.me.get a).shownTemperature
           ++ natBytes 8 (s.me.get a).gross ++ natBytes 8 (s.me.get a).net ++ natBytes 8 (s.me.get a).shownUnauthorized)
         (s.planReset l))
     ∧ (s.asks l r 0x04#8 formByte n → 3 < n → s.replies (exec (.readArm l) s) l r .range [] (s.planReset l)))

/-! ### The status word and the outputs (R10 to R13, R35, R112, R134, R138, R177) -/

/-- The status word of a link shows, bit by bit, the bay states, the notes waiting, NV_BUSY, the seal, the clock-set flag and
RETAINED_LOST from their owners, and the link's PLAN_RESET and nine C flags, with bits 4 to 0 clear. Held in reset, and without power
(log 23), every output is de-energized; otherwise the solenoids follow the valve command, an injector its shot, a pump its status, a horn
the stage and the alarm, and an attention line the C flags of its link (R10, R11, R13, R35, R74, R112, R134, R138, R177). -/
def Obligations.StatusWordAndOutputs : Prop :=
  (∀ (l : Link) (s : State),
     let w := s.statusWord l
     let k := s.lc.links.get l
     (w.extractLsb' 29 3).toNat = s.bsc.bayA.status.code ∧ (w.extractLsb' 26 3).toNat = s.bsc.bayB.status.code
     ∧ (s.wc.notes.length ≤ 64 → (w.extractLsb' 19 7).toNat = s.wc.notes.length)
     ∧ w.getLsbD 18 = decide (8 ≤ s.nvc.queue.length) ∧ w.getLsbD 17 = s.accepts .sealSwitch
     ∧ w.getLsbD 16 = s.lc.clock.isSet ∧ w.getLsbD 15 = s.nvc.retainedLost ∧ w.getLsbD 14 = k.planReset
     ∧ w.getLsbD 13 = k.flags.noteAdded ∧ w.getLsbD 12 = k.flags.causeRaised ∧ w.getLsbD 11 = k.flags.bayChanged
     ∧ w.getLsbD 10 = k.flags.stockLow ∧ w.getLsbD 9 = k.flags.inputChanged ∧ w.getLsbD 8 = k.flags.unauthorizedFlow
     ∧ w.getLsbD 7 = k.flags.linkError ∧ w.getLsbD 6 = k.flags.linkOverrun ∧ w.getLsbD 5 = k.flags.roleConflict
     ∧ ∀ i < 5, w.getLsbD i = false)
  ∧ ∀ (a : Arm) (c : Channel) (p : Additive) (b : Bay) (l : Link) (s : State),
     let f := (s.lc.links.get l).flags
     ((s.condition = .heldInReset ∨ s.condition = .unpowered) →
       s.upstreamSolenoid a = false ∧ s.downstreamSolenoid a = false ∧ s.injectorSolenoid c = false ∧ s.pumpRun p = false
         ∧ s.hornOutput b = false ∧ s.attention l = false)
     ∧ ((s.condition = .running ∨ s.condition = .restoring) →
       (s.upstreamSolenoid a = true ↔ (s.fc.get a).command = .openValve)
         ∧ (s.downstreamSolenoid a = true ↔ ((s.fc.get a).command = .openValve ∨ (s.fc.get a).command = .hold))
         ∧ (s.injectorSolenoid c = true ↔ (s.adu.channels.get c).place = .inShot)
         ∧ (s.pumpRun p = true ↔ ∃ d, (s.adu.pumps.get p).status = .shot d)
         ∧ (s.hornOutput b = true ↔ ((s.bsc.get b).stage = .warning ∨ (s.bsc.get b).alarm = true))
         ∧ (s.attention l = true ↔ (f.noteAdded = true ∨ f.causeRaised = true ∨ f.bayChanged = true ∨ f.stockLow = true
             ∨ f.inputChanged = true ∨ f.unauthorizedFlow = true ∨ f.linkError = true ∨ f.linkOverrun = true
             ∨ f.roleConflict = true)))

/-! ### Signing in (R45 to R50, R75, R78) -/

/-- A CARD in LOCKED that passes every check of R45 binds the driver: IDENT, BAY_CHANGED, the PIN timer started for 30 s, and the
attempts left in the response. One that fails a check changes nothing, and its result is that of the first check that fails:
RANGE, NOT_FOUND, BLOCKED, EXPIRED, DRIVER_BUSY (R45 to R47). That no attempt is left to an ACTIVE driver whose count stands at the
limit or above it is the model's (log 30). -/
def Obligations.CardBindsOrIsRefused : Prop :=
  (∀ (l : Link) (b : Bay) (r : Request) (n : Nat) (d : DriverRecord) (s : State),
     s.asksAs (.panel b) l r 0x20#8 formLong n → (s.bsc.get b).status = .locked → 1 ≤ n → n ≤ 99999999 →
     s.wc.drivers.find n = some d → d.status = .active →
     (∀ day, d.expiry = some day → s.lc.clock.isSet = true → s.lc.clock.count / 86400 ≤ day) → s.boundBay n = none →
     s.answers (exec (.card l) s) l r .ok (natBytes 1 (s.wc.rack.attemptLimit - d.failed)) false [.bayChanged b]
       { s with
         pt := { bound := s.pt.bound.put n b }
         bsc := s.bsc.set b
           { s.bsc.get b with status := .ident, driver := some n, pinTimer := some 30000, inactivityTimer := none } })
  ∧ (∀ (l : Link) (b : Bay) (r : Request) (n : Nat) (s : State),
     s.asksAs (.panel b) l r 0x20#8 formLong n → (s.bsc.get b).status = .locked →
     ((n < 1 ∨ 99999999 < n) → s.replies (exec (.card l) s) l r .range [] false)
     ∧ (1 ≤ n ∧ n ≤ 99999999 →
         (s.wc.drivers.find n = none → s.replies (exec (.card l) s) l r .notFound [] false)
         ∧ ∀ d, s.wc.drivers.find n = some d →
           (d.status = .blocked → s.replies (exec (.card l) s) l r .blocked [] false)
           ∧ (d.status = .active →
               (∀ day, d.expiry = some day → s.lc.clock.isSet = true → day < s.lc.clock.count / 86400 →
                 s.replies (exec (.card l) s) l r .expired [] false)
               ∧ ((∀ day, d.expiry = some day → s.lc.clock.isSet = true → s.lc.clock.count / 86400 ≤ day) →
                   s.boundBay n ≠ none → s.replies (exec (.card l) s) l r .driverBusy [] false))))

/-- A Bay request in a bay state that does not admit it is refused STATE. In PLANNING one of those that R78 names resets the
selection and sets PLAN_RESET; nothing else changes (R75, R78). -/
def Obligations.BayRequestOutOfStateIsRefused : Prop :=
  ∀ (c : Instr) (l : Link) (b : Bay) (code : Byte) (n : Nat) (r : Request) (s : State),
    c.request = some (l, code, .bay) → c.fixedLength = some n → s.condition = .running → s.ic.warning = false →
    (s.lc.links.get l).slot = .pending r → r.code = code → r.payload.length = n → (s.lc.links.get l).role = .panel b →
    (((c = .card l ∧ (s.bsc.get b).status ≠ .locked) ∨ (c = .pin l ∧ (s.bsc.get b).status ≠ .ident)
        ∨ (c ∈ [Instr.newPlan l, .start l, .stop l, .resume l, .ackCause l, .finish l] ∧ (s.bsc.get b).status ≠ .loading)) →
      s.answers (exec c s) l r .state [] (decide ((s.bsc.get b).status = .planning)) []
        (if (s.bsc.get b).status = .planning then
          { s with bsc := s.bsc.set b { s.bsc.get b with selection := { first := none, last := none, excluded := [] } } }
        else s))
    ∧ (((c = .selectOrder l ∧ (s.bsc.get b).status ≠ .signed)
        ∨ c ∈ [Instr.markFirst l, .markLast l, .exclude l, .commitPlan l]) →
      (s.bsc.get b).status ≠ .planning → s.replies (exec c s) l r .state [] false)

/-- A matching PIN moves the bay from IDENT to SIGNED with BAY_CHANGED, stops the PIN timer, returns the failed-attempt count to
0 with an NV entry only where it was above 0, and answers the classes and the expiry day. A PIN that does not match adds 1 to the
count: below the limit PIN_FAILED with the attempts left and the timer restarted, at the limit BLOCKED, with the driver blocked
and unbound and the bay LOCKED; that a count above the limit blocks too is the model's (log 30). A PIN out of range is refused RANGE,
one for a driver written BLOCKED since the CARD is refused BLOCKED with the driver unbound and the bay LOCKED, and one that finds
the store busy BUSY, without comparing (R48 to R50). -/
def Obligations.PinSignsInOrCounts : Prop :=
  (∀ (l : Link) (b : Bay) (r : Request) (p : PinField) (n : Nat) (d : DriverRecord) (s : State),
     s.asksAs (.panel b) l r 0x21#8 takePin p → (s.bsc.get b).status = .ident → 1 ≤ p.count → p.count ≤ 8 →
     (∀ x ∈ p.digits.take p.count, x ≤ 9) → (s.bsc.get b).driver = some n → s.wc.drivers.find n = some d →
     d.status = .active → s.nvc.queue.length < 8 → p.count = d.pin.length → p.digits.take p.count = d.pin →
     s.answers (exec (.pin l) s) l r .ok (listBytes (natBytes 1) d.classes ++ optionalBytes (natBytes 2) d.expiry) false
       [.bayChanged b]
       { (if d.failed = 0 then s else s.commit (.driver n (some { d with failed := 0 })) .setting) with
         bsc := s.bsc.set b
           { s.bsc.get b with
             status := .signed, pinTimer := none
             inactivityTimer := if s.armsIdle b then some 300000 else none } })
  ∧ (∀ (l : Link) (b : Bay) (r : Request) (p : PinField) (n : Nat) (d : DriverRecord) (s : State),
     s.asksAs (.panel b) l r 0x21#8 takePin p → (s.bsc.get b).status = .ident → 1 ≤ p.count → p.count ≤ 8 →
     (∀ x ∈ p.digits.take p.count, x ≤ 9) → (s.bsc.get b).driver = some n → s.wc.drivers.find n = some d →
     d.status = .active → s.nvc.queue.length < 8 → (p.count ≠ d.pin.length ∨ p.digits.take p.count ≠ d.pin) →
     (d.failed + 1 < s.wc.rack.attemptLimit →
       s.answers (exec (.pin l) s) l r .pinFailed (natBytes 1 (s.wc.rack.attemptLimit - (d.failed + 1))) false []
         { s.commit (.driver n (some { d with failed := d.failed + 1 })) .setting with
           bsc := s.bsc.set b { s.bsc.get b with pinTimer := some 30000 } })
     ∧ (s.wc.rack.attemptLimit ≤ d.failed + 1 →
       s.answers (exec (.pin l) s) l r .blocked [] false [.bayChanged b]
         { s.commit (.driver n (some { d with failed := d.failed + 1, status := .blocked })) .setting with
           pt := { bound := s.pt.bound.remove n }
           bsc := s.bsc.set b { s.bsc.get b with status := .locked, driver := none, pinTimer := none } }))
  ∧ ∀ (l : Link) (b : Bay) (r : Request) (p : PinField) (s : State),
     s.asksAs (.panel b) l r 0x21#8 takePin p → (s.bsc.get b).status = .ident →
     ((p.count < 1 ∨ 8 < p.count ∨ ∃ x ∈ p.digits.take p.count, 9 < x) → s.replies (exec (.pin l) s) l r .range [] false)
     ∧ ∀ n d, 1 ≤ p.count → p.count ≤ 8 → (∀ x ∈ p.digits.take p.count, x ≤ 9) → (s.bsc.get b).driver = some n →
       s.wc.drivers.find n = some d →
       (d.status = .blocked →
         s.answers (exec (.pin l) s) l r .blocked [] false [.bayChanged b]
           { s with
             pt := { bound := s.pt.bound.remove n }
             bsc := s.bsc.set b { s.bsc.get b with status := .locked, driver := none, pinTimer := none } })
       ∧ (d.status = .active → 8 ≤ s.nvc.queue.length → s.replies (exec (.pin l) s) l r .busy [] false)

/-! ### Planning (R67, R76 to R82, R86) -/

/-- A SELECT_ORDER of an order that is OPEN, or HELD by this bay, for this driver and bay: in SIGNED the order is HELD by the
bay and the bay goes to PLANNING; in PLANNING the order held before, where it is another, is released, the new one HELD, the
selection reset and PLAN_RESET set (R67, R68, R76, R78). That each compartment is answered with its number is the model's
(log 16). One that fails a check is refused: RANGE for a number out of range, NOT_FOUND, ORDER_BUSY for an order held
elsewhere, STATE for one CANCELLED or COMPLETE, RANGE for another driver's or another bay's (R67). The refusal changes nothing in
SIGNED; in PLANNING it resets the selection and sets PLAN_RESET, the held order kept (R76, R78). -/
def Obligations.OrderIsSelectedOrRefused : Prop :=
  (∀ (l : Link) (b : Bay) (r : Request) (n : Nat) (o : Order) (s : State),
     s.asksAs (.panel b) l r 0x22#8 formLong n → 1 ≤ n → n ≤ 9999999 → s.ob.orders.find n = some o →
     (o.state = .opened ∨ (o.state = .held ∧ o.holding = some b)) →
     (o.driver = none ∨ o.driver = (s.bsc.get b).driver) → (o.bay = none ∨ o.bay = some b) →
     ((s.bsc.get b).status = .signed → ((s.bsc.get b).order = none ∨ (s.bsc.get b).order = some n) →
       s.answers (exec (.selectOrder l) s) l r .ok
         (stringBytes o.vehicle ++ listBytes (fun c : Compartment =>
           natBytes 1 c.number ++ natBytes 1 c.status.code ++ natBytes 2 c.planned
             ++ natBytes 4 (match c.basis with | .gross => c.deliveredGross | .net => c.deliveredNet)) o.compartments)
         false [.bayChanged b]
         { s with
           ob := { orders := s.ob.orders.put n { o with state := .held, holding := some b } }
           bsc := s.bsc.set b
             { s.bsc.get b with
               status := .planning, order := some n, selection := { first := none, last := none, excluded := [] }, plan := []
               inactivityTimer := if s.armsIdle b then some 300000 else none } })
     ∧ ((s.bsc.get b).status = .planning → (s.bsc.get b).order = some n →
       s.answers (exec (.selectOrder l) s) l r .ok
         (stringBytes o.vehicle ++ listBytes (fun c : Compartment =>
           natBytes 1 c.number ++ natBytes 1 c.status.code ++ natBytes 2 c.planned
             ++ natBytes 4 (match c.basis with | .gross => c.deliveredGross | .net => c.deliveredNet)) o.compartments)
         true []
         { s with
           ob := { orders := s.ob.orders.put n { o with state := .held, holding := some b } }
           bsc := s.bsc.set b
             { s.bsc.get b with
               selection := { first := none, last := none, excluded := [] }
               inactivityTimer := if s.armsIdle b then some 300000 else none } })
     ∧ (∀ m o', (s.bsc.get b).status = .planning → (s.bsc.get b).order = some m → m ≠ n → s.ob.orders.find m = some o' →
       s.answers (exec (.selectOrder l) s) l r .ok
         (stringBytes o.vehicle ++ listBytes (fun c : Compartment =>
           natBytes 1 c.number ++ natBytes 1 c.status.code ++ natBytes 2 c.planned
             ++ natBytes 4 (match c.basis with | .gross => c.deliveredGross | .net => c.deliveredNet)) o.compartments)
         true []
         { s with
           ob :=
             { orders := (s.ob.orders.put m
                 { o' with
                   holding := none, cancelPending := false
                   state := if ∀ c ∈ o'.compartments, c.status = .loaded then .complete else .opened }).put n
                 { o with state := .held, holding := some b } }
           bsc := s.bsc.set b
             { s.bsc.get b with
               order := some n, selection := { first := none, last := none, excluded := [] }
               inactivityTimer := if s.armsIdle b then some 300000 else none } }))
  ∧ (∀ (l : Link) (b : Bay) (r : Request) (n : Nat) (s : State), s.asksAs (.panel b) l r 0x22#8 formLong n →
     ((s.bsc.get b).status = .signed ∨ (s.bsc.get b).status = .planning) →
     let refuses : ResultCode → Prop := fun res =>
       ((s.bsc.get b).status = .signed → s.replies (exec (.selectOrder l) s) l r res [] false)
       ∧ ((s.bsc.get b).status = .planning →
         s.answers (exec (.selectOrder l) s) l r res [] true []
           { s with bsc := s.bsc.set b { s.bsc.get b with selection := { first := none, last := none, excluded := [] } } })
     ((n < 1 ∨ 9999999 < n) → refuses .range)
     ∧ (1 ≤ n ∧ n ≤ 9999999 →
         (s.ob.orders.find n = none → refuses .notFound)
         ∧ ∀ o, s.ob.orders.find n = some o →
           (o.state = .held ∧ o.holding ≠ some b → refuses .orderBusy)
           ∧ ((o.state = .cancelled ∨ o.state = .complete) → refuses .state)
           ∧ ((o.state = .opened ∨ (o.state = .held ∧ o.holding = some b)) →
               ((o.driver ≠ none ∧ o.driver ≠ (s.bsc.get b).driver) ∨ (o.bay ≠ none ∧ o.bay ≠ some b)) → refuses .range)))

/-- MARK_FIRST in the empty phase, MARK_LAST in the first marked phase at or above the first mark, and EXCLUDE of a compartment
of the marked range (at most six, a repeat changing nothing) are answered OK and change the selection so. A planning request out
of range is refused RANGE and one out of step SEQUENCE; either resets the selection and sets PLAN_RESET, and changes nothing
else (R77 to R79, R87). -/
def Obligations.SelectionIsMarkedOrReset : Prop :=
  (∀ (l : Link) (b : Bay) (r : Request) (c : Nat) (s : State), (s.bsc.get b).status = .planning → 1 ≤ c → c ≤ 8 →
     (s.asksAs (.panel b) l r 0x23#8 formByte c → (s.bsc.get b).selection.first = none →
       s.answers (exec (.markFirst l) s) l r .ok [] false []
         { s with
           bsc := s.bsc.set b
             { s.bsc.get b with
               selection := { (s.bsc.get b).selection with first := some c }
               inactivityTimer := if s.armsIdle b then some 300000 else none } })
     ∧ (∀ f, s.asksAs (.panel b) l r 0x24#8 formByte c → (s.bsc.get b).selection.first = some f →
       (s.bsc.get b).selection.last = none → f ≤ c →
       s.answers (exec (.markLast l) s) l r .ok [] false []
         { s with
           bsc := s.bsc.set b
             { s.bsc.get b with
               selection := { (s.bsc.get b).selection with last := some c }
               inactivityTimer := if s.armsIdle b then some 300000 else none } })
     ∧ (∀ f t, s.asksAs (.panel b) l r 0x25#8 formByte c → (s.bsc.get b).selection.first = some f →
       (s.bsc.get b).selection.last = some t → f ≤ c → c ≤ t →
       (c ∈ (s.bsc.get b).selection.excluded ∨ (s.bsc.get b).selection.excluded.length < 6) →
       s.answers (exec (.exclude l) s) l r .ok [] false []
         { s with
           bsc := s.bsc.set b
             { s.bsc.get b with
               selection := { (s.bsc.get b).selection with
                 excluded :=
                   if c ∈ (s.bsc.get b).selection.excluded then (s.bsc.get b).selection.excluded
                   else (s.bsc.get b).selection.excluded ++ [c] }
               inactivityTimer := if s.armsIdle b then some 300000 else none } }))
  ∧ (∀ (l : Link) (b : Bay) (r : Request) (c : Nat) (s : State), (s.bsc.get b).status = .planning →
     let sel := (s.bsc.get b).selection
     let resets : Instr → ResultCode → Prop := fun i res =>
       s.answers (exec i s) l r res [] true []
         { s with bsc := s.bsc.set b { s.bsc.get b with selection := { first := none, last := none, excluded := [] } } }
     (s.asksAs (.panel b) l r 0x23#8 formByte c →
       ((c < 1 ∨ 8 < c) → resets (.markFirst l) .range)
       ∧ (1 ≤ c ∧ c ≤ 8 ∧ sel.first ≠ none → resets (.markFirst l) .sequence))
     ∧ (s.asksAs (.panel b) l r 0x24#8 formByte c →
       ((c < 1 ∨ 8 < c) → resets (.markLast l) .range)
       ∧ (1 ≤ c ∧ c ≤ 8 ∧ (sel.first = none ∨ sel.last ≠ none ∨ ∃ f, sel.first = some f ∧ c < f) →
           resets (.markLast l) .sequence))
     ∧ (s.asksAs (.panel b) l r 0x25#8 formByte c →
       ((c < 1 ∨ 8 < c) → resets (.exclude l) .range)
       ∧ (1 ≤ c ∧ c ≤ 8 ∧ (sel.first = none ∨ sel.last = none ∨ (∃ f, sel.first = some f ∧ c < f)
             ∨ (∃ t, sel.last = some t ∧ t < c) ∨ (c ∉ sel.excluded ∧ 6 ≤ sel.excluded.length)) →
           resets (.exclude l) .sequence))
     ∧ (s.asksAs (.panel b) l r 0x26#8 formEmpty () → (sel.first = none ∨ sel.last = none) →
       resets (.commitPlan l) .sequence))

/-- COMMIT_PLAN in the range marked phase: the candidates that are not skipped, in ascending number, become the Plan List, and the
bay goes to LOADING with the selection empty; where none is left it is refused NOTHING_TO_LOAD and the selection is reset. Both
answer how many were skipped: a compartment LOADED, of a class the driver is not permitted, of a product no arm of the bay carries,
or with a recipe that no such arm serves on every line. NEW_PLAN in LOADING with both arms IDLE clears the Plan List and goes back to PLANNING with the
order kept; with an arm not IDLE it is refused STATE and changes nothing (R79, R80, R82). -/
def Obligations.PlansAreCommittedAndCleared : Prop :=
  (∀ (l : Link) (b : Bay) (r : Request) (n f t : Nat) (o : Order) (skips : Compartment → Bool) (s : State),
     (∀ c, skips c = true ↔
       (c.status = .loaded
         ∨ (∀ k d p, (s.bsc.get b).driver = some k → s.wc.drivers.find k = some d → s.wc.products.find c.product = some p →
             p.cls ∉ d.classes)
         ∨ (∀ a : Arm, a.bay = b → (s.wc.arms.get a).product ≠ c.product)
         ∨ ∃ code, c.recipe = some code
           ∧ ∀ x, s.wc.recipes.find code = some x → x.product = c.product → ∀ a : Arm, a.bay = b →
             (s.wc.arms.get a).product = c.product →
             ∃ y ∈ x.lines, ∀ k : Channel, k.arm = a → (s.wc.injectors.get k).additive ≠ some y.additive)) →
     s.asksAs (.panel b) l r 0x26#8 formEmpty () → (s.bsc.get b).status = .planning →
     (s.bsc.get b).selection.first = some f → (s.bsc.get b).selection.last = some t → (s.bsc.get b).order = some n →
     s.ob.orders.find n = some o →
     let candidates := (([1, 2, 3, 4, 5, 6, 7, 8].filterMap fun k => o.compartments.find? fun c => c.number = k).filter
       fun c => f ≤ c.number ∧ c.number ≤ t ∧ c.number ∉ (s.bsc.get b).selection.excluded)
     let plan := (candidates.filter fun c => !skips c).map Compartment.number
     (plan ≠ [] →
       s.answers (exec (.commitPlan l) s) l r .ok
         (listBytes (natBytes 1) plan ++ natBytes 1 (candidates.filter skips).length) false [.bayChanged b]
         { s with
           bsc := s.bsc.set b
             { s.bsc.get b with
               status := .loading, plan := plan, selection := { first := none, last := none, excluded := [] }
               inactivityTimer := if s.armsIdle b then some 300000 else none } })
     ∧ (plan = [] →
       s.answers (exec (.commitPlan l) s) l r .nothingToLoad (natBytes 1 (candidates.filter skips).length) true []
         { s with bsc := s.bsc.set b { s.bsc.get b with selection := { first := none, last := none, excluded := [] } } }))
  ∧ (∀ (l : Link) (b : Bay) (r : Request) (s : State),
     s.asksAs (.panel b) l r 0x27#8 formEmpty () → (s.bsc.get b).status = .loading →
     ((∀ a ∈ b.arms, (s.fc.get a).state = .idle) →
       s.answers (exec (.newPlan l) s) l r .ok [] false [.bayChanged b]
         { s with
           bsc := s.bsc.set b
             { s.bsc.get b with
               status := .planning, plan := [], selection := { first := none, last := none, excluded := [] }
               inactivityTimer := some 300000 } })
     ∧ ((∃ a ∈ b.arms, (s.fc.get a).state ≠ .idle) → s.replies (exec (.newPlan l) s) l r .state [] false))

/-- SIGN_OFF in IDENT, SIGNED, PLANNING, or LOADING with both arms IDLE closes the session: the held order is released,
COMPLETE where every compartment is LOADED and OPEN otherwise, the driver unbound, the lists cleared, the timers stopped, and
the bay LOCKED. In LOADING with an arm not IDLE, in LOCKED and in OUT_OF_SERVICE it is refused STATE (R68, R86). -/
def Obligations.SignOffClosesTheSession : Prop :=
  ∀ (l : Link) (b : Bay) (r : Request) (s : State), s.asksAs (.panel b) l r 0x2D#8 formEmpty () →
    (∀ d, ((s.bsc.get b).status ∈ [BayStatus.ident, .signed, .planning]
        ∨ ((s.bsc.get b).status = .loading ∧ ∀ a ∈ b.arms, (s.fc.get a).state = .idle)) → (s.bsc.get b).driver = some d →
      let closed : BayController :=
        { s.bsc.get b with
          status := .locked, closePending := false, driver := none, order := none
          selection := { first := none, last := none, excluded := [] }, plan := [], pinTimer := none
          inactivityTimer := none }
      ((s.bsc.get b).order = none →
        s.answers (exec (.signOff l) s) l r .ok [] false [.bayChanged b]
          { s with pt := { bound := s.pt.bound.remove d }, bsc := s.bsc.set b closed })
      ∧ ∀ n o, (s.bsc.get b).order = some n → s.ob.orders.find n = some o →
        s.answers (exec (.signOff l) s) l r .ok [] false [.bayChanged b]
          { s with
            pt := { bound := s.pt.bound.remove d }, bsc := s.bsc.set b closed
            ob :=
              { orders := s.ob.orders.put n
                  { o with
                    holding := none, cancelPending := false
                    state := if ∀ c ∈ o.compartments, c.status = .loaded then .complete else .opened } } })
    ∧ (((s.bsc.get b).status ∈ [BayStatus.locked, .outOfService]
        ∨ ((s.bsc.get b).status = .loading ∧ ∃ a ∈ b.arms, (s.fc.get a).state ≠ .idle)) →
      s.replies (exec (.signOff l) s) l r .state [] false)

/-! ### Stop causes, shots and the dead-man timer (R90, R117, R120, R121, R137, R139, R140) -/

/-- A cause raised on an IDLE arm, or one its set already holds, changes nothing. Otherwise it joins the set in priority
order, sets CAUSE_RAISED, and cuts off the shots of the arm's channels. A terminal cause takes a flowing or PAUSED arm to
CLOSING with its end reason, a resumable one a flowing arm to PAUSED; either commands CLOSE, and an arm that leaves the flowing
states leaves the Shot Queues and, being the last of its bay, stops the dead-man timer. In every other state the set alone
changes (R90, R117, R121, R137, R140). That a leaving in WARNING is noted, for an expiry that is ahead of it, is the model's (log 32). -/
def Obligations.CauseStopsTheArm : Prop :=
  ∀ (a : Arm) (c : StopCause) (s : State),
    let fc := s.fc.get a
    let q := s.cutShots fun k => k.arm = a
    let closing : FlowController :=
      { fc with
        state := .closing, command := .close, causes := joinCause c fc.causes, closingCount := 0
        closingTimer := some 10000, noFlowTimer := none, pauseTimer := none }
    let paused : FlowController :=
      { fc with
        state := .paused, command := .close, causes := joinCause c fc.causes, noFlowTimer := none
        pauseTimer := some (s.wc.rack.pauseTimeout * 1000) }
    let flowing := fc.state ∈ [ArmState.lowStart, .highFlow, .topOff]
    let terminal : EndReason → Prop := fun r =>
      (c, r) ∈ [(StopCause.emergencyStop, EndReason.emergencyStop), (.powerFail, .powerFail),
        (.bayOutOfService, .bayOutOfService), (.orderCancelled, .orderCancelled), (.pulseFault, .pulseFault),
        (.probeFault, .probeFault)]
    let resumable := c ∈ [StopCause.permissiveLost, .additiveFault, .additiveLag, .noFlow, .deadman, .officeStop, .driverStop]
    ((fc.state = .idle ∨ c ∈ fc.causes) → s.raiseCause a c = s)
    ∧ (fc.state ≠ .idle → c ∉ fc.causes →
      (∀ r, terminal r →
        (flowing → s.becomes (.next (s.raiseCause a c)) [.causeRaised a]
          { (q.setEndReason a r).dosingLeft a with fc := s.fc.set a closing, bsc := s.deadmanLeft a })
        ∧ (fc.state = .paused → s.becomes (.next (s.raiseCause a c)) [.causeRaised a]
          { q.setEndReason a r with fc := s.fc.set a closing }))
      ∧ (resumable → flowing → s.becomes (.next (s.raiseCause a c)) [.causeRaised a]
          { q.dosingLeft a with fc := s.fc.set a paused, bsc := s.deadmanLeft a })
      ∧ ((fc.state ∈ [ArmState.closing, .ending] ∨ (resumable ∧ fc.state = .paused)) →
        s.becomes (.next (s.raiseCause a c)) [.causeRaised a]
          { q with fc := s.fc.set a { fc with causes := joinCause c fc.causes } }))
    ∧ (∀ (d : StopCause) (causes : List StopCause), d ∈ joinCause c causes ↔ d = c ∨ d ∈ causes)
    ∧ ∀ causes : List StopCause, (causes.map StopCause.priority).Pairwise (· < ·) →
      ((joinCause c causes).map StopCause.priority).Pairwise (· < ·)

/-- A cut-off ends each shot in progress on a channel it names: the injector closes and the pump rests for its rest time. Every other
pump, every channel not in a shot it ends, and everything outside the ADU stay as they were. An arm that leaves the flowing
states leaves the Shot Queues: a queued channel of it goes to NONE with one shot more owed, and is in no queue; a channel not
queued, or of another arm, stays as it was, and no other channel loses its place in a queue. Outside the ADU only the lines of the
arm's running compartment record change: the line a queued channel serves has one shot requested less (R137, R139, R140). -/
def Obligations.ShotsAreCutAndUnqueued : Prop :=
  (∀ (cut : Channel → Bool) (s : State),
     let t := s.cutShots cut
     t = { s with adu := t.adu }
     ∧ (∀ p c, (s.adu.pumps.get p).status = .shot c → cut c = true →
         t.adu.pumps.get p =
           { s.adu.pumps.get p with status := .rest, restTimer := some (s.wc.pumpRest.get p), shotTimer := none }
         ∧ t.adu.channels.get c = { s.adu.channels.get c with place := .none })
     ∧ (∀ p, (∀ c, (s.adu.pumps.get p).status = .shot c → cut c = false) → t.adu.pumps.get p = s.adu.pumps.get p)
     ∧ ∀ c, (∀ p, (s.adu.pumps.get p).status = .shot c → cut c = false) → t.adu.channels.get c = s.adu.channels.get c)
  ∧ (∀ (a : Arm) (s : State),
     let t := s.dosingLeft a
     let returned : Nat → Nat := fun i =>
       ([Channel.ch0, .ch1, .ch2, .ch3, .ch4, .ch5, .ch6, .ch7].filter fun c =>
         decide (c.arm = a) && decide ((s.adu.channels.get c).place = .queued)
           && decide ((s.adu.channels.get c).serving = some i)).length
     t = { s with
         adu := t.adu
         running := s.running.set a ((s.running.get a).map fun y =>
           { y with lines := y.lines.mapIdx fun i z => { z with requested := z.requested - returned i } }) }
     ∧ (∀ c, t.adu.channels.get c =
         if c.arm = a ∧ (s.adu.channels.get c).place = .queued then
           { s.adu.channels.get c with place := .none, owed := (s.adu.channels.get c).owed + 1 }
         else s.adu.channels.get c)
     ∧ ∀ p, t.adu.pumps.get p =
         { s.adu.pumps.get p with
           queue := (s.adu.pumps.get p).queue.filter fun c =>
             !(decide (c.arm = a) && decide ((s.adu.channels.get c).place = .queued)) })

/-! ### The arm requests (R83 to R85, R116, R124 to R126) -/

/-- A START that passes every check reserves a note slot, sets the compartment LOADING, opens the running compartment record
with the totalizers and the preset, empties the temperature window, gives each serving channel its line, and answers the
remaining litres and the arm state. The channel that serves a line is the lower one of the arm that is assigned its additive, else
the upper one; its line record starts with none requested and none injected, and the channel with none owed and none failed. The loading
permissive condition is that of every permissive of the bay, the arm parked input and the emergency stop. With the lead below the preset the arm flows at once at the implied stage, its command
chosen from the present rate; otherwise it goes straight to CLOSING, COMPLETE (R23, R69, R83, R84, R109, R114 to
R116, R135, R150). The set of arms that left flow in
WARNING is the model's (log 32). -/
def Obligations.AcceptedStartOpensTheCompartment : Prop :=
  (∀ (l : Link) (b : Bay) (r : Request) (a : Arm) (lower upper : Channel) (n driver : Nat) (o : Order) (c : Compartment) (lines : List RecipeLine)
    (d : DriverRecord) (k : Nat) (s : State),
    s.asksAs (.panel b) l r 0x28#8 formTwoBytes (a.toNat, c.number) → (s.bsc.get b).status = .loading →
    (s.bsc.get b).closePending = false → a.bay = b → (s.fc.get a).state = .idle → (s.wc.arms.get a).kMilli = some k →
    1 ≤ c.number → c.number ≤ 8 → (s.bsc.get b).order = some n → s.ob.orders.find n = some o →
    (o.compartments.find? fun x => x.number = c.number) = some c → c.number ∈ (s.bsc.get b).plan →
    (c.status = .pending ∨ c.status = .partLoaded) → o.cancelPending = false →
    (s.wc.arms.get a).product = c.product → (s.bsc.get b).driver = some driver → s.wc.drivers.find driver = some d →
    d.status = .active →
    (match c.recipe with
      | none => lines = []
      | some code => ∃ y, s.wc.recipes.find code = some y ∧ y.product = c.product ∧ y.lines = lines) →
    lower.toNat = 2 * a.toNat → upper.toNat = 2 * a.toNat + 1 →
    (∀ x ∈ lines, ((s.wc.injectors.get lower).additive = some x.additive ∨ (s.wc.injectors.get upper).additive = some x.additive)
      ∧ (s.wc.stock.get x.additive).reserve < (s.wc.stock.get x.additive).stock) →
    (∀ p, s.accepts (.permissive p b) = true) → s.accepts (.parked a) = true → s.accepts .emergencyStop = true →
    s.notesHeld + s.reservations < 64 → c.delivered < c.planned →
    let litres := c.planned - c.delivered
    let arm := s.wc.arms.get a
    let serving : RecipeLine → Channel := fun x =>
      if (s.wc.injectors.get lower).additive = some x.additive then lower else upper
    let record : Running :=
      { metering :=
          { openGross := (s.me.get a).gross, openNet := (s.me.get a).net, gross := 0, net := 0, weighted := 0
            pulseErrors := 0, reverse := 0, phase := .waiting, tempSubstituted := false, probeFault := false
            vcfClamped := false, pulseErrorsSeen := false }
        flow :=
          { bay := b, order := n, compartment := c.number, preset := litres * 1000, basis := c.basis, endReason := none
            overrun := false }
        lines := lines.map fun x =>
          { additive := x.additive, dose := x.dose, channel := serving x, requested := 0, injected := 0 }
        note :=
          { bay := b, driver := driver, order := n, vehicle := o.vehicle, compartment := c.number, product := c.product
            recipe := c.recipe, preset := litres
            startTime := if s.lc.clock.isSet then some s.lc.clock.count else none } }
    let opened : State :=
      { s with
        ns := { s.ns with reserved := s.ns.reserved.set a true }
        ob :=
          { orders := s.ob.orders.put n
              { o with
                compartments := o.compartments.map fun x =>
                  if x.number = c.number then
                    { x with status := .loading, loadingArm := some a, statusBefore := some x.status }
                  else x } }
        me := s.me.set a { s.me.get a with temperatures := [] }
        adu :=
          { s.adu with
            channels := (lines.map serving).zipIdx.foldl
              (fun k p => k.set p.1 { k.get p.1 with serving := some p.2, owed := 0, failed := 0 }) s.adu.channels } }
    (∀ st, (s.fc.get a).lead < litres * 1000 →
      st = (if litres * 1000 ≤ arm.topOffVolume * 1000 then ArmState.topOff
        else if arm.startVolume * 1000 ≤ 0 then .highFlow else .lowStart) →
      let command := regulate (if st = .highFlow then arm.highRate else arm.lowRate) arm.deadband (s.me.get a).rate
      s.answers (exec (.start l) s) l r .ok (natBytes 2 litres ++ natBytes 1 st.code) false []
        { opened with
          running := s.running.set a (some record)
          fc := s.fc.set a
            { s.fc.get a with
              state := st, command := command, pauseTimer := none
              noFlowTimer := if command = .openValve then some (arm.noFlowTime * 1000) else none }
          bsc := (s.deadmanStarted a).modify b fun x => { x with inactivityTimer := none } })
    ∧ (litres * 1000 ≤ (s.fc.get a).lead →
      s.answers (exec (.start l) s) l r .ok (natBytes 2 litres ++ natBytes 1 4) false []
        { opened with
          running := s.running.set a (some { record with flow := { record.flow with endReason := some .complete } })
          fc := s.fc.set a
            { s.fc.get a with
              state := .closing, command := .close, closingCount := 0, closingTimer := some 10000, noFlowTimer := none
              pauseTimer := none }
          bsc := s.bsc.modify b fun x => { x with inactivityTimer := none } }))
  ∧ ∀ (a : Arm) (s : State),
    (s.loadingPermissive a = true ↔
      (∀ p, s.accepts (.permissive p a.bay) = true) ∧ s.accepts (.parked a) = true ∧ s.accepts .emergencyStop = true)
    ∧ ∀ lower upper : Channel, lower.toNat = 2 * a.toNat → upper.toNat = 2 * a.toNat + 1 → ∀ t,
      s.servingChannel a t =
        if (s.wc.injectors.get lower).additive = some t then some lower
        else if (s.wc.injectors.get upper).additive = some t then some upper else none

/-- A START in LOADING that fails a check changes nothing, and its result is that of the first check that fails: RANGE, STATE
for the bay, the arm or the compartment, then PRODUCT_MISMATCH, BLOCKED, RECIPE_UNAVAILABLE, ADDITIVE_LOW, PERMISSIVE,
NOTE_STORE_FULL, NOTHING_TO_LOAD (R83). -/
def Obligations.StartChecksInOrder : Prop :=
  ∀ (l : Link) (b : Bay) (r : Request) (k n : Nat) (s : State),
    s.asksAs (.panel b) l r 0x28#8 formTwoBytes (k, n) → (s.bsc.get b).status = .loading →
    let refuses : ResultCode → Prop := fun res => s.replies (exec (.start l) s) l r res [] false
    ((3 < k ∨ n < 1 ∨ 8 < n) → refuses .range)
    ∧ ∀ a : Arm, k = a.toNat → 1 ≤ n → n ≤ 8 →
      (((s.bsc.get b).closePending = true ∨ a.bay ≠ b ∨ (s.fc.get a).state ≠ .idle ∨ (s.wc.arms.get a).kMilli = none) →
        refuses .state)
      ∧ ((s.bsc.get b).closePending = false → a.bay = b → (s.fc.get a).state = .idle → (s.wc.arms.get a).kMilli ≠ none →
        (s.startCompartment b n = none → refuses .state)
        ∧ ∀ m o c, s.startCompartment b n = some (m, o, c) →
          ((s.wc.arms.get a).product ≠ c.product → refuses .productMismatch)
          ∧ ((s.wc.arms.get a).product = c.product →
            (s.driverActive b = false → refuses .blocked)
            ∧ (s.driverActive b = true →
              (s.recipeLines c = none → refuses .recipeUnavailable)
              ∧ ∀ lines, s.recipeLines c = some lines →
                ((∃ x ∈ lines, s.servingChannel a x.additive = none) → refuses .recipeUnavailable)
                ∧ ((∀ x ∈ lines, s.servingChannel a x.additive ≠ none) →
                  ((∃ x ∈ lines, (s.wc.stock.get x.additive).stock ≤ (s.wc.stock.get x.additive).reserve) →
                    refuses .additiveLow)
                  ∧ ((∀ x ∈ lines, (s.wc.stock.get x.additive).reserve < (s.wc.stock.get x.additive).stock) →
                    (s.loadingPermissive a = false → refuses .permissive)
                    ∧ (s.loadingPermissive a = true →
                      (64 ≤ s.notesHeld + s.reservations → refuses .noteStoreFull)
                      ∧ (s.notesHeld + s.reservations < 64 → c.planned ≤ c.delivered → refuses .nothingToLoad)))))))

/-- STOP of a flowing arm of the bay raises DRIVER_STOP: the arm is PAUSED with the valve closed and the pause timer started; in
IDLE, CLOSING, PAUSED and ENDING it is refused STATE and changes nothing. FINISH of a PAUSED arm fixes DRIVER_FINISHED and takes
it to ENDING, whatever its set holds, with every timer of the arm stopped; in every other state it is refused STATE and changes
nothing. Either, in LOADING, is refused RANGE for an arm above 3 and STATE for an arm of the other bay (R85, R119, R121, R125,
R128). That a leaving in WARNING is noted, for an expiry that is ahead of it, is the model's (log 32). -/
def Obligations.StopAndFinish : Prop :=
  (∀ (l : Link) (b : Bay) (r : Request) (a : Arm) (s : State),
     s.asksAs (.panel b) l r 0x29#8 formByte a.toNat → (s.bsc.get b).status = .loading → a.bay = b →
     ((s.fc.get a).state ∈ [ArmState.lowStart, .highFlow, .topOff] → (s.fc.get a).causes = [] →
       s.answers (exec (.stop l) s) l r .ok (natBytes 1 5) false [.causeRaised a]
         { (s.cutShots fun k => k.arm = a).dosingLeft a with
           fc := s.fc.set a
             { s.fc.get a with
               state := .paused, command := .close, causes := [.driverStop], noFlowTimer := none
               pauseTimer := some (s.wc.rack.pauseTimeout * 1000) }
           bsc := (s.deadmanLeft a).modify b fun x => { x with inactivityTimer := none } })
     ∧ ((s.fc.get a).state ∈ [ArmState.idle, .closing, .paused, .ending] →
       s.replies (exec (.stop l) s) l r .state [] false))
  ∧ (∀ (l : Link) (b : Bay) (r : Request) (a : Arm) (s : State),
     s.asksAs (.panel b) l r 0x2C#8 formByte a.toNat → (s.bsc.get b).status = .loading → a.bay = b →
     ((s.fc.get a).state = .paused →
       s.answers (exec (.finish l) s) l r .ok [] false []
         { s with
           fc := s.fc.set a
             { s.fc.get a with
               state := .ending, command := .close, closingTimer := none, noFlowTimer := none, pauseTimer := none }
           running := s.running.set a ((s.running.get a).map fun x =>
             { x with flow := { x.flow with endReason := some .driverFinished } })
           bsc := s.bsc.modify b fun x => { x with inactivityTimer := none } })
     ∧ ((s.fc.get a).state ≠ .paused → s.replies (exec (.finish l) s) l r .state [] false))
  ∧ ∀ (c : Instr) (code : Byte) (l : Link) (b : Bay) (r : Request) (n : Nat) (s : State),
     (c, code) ∈ [(Instr.stop l, 0x29#8), (.finish l, 0x2C#8)] → s.asksAs (.panel b) l r code formByte n →
     (s.bsc.get b).status = .loading →
     (3 < n → s.replies (exec c s) l r .range [] false)
     ∧ ∀ a : Arm, n = a.toNat → a.bay ≠ b → s.replies (exec c s) l r .state [] false

/-- RESUME of a PAUSED arm with an empty Stop-Cause Set and its loading permissive condition holding enters the implied stage:
a flowing one with its command chosen from the present rate and the dead-man timer told, or CLOSING, COMPLETE. Where one of the
three fails it is refused STATE and changes nothing; in LOADING it is refused RANGE for an arm above 3 and STATE for an arm of the
other bay (R85, R115, R126). The set of arms that left flow in
WARNING is the model's (log 32). -/
def Obligations.ResumeEntersTheImpliedStage : Prop :=
  (∀ (l : Link) (b : Bay) (r : Request) (a : Arm) (s : State),
    s.asksAs (.panel b) l r 0x2A#8 formByte a.toNat → (s.bsc.get b).status = .loading → a.bay = b →
    let arm := s.wc.arms.get a
    (∀ (x : Running) (q : Nat), (s.fc.get a).state = .paused → (s.fc.get a).causes = [] → s.loadingPermissive a = true →
      s.running.get a = some x → q = (match x.flow.basis with | .gross => x.metering.gross | .net => x.metering.net) →
      (∀ st, q + (s.fc.get a).lead < x.flow.preset →
        st = (if x.flow.preset ≤ q + arm.topOffVolume * 1000 then ArmState.topOff
          else if arm.startVolume * 1000 ≤ q then .highFlow else .lowStart) →
        let command := regulate (if st = .highFlow then arm.highRate else arm.lowRate) arm.deadband (s.me.get a).rate
        s.answers (exec (.resume l) s) l r .ok (natBytes 1 st.code) false []
          { s with
            fc := s.fc.set a
              { s.fc.get a with
                state := st, command := command, pauseTimer := none
                noFlowTimer := if command = .openValve then some (arm.noFlowTime * 1000) else none }
            bsc := (s.deadmanStarted a).modify b fun y => { y with inactivityTimer := none } })
      ∧ (x.flow.preset ≤ q + (s.fc.get a).lead →
        s.answers (exec (.resume l) s) l r .ok (natBytes 1 4) false []
          { s with
            fc := s.fc.set a
              { s.fc.get a with
                state := .closing, command := .close, closingCount := 0, closingTimer := some 10000, noFlowTimer := none
                pauseTimer := none }
            running := s.running.set a (some { x with flow := { x.flow with endReason := some .complete } })
            bsc := s.bsc.modify b fun y => { y with inactivityTimer := none } }))
    ∧ (((s.fc.get a).state ≠ .paused ∨ (s.fc.get a).causes ≠ [] ∨ s.loadingPermissive a = false) →
      s.replies (exec (.resume l) s) l r .state [] false))
  ∧ ∀ (l : Link) (b : Bay) (r : Request) (n : Nat) (s : State),
    s.asksAs (.panel b) l r 0x2A#8 formByte n → (s.bsc.get b).status = .loading →
    (3 < n → s.replies (exec (.resume l) s) l r .range [] false)
    ∧ ∀ a : Arm, n = a.toNat → a.bay ≠ b → s.replies (exec (.resume l) s) l r .state [] false

/-- ACK_CAUSE of the shown cause, the highest in priority, whose clearing condition holds removes it and answers the cause then
shown; OFFICE_STOP takes the release mark with it, and the last DEADMAN of a bay its alarm. A cause that is not the shown one,
or whose clearing condition fails, is refused STATE and changes nothing. In LOADING an arm above 3, or a code that is none of the
thirteen causes, is refused RANGE, and an arm of the other bay STATE (R85, R92, R120, R124). -/
def Obligations.AcknowledgedCauseIsRemoved : Prop :=
  (∀ (l : Link) (b : Bay) (r : Request) (a : Arm) (c : StopCause) (s : State),
    s.asksAs (.panel b) l r 0x2B#8 formTwoBytes (a.toNat, c.priority) → (s.bsc.get b).status = .loading → a.bay = b →
    let clears := match c with
      | .emergencyStop => s.accepts .emergencyStop = true
      | .permissiveLost =>
        (∀ p, s.accepts (.permissive p b) = true) ∧ s.accepts (.parked a) = true
      | .additiveLag => ∀ k : Channel, k.arm = a → (s.adu.channels.get k).owed ≤ 3
      | .officeStop => (s.fc.get a).releaseMark = true
      | .powerFail | .bayOutOfService | .orderCancelled | .pulseFault | .probeFault | .additiveFault | .noFlow | .deadman
      | .driverStop => True
    (∀ rest, (s.fc.get a).causes = c :: rest → c ∉ rest → clears →
      s.answers (exec (.ackCause l) s) l r .ok (optionalBytes (fun d => natBytes 1 d.priority) rest.head?) false []
        { s with
          fc := s.fc.set a
            { s.fc.get a with
              causes := rest, releaseMark := if c = .officeStop then false else (s.fc.get a).releaseMark }
          bsc := s.bsc.modify b fun x =>
            { x with
              alarm := if c = .deadman ∧ StopCause.deadman ∉ (s.fc.get a.other).causes then false else x.alarm
              inactivityTimer := s.inactivityAfter b .loading } })
    ∧ ((¬clears ∨ (s.fc.get a).causes.head? ≠ some c) → s.replies (exec (.ackCause l) s) l r .state [] false))
  ∧ ∀ (l : Link) (b : Bay) (r : Request) (n code : Nat) (s : State),
    s.asksAs (.panel b) l r 0x2B#8 formTwoBytes (n, code) → (s.bsc.get b).status = .loading →
    ((3 < n ∨ code < 1 ∨ 13 < code) → s.replies (exec (.ackCause l) s) l r .range [] false)
    ∧ ∀ a : Arm, 1 ≤ code → code ≤ 13 → n = a.toNat → a.bay ≠ b → s.replies (exec (.ackCause l) s) l r .state [] false

/-! ### The Driver Table (R40 to R44) -/

/-- WRITE_DRIVER, DELETE_DRIVER and RESET_PIN that pass their checks write, remove and reset the record, each with one
setting-class entry: a rewrite keeps the failed-attempt count unless it makes a BLOCKED driver ACTIVE, and the classes are held
as a set. One that fails a check changes nothing, and its result is that of the first check that fails: RANGE, then FULL for a new
record in a full table, NOT_FOUND or DRIVER_BUSY, then BUSY. One that would write the values the record holds is answered OK with no
entry and is not refused BUSY: R165 read over the three rules (log 35) (R40 to R43, R165). -/
def Obligations.DriversAreWritten : Prop :=
  ∀ (l : Link) (r : Request) (s : State),
    (∀ x : DriverFields, s.asksAs .office l r 0x40#8 formWriteDriver x →
      let refuses : ResultCode → Prop := fun res => s.replies (exec (.writeDriver l) s) l r res [] (s.planReset l)
      let ranged := 1 ≤ x.number ∧ x.number ≤ 99999999 ∧ 4 ≤ x.pin.count ∧ x.pin.count ≤ 8
        ∧ (∀ k ∈ x.pin.digits.take x.pin.count, k ≤ 9) ∧ x.status ≤ 1 ∧ 1 ≤ x.classes.length ∧ x.classes.length ≤ 8
        ∧ (∀ k ∈ x.classes, 1 ≤ k ∧ k ≤ 8) ∧ ∀ day, x.expiry = some day → day ≤ 49710
      (¬ranged → refuses .range)
      ∧ (ranged → s.wc.drivers.find x.number = none → 128 ≤ s.wc.drivers.length → refuses .full)
      ∧ (ranged → (s.wc.drivers.find x.number ≠ none ∨ s.wc.drivers.length < 128) →
        ∃ classes : List Nat, (∀ k, k ∈ classes ↔ k ∈ x.classes) ∧ classes.Pairwise (· < ·)
          ∧ let new : DriverRecord :=
              { pin := x.pin.digits.take x.pin.count
                status := if x.status = 0 then .active else .blocked
                failed :=
                  match s.wc.drivers.find x.number with
                  | none => 0
                  | some d => if d.status = .blocked ∧ x.status = 0 then 0 else d.failed
                classes := classes, expiry := x.expiry }
            (s.wc.drivers.find x.number = some new → s.replies (exec (.writeDriver l) s) l r .ok [] (s.planReset l))
            ∧ (s.wc.drivers.find x.number ≠ some new →
              (8 ≤ s.nvc.queue.length → refuses .busy)
              ∧ (s.nvc.queue.length < 8 →
                s.answers (exec (.writeDriver l) s) l r .ok [] (s.planReset l) []
                  (s.commit (.driver x.number (some new)) .setting)))))
    ∧ (∀ n, s.asksAs .office l r 0x41#8 formLong n →
      let refuses : ResultCode → Prop := fun res => s.replies (exec (.deleteDriver l) s) l r res [] (s.planReset l)
      ((n < 1 ∨ 99999999 < n) → refuses .range)
      ∧ (1 ≤ n → n ≤ 99999999 →
        (s.wc.drivers.find n = none → refuses .notFound)
        ∧ (s.wc.drivers.find n ≠ none →
          (s.boundBay n ≠ none → refuses .driverBusy)
          ∧ (s.boundBay n = none →
            (8 ≤ s.nvc.queue.length → refuses .busy)
            ∧ (s.nvc.queue.length < 8 →
              s.answers (exec (.deleteDriver l) s) l r .ok [] (s.planReset l) [] (s.commit (.driver n none) .setting))))))
    ∧ ∀ n p, s.asksAs .office l r 0x42#8 formResetPin (n, p) →
      let refuses : ResultCode → Prop := fun res => s.replies (exec (.resetPin l) s) l r res [] (s.planReset l)
      let ranged := 1 ≤ n ∧ n ≤ 99999999 ∧ 4 ≤ p.count ∧ p.count ≤ 8 ∧ ∀ k ∈ p.digits.take p.count, k ≤ 9
      (¬ranged → refuses .range)
      ∧ (ranged → s.wc.drivers.find n = none → refuses .notFound)
      ∧ ∀ d, ranged → s.wc.drivers.find n = some d →
        let new : DriverRecord := { d with pin := p.digits.take p.count, failed := 0, status := .active }
        (d = new → s.replies (exec (.resetPin l) s) l r .ok [] (s.planReset l))
        ∧ (d ≠ new →
          (8 ≤ s.nvc.queue.length → refuses .busy)
          ∧ (s.nvc.queue.length < 8 →
            s.answers (exec (.resetPin l) s) l r .ok [] (s.planReset l) [] (s.commit (.driver n (some new)) .setting)))

/-- READ_DRIVER and READ_ORDER return the record of the number with selector EXACT, and the record of the smallest number above
it with NEXT; where there is none they are refused NOT_FOUND, and with another selector, 0 for EXACT or a number above the range
RANGE. Both change nothing, and no PIN digit is returned (R44,
R66). That a bay is one byte, a flag one byte, a field that stands only in some states an optional one, and that the compartments
stand after the order's other fields, is the model's (logs 14, 15, 38). -/
def Obligations.DriversAndOrdersAreRead : Prop :=
  (∀ (l : Link) (r : Request) (n sel : Nat) (s : State),
    (s.asksAs .office l r 0x43#8 formSelect (n, sel) → (1 < sel ∨ (sel = 0 ∧ n = 0) ∨ 99999999 < n) →
      s.replies (exec (.readDriver l) s) l r .range [] (s.planReset l))
    ∧ (s.asksAs .office l r 0x46#8 formSelect (n, sel) → (1 < sel ∨ (sel = 0 ∧ n = 0) ∨ 9999999 < n) →
      s.replies (exec (.readOrder l) s) l r .range [] (s.planReset l)))
  ∧ ∀ (l : Link) (r : Request) (n sel : Nat) (s : State), sel ≤ 1 →
    let named : Nat → (Nat → Bool) → Prop := fun k present =>
      present k = true ∧ ((sel = 0 ∧ k = n) ∨ (sel = 1 ∧ n < k ∧ ∀ j, n < j → j < k → present j = false))
    let noneNamed : (Nat → Bool) → Prop := fun present =>
      (sel = 0 ∧ present n = false) ∨ (sel = 1 ∧ ∀ j, n < j → present j = false)
    (s.asksAs .office l r 0x43#8 formSelect (n, sel) → 1 - sel ≤ n → n ≤ 99999999 → s.wc.drivers.wf = true →
      (∀ k d, named k (fun j => (s.wc.drivers.find j).isSome) → s.wc.drivers.find k = some d →
        s.replies (exec (.readDriver l) s) l r .ok
          (natBytes 4 k ++ natBytes 1 d.pin.length ++ natBytes 1 d.status.code ++ natBytes 1 d.failed
            ++ listBytes (natBytes 1) d.classes ++ optionalBytes (natBytes 2) d.expiry
            ++ optionalBytes bayByte (s.boundBay k) ++ natBytes 1 s.wc.drivers.length
            ++ natBytes 1 s.wc.rack.attemptLimit) (s.planReset l))
      ∧ (noneNamed (fun j => (s.wc.drivers.find j).isSome) →
        s.replies (exec (.readDriver l) s) l r .notFound [] (s.planReset l)))
    ∧ (s.asksAs .office l r 0x46#8 formSelect (n, sel) → 1 - sel ≤ n → n ≤ 9999999 → s.ob.orders.wf = true →
      (∀ k o, named k (fun j => (s.ob.orders.find j).isSome) → s.ob.orders.find k = some o →
        s.replies (exec (.readOrder l) s) l r .ok
          (natBytes 4 k ++ optionalBytes (natBytes 4) o.driver ++ stringBytes o.vehicle ++ optionalBytes bayByte o.bay
            ++ natBytes 1 o.state.code ++ optionalBytes bayByte o.holding ++ flagByte o.cancelPending
            ++ listBytes Compartment.payload o.compartments ++ natBytes 1 s.ob.orders.length) (s.planReset l))
      ∧ (noneNamed (fun j => (s.ob.orders.find j).isSome) →
        s.replies (exec (.readOrder l) s) l r .notFound [] (s.planReset l)))

/-! ### The Order Table (R63 to R72) -/

/-- A WRITE_ORDER whose fields are in range, whose products and recipes exist and fit, writes an OPEN order with every
compartment PENDING and nothing delivered: under a new number while fewer than 48 are held, or over an OPEN or COMPLETE order
none of whose compartments is PART_LOADED or LOADED. One that fails a check changes nothing: RANGE, NOT_FOUND, RANGE for a recipe of
another product, FULL, ORDER_BUSY over a HELD order, STATE over a CANCELLED or part delivered one. DELETE_ORDER removes an order that
is not HELD. Neither makes an NV entry (R62 to R65). -/
def Obligations.OrdersAreWrittenAndDeleted : Prop :=
  ∀ (l : Link) (r : Request) (s : State),
    (∀ x : OrderFields, s.asksAs .office l r 0x44#8 formWriteOrder x →
      let refuses : ResultCode → Prop := fun res => s.replies (exec (.writeOrder l) s) l r res [] (s.planReset l)
      let ranged := 1 ≤ x.number ∧ x.number ≤ 9999999 ∧ (∀ d, x.driver = some d → 1 ≤ d ∧ d ≤ 99999999)
        ∧ 1 ≤ x.vehicle.length ∧ x.vehicle.length ≤ 10 ∧ (∀ ch ∈ x.vehicle, 32 ≤ ch.toNat ∧ ch.toNat ≤ 126)
        ∧ (∀ b, x.bay = some b → b ≤ 1) ∧ 1 ≤ x.compartments.length ∧ x.compartments.length ≤ 8
        ∧ (x.compartments.map CompartmentFields.number).Nodup
        ∧ ∀ c ∈ x.compartments, 1 ≤ c.number ∧ c.number ≤ 8 ∧ 1 ≤ c.product ∧ c.product ≤ 15 ∧ 100 ≤ c.planned
          ∧ c.planned ≤ 40000 ∧ c.basis ≤ 1 ∧ ∀ k, c.recipe = some k → 1 ≤ k ∧ k ≤ 24
      let known := ∀ c ∈ x.compartments, s.wc.products.find c.product ≠ none
        ∧ ∀ k, c.recipe = some k → s.wc.recipes.find k ≠ none
      let fits := ∀ c ∈ x.compartments, ∀ k y, c.recipe = some k → s.wc.recipes.find k = some y → y.product = c.product
      let writes := s.answers (exec (.writeOrder l) s) l r .ok [] (s.planReset l) []
        { s with
          ob :=
            { orders := s.ob.orders.put x.number
                { driver := x.driver, vehicle := x.vehicle
                  bay := x.bay.map fun b => if b = 0 then Bay.bayA else Bay.bayB
                  compartments := x.compartments.map fun c =>
                    { number := c.number, product := c.product, planned := c.planned
                      basis := if c.basis = 0 then .gross else .net, recipe := c.recipe, status := .pending
                      deliveredGross := 0, deliveredNet := 0, loadingArm := none, statusBefore := none }
                  state := .opened, holding := none, cancelPending := false } } }
      (¬ranged → refuses .range)
      ∧ (ranged → ¬known → refuses .notFound)
      ∧ (ranged → known → ¬fits → refuses .range)
      ∧ (ranged → known → fits →
        (s.ob.orders.find x.number = none →
          (48 ≤ s.ob.orders.length → refuses .full) ∧ (s.ob.orders.length < 48 → writes))
        ∧ ∀ o, s.ob.orders.find x.number = some o →
          (o.state = .held → refuses .orderBusy)
          ∧ (o.state = .cancelled → refuses .state)
          ∧ ((o.state = .opened ∨ o.state = .complete) →
            ((∃ c ∈ o.compartments, c.status = .partLoaded ∨ c.status = .loaded) → refuses .state)
            ∧ ((∀ c ∈ o.compartments, c.status = .pending ∨ c.status = .loading) → writes))))
    ∧ ∀ n, s.asksAs .office l r 0x45#8 formLong n →
      ((n < 1 ∨ 9999999 < n) → s.replies (exec (.deleteOrder l) s) l r .range [] (s.planReset l))
      ∧ (1 ≤ n → n ≤ 9999999 →
        (s.ob.orders.find n = none → s.replies (exec (.deleteOrder l) s) l r .notFound [] (s.planReset l))
        ∧ ∀ o, s.ob.orders.find n = some o →
          (o.state = .held → s.replies (exec (.deleteOrder l) s) l r .orderBusy [] (s.planReset l))
          ∧ (o.state ≠ .held →
            s.answers (exec (.deleteOrder l) s) l r .ok [] (s.planReset l) []
              { s with ob := { orders := s.ob.orders.remove n } }))

/-- CANCEL_ORDER: an OPEN or COMPLETE order becomes CANCELLED; a CANCELLED one, or one already to be cancelled, is left as it
is; a HELD order with no arm on it becomes CANCELLED and its session, left without order, selection and Plan List, goes to
SIGNED. Each is answered OK. A number out of range is refused RANGE, one that no order has NOT_FOUND (R71). -/
def Obligations.IdleOrderIsCancelled : Prop :=
  (∀ (l : Link) (r : Request) (n : Nat) (s : State), s.asksAs .office l r 0x47#8 formLong n →
    ((n < 1 ∨ 9999999 < n) → s.replies (exec (.cancelOrder l) s) l r .range [] (s.planReset l))
    ∧ (1 ≤ n → n ≤ 9999999 → s.ob.orders.find n = none →
      s.replies (exec (.cancelOrder l) s) l r .notFound [] (s.planReset l)))
  ∧ ∀ (l : Link) (r : Request) (n : Nat) (o : Order) (s : State),
    s.asksAs .office l r 0x47#8 formLong n → 1 ≤ n → n ≤ 9999999 → s.ob.orders.find n = some o →
    let cancelled : OrderBook :=
      { orders := s.ob.orders.put n { o with holding := none, cancelPending := false, state := .cancelled } }
    ((o.state = .opened ∨ o.state = .complete) →
      s.answers (exec (.cancelOrder l) s) l r .ok [] (s.planReset l) [] { s with ob := cancelled })
    ∧ ((o.state = .cancelled ∨ (o.state = .held ∧ o.cancelPending = true)) →
      s.replies (exec (.cancelOrder l) s) l r .ok [] (s.planReset l))
    ∧ ∀ b, o.state = .held → o.cancelPending = false → o.holding = some b →
      (∀ a y, (s.fc.get a).state ≠ .idle → s.running.get a = some y → y.flow.order ≠ n) →
      ((s.bsc.get b).status = .planning ∨ (s.bsc.get b).status = .loading) →
      s.answers (exec (.cancelOrder l) s) l r .ok [] (s.planReset l) [.bayChanged b]
        { s with
          ob := cancelled
          bsc := s.bsc.set b
            { s.bsc.get b with
              status := .signed, order := none, plan := [], selection := { first := none, last := none, excluded := [] }
              inactivityTimer := if s.armsIdle b then some 300000 else none } }

/-- CANCEL_ORDER of a HELD order with an arm on it marks it to be cancelled and raises ORDER_CANCELLED on every arm on it, in
arm order, with CAUSE_RAISED: each ends with the cause in its set, one that flowed or was PAUSED in CLOSING with the valve closed.
Arms not on the order stay as they were, and nothing else changes (R71, R72). -/
def Obligations.LoadingOrderIsToBeCancelled : Prop :=
  ∀ (l : Link) (r : Request) (n : Nat) (o : Order) (s : State),
    s.asksAs .office l r 0x47#8 formLong n → 1 ≤ n → n ≤ 9999999 → s.ob.orders.find n = some o → o.state = .held →
    o.cancelPending = false →
    let onOrder : Arm → Prop := fun a => (s.fc.get a).state ≠ .idle ∧ ∃ y, s.running.get a = some y ∧ y.flow.order = n
    (∃ a, onOrder a) →
    let u := State.raiseOn { s with ob := { orders := s.ob.orders.put n { o with cancelPending := true } } }
      ([Arm.arm0, .arm1, .arm2, .arm3].filter fun a =>
        decide ((s.fc.get a).state ≠ .idle) && decide ((s.running.get a).map (fun y => y.flow.order) = some n))
      .orderCancelled
    u.answers (exec (.cancelOrder l) s) l r .ok [] (s.planReset l) [] u
      ∧ u.ob = { orders := s.ob.orders.put n { o with cancelPending := true } }
      ∧ (∀ a, onOrder a → StopCause.orderCancelled ∈ (u.fc.get a).causes
          ∧ ((s.fc.get a).state ∈ [ArmState.lowStart, .highFlow, .topOff, .paused] →
              StopCause.orderCancelled ∉ (s.fc.get a).causes →
              (u.fc.get a).state = .closing ∧ (u.fc.get a).command = .close
                ∧ ∃ y, u.running.get a = some y ∧ y.flow.endReason = some .orderCancelled))
      ∧ ∀ a, ¬onOrder a → u.fc.get a = s.fc.get a

/-! ### Recipes, bays, stock, clock and notes (R18, R59, R88, R89, R129, R143, R144, R154, R155) -/

/-- A WRITE_RECIPE of one or two lines in range, of different additive types, for an existing product, over no recipe in use,
writes the recipe with one setting-class entry; a tolerance left out is 50 permille. One that fails a check changes nothing: RANGE,
then NOT_FOUND for a product that does not exist, IN_USE, BUSY. One that would write the values the recipe holds is answered
OK with no entry and is not refused BUSY: R165 read over R59 (log 35) (R58, R59, R165). -/
def Obligations.RecipeIsWritten : Prop :=
  ∀ (l : Link) (r : Request) (x : RecipeFields) (s : State), s.asksAs .office l r 0x48#8 formWriteRecipe x →
    let refuses : ResultCode → Prop := fun res => s.replies (exec (.writeRecipe l) s) l r res [] (s.planReset l)
    let ranged := 1 ≤ x.code ∧ x.code ≤ 24 ∧ 1 ≤ x.product ∧ x.product ≤ 15 ∧ (x.lines.length = 1 ∨ x.lines.length = 2)
      ∧ (∀ p ∈ x.lines, 1 ≤ p.1 ∧ p.1 ≤ 6 ∧ 10 ≤ p.2 ∧ p.2 ≤ 10000) ∧ (x.lines.map Prod.fst).Nodup
      ∧ ∀ t, x.tolerance = some t → 10 ≤ t ∧ t ≤ 200
    let inUse := s.wc.recipes.find x.code ≠ none
      ∧ ∃ a y, (s.fc.get a).state ≠ .idle ∧ s.running.get a = some y ∧ y.note.recipe = some x.code
    (¬ranged → refuses .range)
    ∧ (ranged → s.wc.products.find x.product = none → refuses .notFound)
    ∧ (ranged → s.wc.products.find x.product ≠ none →
      (inUse → refuses .inUse)
      ∧ (¬inUse → ∀ lines : List RecipeLine, lines.map (fun y => (y.additive.toNat, y.dose)) = x.lines →
        let new : RecipeRecord :=
          { product := x.product, lines := lines, tolerance := match x.tolerance with | none => 50 | some t => t }
        (s.wc.recipes.find x.code = some new → s.replies (exec (.writeRecipe l) s) l r .ok [] (s.planReset l))
        ∧ (s.wc.recipes.find x.code ≠ some new →
          (8 ≤ s.nvc.queue.length → refuses .busy)
          ∧ (s.nvc.queue.length < 8 →
            s.answers (exec (.writeRecipe l) s) l r .ok [] (s.planReset l) []
              (s.commit (.recipe x.code new) .setting)))))

/-- SET_BAY_SERVICE OUT takes a LOCKED bay to OUT_OF_SERVICE; it closes the session of a bay in IDENT, SIGNED, PLANNING or LOADING
with both arms IDLE, the held order released; in LOADING with an arm not IDLE it sets close pending and raises BAY_OUT_OF_SERVICE on
both arms, with CAUSE_RAISED. IN brings an OUT_OF_SERVICE bay back to LOCKED and calls off a pending close. Each writes its flag as
one setting-class entry, and is refused BUSY where 8 or more are queued; a setting that changes nothing is answered OK without one.
A bay above 1 or a setting above 1 is refused RANGE (R68, R86, R88, R89). -/
def Obligations.BayServiceIsSet : Prop :=
  (∀ (l : Link) (r : Request) (n k : Nat) (s : State), s.asksAs .office l r 0x49#8 formTwoBytes (n, k) → (1 < n ∨ 1 < k) →
    s.replies (exec (.setBayService l) s) l r .range [] (s.planReset l))
  ∧ ∀ (l : Link) (r : Request) (b : Bay) (s : State),
    let bay := s.bsc.get b
    let allIdle := ∀ a ∈ b.arms, (s.fc.get a).state = .idle
    let written : Bool → State := fun out => s.commit (.bayService b out) .setting
    (s.asksAs .office l r 0x49#8 formTwoBytes (b.toNat, 0) →
      ((bay.status = .outOfService ∨ (bay.status = .loading ∧ bay.closePending = true)) →
        s.replies (exec (.setBayService l) s) l r .ok [] (s.planReset l))
      ∧ (bay.status ≠ .outOfService → (bay.status ≠ .loading ∨ bay.closePending = false) →
        (8 ≤ s.nvc.queue.length → s.replies (exec (.setBayService l) s) l r .busy [] (s.planReset l))
        ∧ (s.nvc.queue.length < 8 →
          (bay.status = .locked →
            s.answers (exec (.setBayService l) s) l r .ok [] (s.planReset l) [.bayChanged b]
              { written true with bsc := s.bsc.set b { bay with status := .outOfService } })
          ∧ (∀ d, (bay.status ∈ [BayStatus.ident, .signed, .planning] ∨ (bay.status = .loading ∧ allIdle)) →
            bay.driver = some d →
            (bay.order = none →
              s.answers (exec (.setBayService l) s) l r .ok [] (s.planReset l) [.bayChanged b]
                { written true with
                  pt := { bound := s.pt.bound.remove d }, bsc := s.bsc.set b (bay.closed .outOfService) })
            ∧ ∀ n o, bay.order = some n → s.ob.orders.find n = some o →
              s.answers (exec (.setBayService l) s) l r .ok [] (s.planReset l) [.bayChanged b]
                { written true with
                  pt := { bound := s.pt.bound.remove d }, bsc := s.bsc.set b (bay.closed .outOfService)
                  ob := { orders := s.ob.orders.put n o.letGo } })
          ∧ (bay.status = .loading → ¬allIdle →
            let u := State.raiseOn { written true with bsc := s.bsc.set b { bay with closePending := true } } b.arms
              .bayOutOfService
            u.answers (exec (.setBayService l) s) l r .ok [] (s.planReset l) [] u))))
    ∧ (s.asksAs .office l r 0x49#8 formTwoBytes (b.toNat, 1) →
      (bay.status ≠ .outOfService → (bay.status ≠ .loading ∨ bay.closePending = false) →
        s.replies (exec (.setBayService l) s) l r .ok [] (s.planReset l))
      ∧ ((bay.status = .outOfService ∨ (bay.status = .loading ∧ bay.closePending = true)) →
        (8 ≤ s.nvc.queue.length → s.replies (exec (.setBayService l) s) l r .busy [] (s.planReset l))
        ∧ (s.nvc.queue.length < 8 →
          (bay.status = .outOfService →
            s.answers (exec (.setBayService l) s) l r .ok [] (s.planReset l) [.bayChanged b]
              { written false with bsc := s.bsc.set b { bay with status := .locked } })
          ∧ (bay.status = .loading →
            s.answers (exec (.setBayService l) s) l r .ok [] (s.planReset l) []
              { written false with bsc := s.bsc.set b { bay with closePending := false } }))))

/-- OFFICE_STOP acts on both arms of a bay: one that holds OFFICE_STOP has its release mark cleared, and on any other the cause is
raised, with CAUSE_RAISED where it joins the set: an IDLE arm stays as it was, a flowing one goes to PAUSED. OFFICE_RELEASE sets the
release mark of each arm that holds OFFICE_STOP and answers the arms whose mark is set. Neither touches the other bay's arms, and
either is refused RANGE for a bay above 1 (R129). -/
def Obligations.OfficeStopsAndReleases : Prop :=
  (∀ (c : Instr) (code : Byte) (l : Link) (r : Request) (n : Nat) (s : State),
    (c, code) ∈ [(Instr.officeStop l, 0x4A#8), (.officeRelease l, 0x4B#8)] → s.asksAs .office l r code formByte n → 1 < n →
    s.replies (exec c s) l r .range [] (s.planReset l))
  ∧ ∀ (l : Link) (r : Request) (b : Bay) (s : State),
    (s.asksAs .office l r 0x4A#8 formByte b.toNat →
      let u := b.arms.foldl (fun t a =>
        if StopCause.officeStop ∈ (s.fc.get a).causes then
          { t with fc := t.fc.set a { s.fc.get a with releaseMark := false } }
        else t.raiseCause a .officeStop) s
      u.answers (exec (.officeStop l) s) l r .ok
        (listBytes (fun a : Arm => natBytes 1 a.toNat) (b.arms.filter fun a => (u.fc.get a).causes.contains .officeStop))
        (s.planReset l) [] u
      ∧ ∀ a,
        (a.bay ≠ b → u.fc.get a = s.fc.get a)
        ∧ (a.bay = b → (s.fc.get a).state = .idle → StopCause.officeStop ∉ (s.fc.get a).causes → u.fc.get a = s.fc.get a)
        ∧ (a.bay = b → StopCause.officeStop ∈ (s.fc.get a).causes →
            u.fc.get a = { s.fc.get a with releaseMark := false })
        ∧ (a.bay = b → (s.fc.get a).state ≠ .idle → StopCause.officeStop ∉ (s.fc.get a).causes →
            StopCause.officeStop ∈ (u.fc.get a).causes
            ∧ ((s.fc.get a).state ∈ [ArmState.lowStart, .highFlow, .topOff] →
                (u.fc.get a).state = .paused ∧ (u.fc.get a).command = .close)))
    ∧ (s.asksAs .office l r 0x4B#8 formByte b.toNat →
      let released : PerArm FlowController := .tabulate fun a =>
        if a.bay = b ∧ StopCause.officeStop ∈ (s.fc.get a).causes then { s.fc.get a with releaseMark := true }
        else s.fc.get a
      s.answers (exec (.officeRelease l) s) l r .ok
        (listBytes (fun a : Arm => natBytes 1 a.toNat) (b.arms.filter fun a => (released.get a).releaseMark))
        (s.planReset l) [] { s with fc := released })

/-- SET_STOCK writes the record with the stock at most the capacity, raises STOCK_LOW where the stock goes from at or above the
old reserve to below the new one, and answers the stock as taken. Its checks before that are RANGE, for a type outside 1 to 6, a
capacity above 20,000,000 or a reserve above the capacity, and BUSY; a refusal changes nothing. A repeat is a SET_STOCK like the
first: the values the type holds make an entry too, or are refused BUSY. READ_STOCK returns every record, pump and channel (R6, R143,
R144, R165). That R165's exception does not reach SET_STOCK is R6 and R143 read over it (log 35); the code of a channel's place is the
model's (log 14). -/
def Obligations.StockIsSetAndRead : Prop :=
  ∀ (l : Link) (r : Request) (s : State),
    (∀ x : StockFields, s.asksAs .office l r 0x4C#8 formSetStock x →
      let ranged := 1 ≤ x.additive ∧ x.additive ≤ 6 ∧ x.capacity ≤ 20000000 ∧ x.reserve ≤ x.capacity
      ¬ranged → s.replies (exec (.setStock l) s) l r .range [] (s.planReset l))
    ∧ (∀ (t : Additive) (stock capacity reserve : Nat),
      s.asksAs .office l r 0x4C#8 formSetStock
        { additive := t.toNat, stock := stock, capacity := capacity, reserve := reserve } →
      capacity ≤ 20000000 → reserve ≤ capacity →
      let old := s.wc.stock.get t
      let new : StockRecord := { stock := min stock capacity, capacity := capacity, reserve := reserve }
      (8 ≤ s.nvc.queue.length → s.replies (exec (.setStock l) s) l r .busy [] (s.planReset l))
      ∧ (s.nvc.queue.length < 8 →
        s.answers (exec (.setStock l) s) l r .ok (natBytes 4 (min stock capacity)) (s.planReset l)
          (if old.reserve ≤ old.stock ∧ min stock capacity < reserve then [.stockLow] else [])
          (s.commit (.stock (s.wc.stock.set t new)) .setting)))
    ∧ (s.asksAs .office l r 0x4D#8 formEmpty () →
      s.replies (exec (.readStock l) s) l r .ok
        ([Additive.type1, .type2, .type3, .type4, .type5, .type6].flatMap (fun t =>
            natBytes 4 (s.wc.stock.get t).stock ++ natBytes 4 (s.wc.stock.get t).capacity
              ++ natBytes 4 (s.wc.stock.get t).reserve)
          ++ [Additive.type1, .type2, .type3, .type4, .type5, .type6].flatMap (fun t =>
            natBytes 1 (s.adu.pumps.get t).status.code
              ++ listBytes (fun c : Channel => natBytes 1 c.toNat) (s.adu.pumps.get t).queue)
          ++ [Channel.ch0, .ch1, .ch2, .ch3, .ch4, .ch5, .ch6, .ch7].flatMap (fun c =>
            additiveByte (s.wc.injectors.get c).additive ++ natBytes 1 (s.adu.channels.get c).place.code
              ++ natBytes 2 (s.adu.channels.get c).owed ++ natBytes 1 (s.adu.channels.get c).failed
              ++ natBytes 4 (s.adu.channels.get c).leak)) (s.planReset l))

/-- SET_CLOCK sets the count to the number it carries and the set flag. RACK_CLOCK_TICK adds 1 to the count in every condition of
the part, and after 4,294,967,295 it is 0. Neither changes anything else (R17, R18). -/
def Obligations.ClockIsSetAndTicks : Prop :=
  (∀ (l : Link) (r : Request) (n : Nat) (s : State), s.asksAs .office l r 0x50#8 formLong n →
    let u : State := { s with lc := { s.lc with clock := { count := n, isSet := true } } }
    u.answers (exec (.setClock l) s) l r .ok [] (s.planReset l) [] u)
  ∧ ∀ s : State,
    (s.lc.clock.count < 4294967295 →
      exec .rackClockTick s = .next
        { s with lc := { s.lc with clock := { count := s.lc.clock.count + 1, isSet := s.lc.clock.isSet } } })
    ∧ (s.lc.clock.count = 4294967295 →
      exec .rackClockTick s = .next { s with lc := { s.lc with clock := { count := 0, isSet := s.lc.clock.isSet } } })

/-- READ_NOTE returns the k-th note from the oldest with every field of its record, absent fields marked as absent, and the
number of notes held; with k at or above that number it is refused NOT_FOUND. It changes no state (R154). -/
def Obligations.NoteIsRead : Prop :=
  ∀ (l : Link) (r : Request) (k : Nat) (s : State), s.asksAs .office l r 0x4E#8 formByte k →
    (∀ hk : k < s.wc.notes.length,
      let n := s.wc.notes[k]
      s.replies (exec (.readNote l) s) l r .ok
        (natBytes 4 n.number ++ natBytes 1 n.bay.toNat ++ natBytes 1 n.arm.toNat ++ natBytes 4 n.order
          ++ natBytes 1 n.compartment ++ natBytes 4 n.driver ++ (natBytes 1 n.vehicle.length ++ n.vehicle)
          ++ natBytes 1 n.product ++ optionalBytes (natBytes 1) n.recipe ++ optionalBytes (natBytes 4) n.startTime
          ++ optionalBytes (natBytes 4) n.endTime ++ natBytes 2 n.preset ++ natBytes 4 n.gross ++ natBytes 4 n.net
          ++ intBytes n.temperature ++ natBytes 8 n.openGross ++ natBytes 8 n.openNet ++ natBytes 8 n.closeGross
          ++ natBytes 8 n.closeNet
          ++ listBytes (fun y : NoteLine =>
              natBytes 1 y.additive.toNat ++ natBytes 4 y.required ++ natBytes 4 y.injected ++ natBytes 2 y.shots) n.lines
          ++ natBytes 1 n.endReason.code
          ++ natBytes 1 ((if n.tempSubstituted then 1 else 0) + (if n.probeFault then 2 else 0)
              + (if n.vcfClamped then 4 else 0) + (if n.overrun then 8 else 0) + (if n.deviation then 16 else 0)
              + (if n.pulseErrorsSeen then 32 else 0) + (if n.recovered then 64 else 0))
          ++ natBytes 1 s.wc.notes.length) (s.planReset l))
    ∧ (s.wc.notes.length ≤ k → s.replies (exec (.readNote l) s) l r .notFound [] (s.planReset l))

/-- RELEASE_NOTE of the oldest note removes it, with one end-class release entry, whatever the queue holds; a hand-over held behind
that note's own entry is taken with it, in the same event, as the HAND_OVER it waited for, so the response shows it (log 11). Of a
later note it is refused NOT_OLDEST, of a number no note has NOT_FOUND, out of range RANGE, and then changes nothing (R155, R163,
R166). -/
def Obligations.OldestNoteIsReleased : Prop :=
  ∀ (l : Link) (r : Request) (n : Nat) (s : State), s.asksAs .office l r 0x4F#8 formLong n →
    ((n < 1 ∨ 999999 < n) → s.replies (exec (.releaseNote l) s) l r .range [] (s.planReset l))
    ∧ (1 ≤ n → n ≤ 999999 →
      (∀ oldest rest, s.wc.notes = oldest :: rest → oldest.number = n →
        let released := s.commit (.release n) .endClass
        released.wc = { s.wc with notes := rest }
        ∧ (∃ u, s.freed released = .next u
          ∧ u.answers (exec (.releaseNote l) s) l r .ok [] (u.planReset l) [] u)
        ∧ ((∀ a, (s.fc.get a).state ≠ .ending) →
          s.answers (exec (.releaseNote l) s) l r .ok [] (s.planReset l) [] released))
      ∧ (∀ oldest rest, s.wc.notes = oldest :: rest → oldest.number ≠ n → (∃ x ∈ rest, x.number = n) →
        s.replies (exec (.releaseNote l) s) l r .notOldest [] (s.planReset l))
      ∧ ((∀ x ∈ s.wc.notes, x.number ≠ n) → s.replies (exec (.releaseNote l) s) l r .notFound [] (s.planReset l)))

/-! ### The Service requests, the seal and the NV Write Queue (R21, R56, R110, R130, R133, R134, R165, R169 to R172) -/

/-- WRITE_PRODUCT: RANGE, then for a write that defines a product or changes its α the checks of the seal, the counter and the arms,
then BUSY. Accepted, it writes the record with one setting-class entry; a sealed write also raises the counter by 1 and adds an
audit entry with the old and new α, the oldest of 32 making room. That the
product's entry joins the queue before the audit entry is the model's (log 37). A write of the values held is answered OK with no entry
and is not refused BUSY: R165 read over R56 (log 35) (R56, R165, R169 to R171). -/
def Obligations.ProductIsWritten : Prop :=
  ∀ (l : Link) (r : Request) (x : ProductFields) (s : State), s.asksAs .service l r 0x60#8 formWriteProduct x →
    let refuses : ResultCode → Prop := fun res => s.replies (exec (.writeProduct l) s) l r res [] (s.planReset l)
    let accepts : State → Prop := fun u => s.answers (exec (.writeProduct l) s) l r .ok [] (s.planReset l) [] u
    let ranged := 1 ≤ x.code ∧ x.code ≤ 15 ∧ 1 ≤ x.cls ∧ x.cls ≤ 8 ∧ x.alpha ≤ 20000 ∧ -4000 ≤ x.fallback ∧ x.fallback ≤ 7000
    let old := (s.wc.products.find x.code).map ProductRecord.alpha
    let written := s.commit (.product x.code { cls := x.cls, alpha := x.alpha, fallback := x.fallback }) .setting
    let audit := s.wc.audit
    let entry : AuditEntry :=
      { counter := audit.counter + 1, time := if s.lc.clock.isSet then some s.lc.clock.count else none
        subject := .product x.code, changes := [.alpha old x.alpha] }
    (¬ranged → refuses .range)
    ∧ (ranged → old ≠ some x.alpha →
      (s.accepts .sealSwitch = false → refuses .sealedParameter)
      ∧ (s.accepts .sealSwitch = true →
        (4294967295 ≤ audit.counter → refuses .sealedParameter)
        ∧ (audit.counter < 4294967295 →
          ((∃ a, (s.wc.arms.get a).product = x.code ∧ (s.fc.get a).state ≠ .idle) → refuses .state)
          ∧ ((∀ a, (s.wc.arms.get a).product = x.code → (s.fc.get a).state = .idle) →
            (8 ≤ s.nvc.queue.length → refuses .busy)
            ∧ (s.nvc.queue.length < 8 →
              accepts (written.commit (.audit
                { counter := audit.counter + 1
                  entries := (if 32 ≤ audit.entries.length then audit.entries.tail else audit.entries) ++ [entry] })
                .setting))))))
    ∧ (ranged → old = some x.alpha →
      let new : ProductRecord := { cls := x.cls, alpha := x.alpha, fallback := x.fallback }
      (s.wc.products.find x.code = some new → accepts s)
      ∧ (s.wc.products.find x.code ≠ some new →
        (8 ≤ s.nvc.queue.length → refuses .busy) ∧ (s.nvc.queue.length < 8 → accepts written)))

/-- WRITE_ARM: RANGE as a whole, then for a write that changes a sealed field the checks of the seal, the counter and the arm, then
STATE for a new product on a working arm, then BUSY. Accepted, it writes the record, the three rates taken as the nearer limits,
each against those before it; a sealed write raises the counter and lists each changed parameter in an audit entry; a new
initial lead sets the learned lead, and the lead maximum bounds it. That the arm's entry joins the queue before the audit
entry is the model's (log 37). A write of the values held is answered OK with no entry and is not refused BUSY: R165 read over R130
(log 35) (R30, R110, R130, R165, R169 to R171). -/
def Obligations.ArmIsWritten : Prop :=
  ∀ (l : Link) (r : Request) (x : ArmFields) (s : State), s.asksAs .service l r 0x61#8 formWriteArm x →
    let refuses : ResultCode → Prop := fun res => s.replies (exec (.writeArm l) s) l r res [] (s.planReset l)
    let accepts : State → Prop := fun u => s.answers (exec (.writeArm l) s) l r .ok [] (s.planReset l) [] u
    let ranged := x.arm ≤ 3 ∧ x.product ≤ 15 ∧ (∀ k, x.kMilli = some k → 1000 ≤ k ∧ k ≤ 999999)
      ∧ 1 ≤ x.mf.length ∧ x.mf.length ≤ 6 ∧ (x.mf.map Prod.fst).Pairwise (· < ·)
      ∧ (∀ p ∈ x.mf, p.1 ≤ 9999 ∧ 90000 ≤ p.2 ∧ p.2 ≤ 110000) ∧ -10000 ≤ x.offset ∧ x.offset ≤ 10000 ∧ x.span ≤ 30000
      ∧ x.mode ≤ 1 ∧ x.fidelity ≤ 10 ∧ 10 ≤ x.deadband ∧ x.deadband ≤ 200 ∧ 50 ≤ x.startVolume ∧ x.startVolume ≤ 1000
      ∧ 50 ≤ x.topOffVolume ∧ x.topOffVolume ≤ 2000 ∧ x.initialLead ≤ 50000 ∧ x.leadMaximum ≤ 50000
      ∧ x.overrunLimit ≤ 200 ∧ 5 ≤ x.noFlowTime ∧ x.noFlowTime ≤ 60 ∧ x.atcRequired ≤ 1
    (¬ranged → refuses .range)
    ∧ ∀ (a : Arm) (p : Nat × Nat) (rest : List (Nat × Nat)), ranged → x.arm = a.toNat → x.mf = p :: rest →
      let old := s.wc.arms.get a
      let maxRate := max 100 (min 4000 x.maxRate)
      let lowRate := max 50 (min maxRate x.lowRate)
      let new : ArmRecord :=
        { product := x.product, kMilli := x.kMilli
          mf := { first := { rate := p.1, mf := p.2 }, rest := rest.map fun q => { rate := q.1, mf := q.2 } }
          offset := x.offset, span := x.span, mode := if x.mode = 0 then .single else .dual, fidelity := x.fidelity
          maxRate := maxRate, lowRate := lowRate, highRate := max lowRate (min maxRate x.highRate), deadband := x.deadband
          startVolume := x.startVolume, topOffVolume := x.topOffVolume, initialLead := x.initialLead
          leadMaximum := x.leadMaximum, overrunLimit := x.overrunLimit, noFlowTime := x.noFlowTime
          atcRequired := decide (x.atcRequired = 0) }
      let audit := s.wc.audit
      let idle := (s.fc.get a).state = .idle
      let entry : AuditEntry :=
        { counter := audit.counter + 1, time := if s.lc.clock.isSet then some s.lc.clock.count else none, subject := .arm a
          changes :=
            (if old.kMilli = new.kMilli then [] else [.kMilli old.kMilli new.kMilli])
              ++ (if old.mode = new.mode then [] else [.mode old.mode new.mode])
              ++ (if old.fidelity = new.fidelity then [] else [.fidelity old.fidelity new.fidelity])
              ++ (if old.mf = new.mf then [] else [.mf old.mf.summary new.mf.summary])
              ++ (if old.offset = new.offset then [] else [.offset old.offset new.offset])
              ++ (if old.span = new.span then [] else [.span old.span new.span]) }
      let lead := min (if new.initialLead = old.initialLead then (s.fc.get a).lead else new.initialLead) new.leadMaximum
      let written := s.commit (.arm a new) .setting
      let fc := s.fc.set a { s.fc.get a with lead := lead }
      (old.sealedPart ≠ new.sealedPart →
        (s.accepts .sealSwitch = false → refuses .sealedParameter)
        ∧ (s.accepts .sealSwitch = true →
          (4294967295 ≤ audit.counter → refuses .sealedParameter)
          ∧ (audit.counter < 4294967295 → (¬idle → refuses .state)
            ∧ (idle → (8 ≤ s.nvc.queue.length → refuses .busy)
              ∧ (s.nvc.queue.length < 8 →
                accepts
                  { written.commit (.audit
                      { counter := audit.counter + 1
                        entries := (if 32 ≤ audit.entries.length then audit.entries.tail else audit.entries) ++ [entry] })
                      .setting with
                    fc := fc })))))
      ∧ (old.sealedPart = new.sealedPart →
        (¬idle → new.product ≠ old.product → refuses .state)
        ∧ ((idle ∨ new.product = old.product) →
          (new = old → accepts s)
          ∧ (new ≠ old → (8 ≤ s.nvc.queue.length → refuses .busy)
            ∧ (s.nvc.queue.length < 8 → accepts { written with fc := fc }))))

/-- WRITE_INJECTOR, WRITE_PUMP and WRITE_RACK check their ranges first, WRITE_INJECTOR then its arm and WRITE_RACK then the driver
records, and BUSY last. Accepted, each writes its record with one setting-class entry; WRITE_RACK takes its three settings as
the nearer limits. That WRITE_RACK checks its ranges before the driver records is the model's (log 25). A write of the
values held is answered OK with no entry and is not refused BUSY: R165 read over the owners' rules (log 35) (R21, R39, R93, R128, R133,
R134, R165). -/
def Obligations.InjectorsPumpsAndRackAreWritten : Prop :=
  ∀ (l : Link) (r : Request) (s : State),
    (∀ x : InjectorFields, s.asksAs .service l r 0x62#8 formWriteInjector x →
      let refuses : ResultCode → Prop := fun res => s.replies (exec (.writeInjector l) s) l r res [] (s.planReset l)
      let ranged := x.channel ≤ 7 ∧ x.additive ≤ 6 ∧ 10 ≤ x.shotVolume ∧ x.shotVolume ≤ 500 ∧ 1000 ≤ x.kMilli
        ∧ x.kMilli ≤ 9999999 ∧ 200 ≤ x.timeLimit ∧ x.timeLimit ≤ 5000
      (¬ranged → refuses .range)
      ∧ ∀ c : Channel, ranged → x.channel = c.toNat →
        ((s.fc.get c.arm).state ≠ .idle → refuses .state)
        ∧ ((s.fc.get c.arm).state = .idle →
          let new : InjectorRecord :=
            { additive := Additive.ofNat? x.additive, shotVolume := x.shotVolume, kMilli := x.kMilli
              timeLimit := x.timeLimit }
          (s.wc.injectors.get c = new → s.replies (exec (.writeInjector l) s) l r .ok [] (s.planReset l))
          ∧ (s.wc.injectors.get c ≠ new →
            (8 ≤ s.nvc.queue.length → refuses .busy)
            ∧ (s.nvc.queue.length < 8 →
              s.answers (exec (.writeInjector l) s) l r .ok [] (s.planReset l) [] (s.commit (.injector c new) .setting)))))
    ∧ (∀ n rest : Nat, s.asksAs .service l r 0x63#8 formWritePump (n, rest) →
      let refuses : ResultCode → Prop := fun res => s.replies (exec (.writePump l) s) l r res [] (s.planReset l)
      let ranged := 1 ≤ n ∧ n ≤ 6 ∧ 100 ≤ rest ∧ rest ≤ 2000
      (¬ranged → refuses .range)
      ∧ ∀ p : Additive, ranged → n = p.toNat →
        (s.wc.pumpRest.get p = rest → s.replies (exec (.writePump l) s) l r .ok [] (s.planReset l))
        ∧ (s.wc.pumpRest.get p ≠ rest →
          (8 ≤ s.nvc.queue.length → refuses .busy)
          ∧ (s.nvc.queue.length < 8 →
            s.answers (exec (.writePump l) s) l r .ok [] (s.planReset l) [] (s.commit (.pump p rest) .setting))))
    ∧ ∀ x : RackFields, s.asksAs .service l r 0x64#8 formWriteRack x →
      let refuses : ResultCode → Prop := fun res => s.replies (exec (.writeRack l) s) l r res [] (s.planReset l)
      let choices := ∀ d ∈ x.debounce, d ∈ [8, 64, 250, 1000]
      let limit := max 1 (min 9 x.attemptLimit)
      let inStep := ∀ e ∈ s.wc.drivers,
        (e.2.status = .active → e.2.failed < limit) ∧ (e.2.status = .blocked → e.2.failed ≤ limit)
      (¬choices → refuses .range)
      ∧ (choices → (¬inStep → refuses .state)
        ∧ (inStep → ∃ debounce : PerInput Nat, DiscreteInput.all.map debounce.get = x.debounce
          ∧ let new : RackConfig :=
              { debounce := debounce, attemptLimit := limit, deadmanInterval := max 30 (min 600 x.deadmanInterval)
                pauseTimeout := max 60 (min 3600 x.pauseTimeout) }
            (s.wc.rack = new → s.replies (exec (.writeRack l) s) l r .ok [] (s.planReset l))
            ∧ (s.wc.rack ≠ new →
              (8 ≤ s.nvc.queue.length → refuses .busy)
              ∧ (s.nvc.queue.length < 8 →
                s.answers (exec (.writeRack l) s) l r .ok [] (s.planReset l) [] (s.commit (.rack new) .setting)))))

/-- READ_AUDIT returns the k-th newest entry, the calibration change counter and the number of entries held, whatever the seal's
level; with k at or above that number it is refused NOT_FOUND. It changes no state. How the subject and the changes are written
is the model's (log 14) (R171, R172). -/
def Obligations.AuditIsRead : Prop :=
  ∀ (l : Link) (r : Request) (k : Nat) (s : State), s.asksAs .service l r 0x65#8 formByte k →
    let held := s.wc.audit.entries
    (∀ hk : k < held.length,
      let e := held[held.length - 1 - k]
      s.replies (exec (.readAudit l) s) l r .ok
        (natBytes 4 e.counter ++ optionalBytes (natBytes 4) e.time ++ e.subject.payload
          ++ listBytes ParameterChange.payload e.changes ++ natBytes 4 s.wc.audit.counter ++ natBytes 1 held.length)
        (s.planReset l))
    ∧ (held.length ≤ k → s.replies (exec (.readAudit l) s) l r .notFound [] (s.planReset l))

/-- While the NV Write Queue holds 8 or more entries, no setting request changes anything outside the Link Controller, SET_BAY_SERVICE
among them: a request answered OK then is one that with an empty queue too would leave every working copy as it is. A DELETE_DRIVER
or a SET_STOCK is never answered OK then (R165; that the values held need no entry at any owner but SET_STOCK's: log 35). -/
def Obligations.FullQueueStopsSettings : Prop :=
  ∀ (c : Instr) (s : State), c.needsSetting = true → 8 ≤ s.nvc.queue.length →
    ∃ t u, exec c s = .next t ∧ t = { s with lc := t.lc }
      ∧ exec c { s with nvc := { s.nvc with queue := [] } } = .next u
      ∧ ∀ k resp, (t.lc.links.get k).slot = .responding resp → resp.result = .ok →
        (s.lc.links.get k).slot = .responding resp ∨ (u.wc = s.wc ∧ c ≠ .deleteDriver k ∧ c ≠ .setStock k)

/-- While the seal input is closed, no command but a reset changes a sealed parameter, the calibration change counter or the Audit
List, from any state (R169 to R171). -/
def Obligations.ClosedSealKeepsTheSealed : Prop :=
  ∀ (c : Instr) (s t : State), c.isReset = false → s.accepts .sealSwitch = false → exec c s = .next t → s.sameSealed t

/-! ### Frames and responses on a link (R1 to R3, R5, R12, R14, R174) -/

/-- The characters of a request frame, taken one by one by a link that hunts with an empty slot, make exactly that request
pending: the tag, the code and up to 200 payload bytes of any value. With a wrong last CRC character the frame is discarded and
LINK_ERROR set, and nothing else changes (R1 to R3, R174). -/
def Obligations.FrameIsReceived : Prop :=
  ∀ (l : Link) (r : Request) (s : State), s.condition = .running ∨ s.condition = .restoring → s.ic.warning = false →
    (s.lc.links.get l).receiver = .hunting → (s.lc.links.get l).slot = .empty → r.payload.length ≤ 200 →
    execAll (r.bytes.map fun c => .characterReceived l c true) s =
      .next
        { s with
          lc :=
            { s.lc with links := s.lc.links.set l { s.lc.links.get l with slot := .pending r } } }
    ∧ ∀ c, r.bytes.getLast? ≠ some c →
      s.becomes (execAll ((r.bytes.dropLast ++ [c]).map fun c => .characterReceived l c true) s) [.linkError l] s

/-- A character on a link of a part out of reset. Hunting, only a start marker with its stop bit is taken. Collecting, a missing stop
bit, a length above 200 or a wrong CRC discards the frame with LINK_ERROR, whatever the slot; a character short of the whole frame
joins those held, and the last one makes the frame pending, or sets LINK_OVERRUN where the slot is occupied, or is lost without a
flag while the warning is asserted. A gap discards a frame in collection with LINK_ERROR; that it changes nothing while the link
hunts is the model's (log 2). The end of a response empties the slot and clears the C flags its status word showed set, but for
those raised after its capture, and no other (R2, R3, R5, R12 to R14, R177). -/
def Obligations.LinkEventsMoveTheReceiver : Prop :=
  ∀ (l : Link) (s : State), s.condition = .running ∨ s.condition = .restoring →
    let link := s.lc.links.get l
    let withLink : StationLink → State := fun k => { s with lc := { s.lc with links := s.lc.links.set l k } }
    let hunts := withLink { link with receiver := .hunting }
    (∀ c stop, link.receiver = .hunting →
      exec (.characterReceived l c stop) s =
        .next (if stop = true ∧ c = 0x7E#8 then withLink { link with receiver := .collecting [] } else s))
    ∧ (∀ bytes c, link.receiver = .collecting bytes →
      hunts.becomes (exec (.characterReceived l c false) s) [.linkError l] hunts
      ∧ (∀ tag code, bytes = [tag, code] → 200 < c.toNat →
        hunts.becomes (exec (.characterReceived l c true) s) [.linkError l] hunts)
      ∧ (∀ (r : Request) (body : List Byte) (x y x' : Byte), r.payload.length ≤ 200 → r.bytes = body ++ [x, y] →
        [0x7E#8] ++ bytes ++ [c] = body ++ [x', c] → (x' ≠ x ∨ c ≠ y) →
        hunts.becomes (exec (.characterReceived l c true) s) [.linkError l] hunts)
      ∧ (∀ (r : Request) (rest : List Byte), r.payload.length ≤ 200 → r.bytes = [0x7E#8] ++ bytes ++ [c] ++ rest →
        (rest ≠ [] →
          exec (.characterReceived l c true) s = .next (withLink { link with receiver := .collecting (bytes ++ [c]) }))
        ∧ (rest = [] →
          (s.ic.warning = true → exec (.characterReceived l c true) s = .next hunts)
          ∧ (s.ic.warning = false →
            (link.slot = .empty →
              exec (.characterReceived l c true) s =
                .next (withLink { link with receiver := .hunting, slot := .pending r }))
            ∧ (link.slot ≠ .empty →
              hunts.becomes (exec (.characterReceived l c true) s) [.linkOverrun l] hunts)))))
    ∧ (link.receiver = .hunting → exec (.gapTimeout l) s = .next s)
    ∧ (∀ bytes, link.receiver = .collecting bytes → hunts.becomes (exec (.gapTimeout l) s) [.linkError l] hunts)
    ∧ ∀ resp, link.slot = .responding resp →
      exec (.responseSent l) s =
        .next (withLink
          { link with
            slot := .empty
            flags :=
              { noteAdded := link.flags.noteAdded && (!resp.status.getLsbD 13 || link.raised.noteAdded)
                causeRaised := link.flags.causeRaised && (!resp.status.getLsbD 12 || link.raised.causeRaised)
                bayChanged := link.flags.bayChanged && (!resp.status.getLsbD 11 || link.raised.bayChanged)
                stockLow := link.flags.stockLow && (!resp.status.getLsbD 10 || link.raised.stockLow)
                inputChanged := link.flags.inputChanged && (!resp.status.getLsbD 9 || link.raised.inputChanged)
                unauthorizedFlow := link.flags.unauthorizedFlow && (!resp.status.getLsbD 8 || link.raised.unauthorizedFlow)
                linkError := link.flags.linkError && (!resp.status.getLsbD 7 || link.raised.linkError)
                linkOverrun := link.flags.linkOverrun && (!resp.status.getLsbD 6 || link.raised.linkOverrun)
                roleConflict := link.flags.roleConflict && (!resp.status.getLsbD 5 || link.raised.roleConflict) } })

/-! ### Discrete inputs, meter edges and additive pulses (R19 to R31, R122, R138 to R142) -/

/-- A line that moves: settled, its change timer runs exactly while the line differs from the accepted level; before that it
restarts at every move. An expiry accepts the line's level, and a change sets INPUT_CHANGED. A permissive
accepted absent cuts off the shots of its bay and raises PERMISSIVE_LOST on the bay's arms, a parked input raises it on its arm; the
emergency stop accepted active raises EMERGENCY_STOP on every arm, cuts off every shot and empties every queue; back to inactive,
every IDLE pump with a queue serves the oldest of it, with no warning. A
button pressed restarts the dead-man timer of a bay that flows; held from reset, or past its stuck timer, it is STUCK (R19, R20,
R22, R24, R25, R92, R122, R138, R140). The set of arms that left flow in
WARNING is the model's (log 32). -/
def Obligations.InputsAreAccepted : Prop :=
  ∀ (d : DiscreteInput) (s : State), s.condition = .running ∨ s.condition = .restoring →
    let x := s.ic.inputs.get d
    let withInput : InputState → State := fun y => { s with ic := { s.ic with inputs := s.ic.inputs.set d y } }
    let accepted := withInput { x with accepted := x.line, settled := true, timing := false }
    (∀ level, x.line ≠ level →
      (x.settled = true →
        exec (.discreteLineChange d level) s =
          .next (withInput { x with line := level, timing := decide (level ≠ x.accepted) }))
      ∧ (x.settled = false →
        exec (.discreteLineChange d level) s = .next (withInput { x with line := level, timing := true })))
    ∧ (x.timing = true → x.accepted = x.line → exec (.debounceExpiry d) s = .next accepted)
    ∧ (x.timing = true → x.accepted ≠ x.line →
      ((d = .sealSwitch ∨ (x.line = .energized ∧ ((∃ p b, d = .permissive p b) ∨ ∃ a, d = .parked a))) →
        s.becomes (exec (.debounceExpiry d) s) [.inputChanged d] accepted)
      ∧ (x.line = .deenergized →
        ∀ (hit : Arm → Prop) (cause : StopCause) (ends : ArmState),
        (((∃ p b, d = .permissive p b ∧ ∀ a, hit a ↔ a.bay = b) ∨ ∃ a', d = .parked a' ∧ ∀ a, hit a ↔ a = a')
            ∧ cause = .permissiveLost ∧ ends = .paused
          ∨ (d = .emergencyStop ∧ ∀ a, hit a) ∧ cause = .emergencyStop ∧ ends = .closing) →
        ∃ v t, s.becomes (.next v) [.inputChanged d] accepted ∧ exec (.debounceExpiry d) s = .next t
          ∧ (∀ p b, d = .permissive p b →
            t = (v.cutShots fun c => decide (c.arm.bay = b)).raiseOn b.arms .permissiveLost)
          ∧ (∀ a, d = .parked a → t = v.raiseCause a .permissiveLost)
          ∧ (d = .emergencyStop →
            t = [Arm.arm0, .arm1, .arm2, .arm3].foldl State.dosingLeft
              ((v.raiseOn [.arm0, .arm1, .arm2, .arm3] .emergencyStop).cutShots fun _ => true))
          ∧ (∀ a, ¬hit a → t.fc.get a = s.fc.get a)
          ∧ (∀ a, hit a → (s.fc.get a).state = .idle → t.fc.get a = s.fc.get a)
          ∧ (∀ a, hit a → (s.fc.get a).state ≠ .idle → cause ∈ (t.fc.get a).causes
            ∧ (cause ∉ (s.fc.get a).causes → (s.fc.get a).state ∈ [ArmState.lowStart, .highFlow, .topOff] →
              (t.fc.get a).state = ends ∧ (t.fc.get a).command = .close))
          ∧ (d = .emergencyStop → (∀ p c, (t.adu.pumps.get p).status ≠ .shot c)
            ∧ ∀ c, (t.adu.channels.get c).place ≠ .queued)
          ∧ (∀ a, hit a → (s.fc.get a).state ≠ .idle → cause ∉ (s.fc.get a).causes →
            ∀ q c, c.arm = a → (t.adu.pumps.get q).status ≠ .shot c)
          ∧ ∀ p b, d = .permissive p b → ∀ q c, c.arm.bay = b → (t.adu.pumps.get q).status ≠ .shot c)
      ∧ (x.line = .energized → d = .emergencyStop →
        let head : Additive → Option Channel := fun p =>
          if (s.adu.pumps.get p).status = .idle ∧ s.ic.warning = false then (s.adu.pumps.get p).queue.head? else none
        s.becomes (exec (.debounceExpiry d) s) [.inputChanged d]
          { accepted with
            adu :=
              { channels := .tabulate fun c =>
                  if Additive.all.any fun p => decide (head p = some c) then
                    { s.adu.channels.get c with place := .inShot }
                  else s.adu.channels.get c
                pumps := .tabulate fun p =>
                  match head p with
                  | none => s.adu.pumps.get p
                  | some c =>
                    { status := .shot c, queue := (s.adu.pumps.get p).queue.tail
                      restTimer := (s.adu.pumps.get p).restTimer
                      shotTimer := some (s.wc.injectors.get c).timeLimit, pulseCount := 0, volume := 0
                      target :=
                        ((s.wc.injectors.get c).shotVolume * (s.wc.injectors.get c).kMilli + 999999) / 1000000 } } })
      ∧ ∀ b, d = .deadman b →
        let withButton : Button → State := fun y =>
          { accepted with ic := { accepted.ic with buttons := s.ic.buttons.set b y } }
        (x.line = .deenergized →
          s.becomes (exec (.debounceExpiry d) s) [.inputChanged d] (withButton { state := .released, stuckTimer := none }))
        ∧ (x.line = .energized → x.settled = false →
          s.becomes (exec (.debounceExpiry d) s) [.inputChanged d] (withButton { state := .stuck, stuckTimer := none }))
        ∧ (x.line = .energized → x.settled = true →
          s.becomes (exec (.debounceExpiry d) s) [.inputChanged d]
            { withButton { state := .pressed, stuckTimer := some 10000 } with
              bsc :=
                if ∃ a ∈ b.arms, (s.fc.get a).state ∈ [ArmState.lowStart, .highFlow, .topOff] then
                  s.bsc.set b
                    { s.bsc.get b with
                      stage := .quiet, deadmanTimer := some (s.wc.rack.deadmanInterval * 1000), leftInWarning := [] }
                else s.bsc }))
    ∧ ∀ b, d = .deadman b → (s.ic.buttons.get b).stuckTimer ≠ none →
      s.becomes (exec (.stuckTimerExpiry b) s) [.inputChanged d]
        { s with ic := { s.ic with buttons := s.ic.buttons.set b { state := .stuck, stuckTimer := none } } }

/-- A rising edge of a product meter line. In DUAL mode an edge of A counts forward with B low and in reverse with B high, and an edge
of B counts with A high only; in SINGLE mode an edge of A counts forward and B is not used. Counting stops at 65,535 (the model's
choice, log 29) and is left out before restoration is complete; that the edge carries the other line's level is the model's
(log 8). Nothing else changes (R26 to R28, R30). -/
def Obligations.MeterEdgesAreCounted : Prop :=
  ∀ (a : Arm) (line : MeterLine) (other : LineLevel) (s : State), s.condition = .running ∨ s.condition = .restoring →
    let m := s.ic.meters.get a
    let up : Nat → Nat := fun n => min 65535 (n + 1)
    let levels : MeterInput :=
      match line with
      | .lineA => { m with lineA := .energized, lineB := other }
      | .lineB => { m with lineA := other, lineB := .energized }
    let takes : MeterInput → Prop := fun y =>
      exec (.productMeterEdge a line other) s = .next { s with ic := { s.ic with meters := s.ic.meters.set a y } }
    (s.condition = .restoring → takes levels)
    ∧ (s.condition = .running →
      ((s.wc.arms.get a).mode = .dual →
        (line = .lineA → other = .deenergized → takes { levels with counts := { m.counts with nA := up m.counts.nA } })
        ∧ (line = .lineA → other = .energized →
          takes { levels with counts := { m.counts with reverse := up m.counts.reverse } })
        ∧ (line = .lineB → other = .energized → takes { levels with counts := { m.counts with nB := up m.counts.nB } })
        ∧ (line = .lineB → other = .deenergized → takes levels))
      ∧ ((s.wc.arms.get a).mode = .single →
        (line = .lineA → takes { levels with counts := { m.counts with nA := up m.counts.nA } })
        ∧ (line = .lineB → takes levels)))

/-- An additive pulse is converted with the channel's K-factor and residue. Out of a shot it is leak volume, stopping at
999,999,999 mL; in a shot it counts to the shot and to the line served, and the pulse that reaches the target ends the shot, the
pump going to REST and the failed-shot count to 0. The volume is drawn from the stock of the channel's type, STOCK_LOW set on the
crossing of the reserve; stock that reaches 0 then raises ADDITIVE_FAULT on each arm whose compartment uses the type. That the pulse is
counted before it is drawn is the model's (log 26) (R139, R141,
R144, R145). -/
def Obligations.AdditivePulseIsMeasured : Prop :=
  ∀ (c : Channel) (s : State), s.condition = .running ∨ s.condition = .restoring →
    let inj := s.wc.injectors.get c
    let ch := s.adu.channels.get c
    let ml := (1000000 + ch.residue) / inj.kMilli
    let residue := (1000000 + ch.residue) % inj.kMilli
    let faulted : List Arm :=
      match inj.additive with
      | none => []
      | some t =>
        if 0 < (s.wc.stock.get t).stock ∧ (s.wc.stock.get t).stock ≤ ml then
          [Arm.arm0, .arm1, .arm2, .arm3].filter fun a =>
            decide ((s.fc.get a).state ≠ .idle)
              && (s.running.get a).any fun y => y.lines.any fun z => decide (z.additive = t)
        else []
    let low : List FlagEvent :=
      match inj.additive with
      | none => []
      | some t =>
        if (s.wc.stock.get t).reserve ≤ (s.wc.stock.get t).stock ∧ (s.wc.stock.get t).stock - ml < (s.wc.stock.get t).reserve
        then [.stockLow] else []
    let drawn : State :=
      { s with
        wc :=
          match inj.additive with
          | none => s.wc
          | some t =>
            { s.wc with
              stock := s.wc.stock.set t { s.wc.stock.get t with stock := (s.wc.stock.get t).stock - ml } }
        ic := { s.ic with additiveLines := s.ic.additiveLines.set c .energized } }
    let takes : State → Prop := fun u =>
      ∃ v, s.becomes (.next v) low u ∧ exec (.additivePulse c) s = .next (v.raiseOn faulted .additiveFault)
    (((∀ p, (s.adu.pumps.get p).status ≠ .shot c) →
        takes
          { drawn with
            adu :=
              { s.adu with
                channels := s.adu.channels.set c { ch with residue := residue, leak := min 999999999 (ch.leak + ml) } } })
      ∧ ∀ p i, (∀ q, (s.adu.pumps.get q).status = .shot c ↔ q = p) → ch.serving = some i →
        let pump := s.adu.pumps.get p
        let injected : State :=
          { drawn with
            running := s.running.set c.arm ((s.running.get c.arm).map fun y =>
              { y with lines := y.lines.modify i fun z => { z with injected := z.injected + ml } }) }
        (pump.pulseCount + 1 < pump.target →
          takes
            { injected with
              adu :=
                { channels := s.adu.channels.set c { ch with residue := residue }
                  pumps := s.adu.pumps.set p
                    { pump with pulseCount := pump.pulseCount + 1, volume := pump.volume + ml } } })
        ∧ (pump.target ≤ pump.pulseCount + 1 →
          takes
            { injected with
              adu :=
                { channels := s.adu.channels.set c { ch with residue := residue, place := .none, failed := 0 }
                  pumps := s.adu.pumps.set p
                    { pump with
                      pulseCount := pump.pulseCount + 1, volume := pump.volume + ml, status := .rest
                      restTimer := some (s.wc.pumpRest.get p), shotTimer := none } } }))
    ∧ ∀ t, inj.additive = some t → 0 < (s.wc.stock.get t).stock → (s.wc.stock.get t).stock ≤ ml →
      let uses : Arm → Prop := fun a =>
        (s.fc.get a).state ≠ .idle ∧ ∃ y, s.running.get a = some y ∧ ∃ z ∈ y.lines, z.additive = t
      ∃ u, exec (.additivePulse c) s = .next u ∧ (u.wc.stock.get t).stock = 0
        ∧ (∀ a, ¬uses a → u.fc.get a = s.fc.get a)
        ∧ ∀ a, uses a → StopCause.additiveFault ∈ (u.fc.get a).causes
          ∧ (StopCause.additiveFault ∉ (s.fc.get a).causes →
            (s.fc.get a).state ∈ [ArmState.lowStart, .highFlow, .topOff] →
            (u.fc.get a).state = .paused ∧ (u.fc.get a).command = .close)

/-- The shot timer of a pump in shot ends the shot. With half the shot volume or more the failed-shot count goes to 0; with less it
goes from 0 to 1, and from above 0 back to 0 with ADDITIVE_FAULT raised on the arm. The rest timer brings the pump to IDLE,
where it serves the oldest of its queue at once, with the emergency stop inactive and no warning: the target is the shot volume
in pulses, rounded up (R138, R139, R142). -/
def Obligations.PumpTimersExpire : Prop :=
  ∀ (p : Additive) (s : State), s.condition = .running ∨ s.condition = .restoring →
    let pump := s.adu.pumps.get p
    let withPump : PumpState → PerChannel ChannelState → State := fun x k =>
      { s with adu := { channels := k, pumps := s.adu.pumps.set p x } }
    (∀ c, pump.shotTimer ≠ none → pump.status = .shot c →
      let ch := s.adu.channels.get c
      let ended : Nat → State := fun failed =>
        withPump { pump with status := .rest, restTimer := some (s.wc.pumpRest.get p), shotTimer := none }
          (s.adu.channels.set c { ch with place := .none, failed := failed })
      ((s.wc.injectors.get c).shotVolume ≤ 2 * pump.volume → exec (.shotTimerExpiry p) s = .next (ended 0))
      ∧ (2 * pump.volume < (s.wc.injectors.get c).shotVolume →
        (ch.failed = 0 → exec (.shotTimerExpiry p) s = .next (ended 1))
        ∧ (0 < ch.failed → exec (.shotTimerExpiry p) s = .next ((ended 0).raiseCause c.arm .additiveFault))))
    ∧ (pump.restTimer ≠ none →
      ((pump.queue = [] ∨ s.accepts .emergencyStop = false ∨ s.ic.warning = true) →
        exec (.restTimerExpiry p) s = .next (withPump { pump with status := .idle, restTimer := none } s.adu.channels))
      ∧ ∀ c rest, pump.queue = c :: rest → s.accepts .emergencyStop = true → s.ic.warning = false →
        let inj := s.wc.injectors.get c
        exec (.restTimerExpiry p) s =
          .next
            (withPump
              { status := .shot c, queue := rest, restTimer := none, shotTimer := some inj.timeLimit, pulseCount := 0
                target := (inj.shotVolume * inj.kMilli + 999999) / 1000000, volume := 0 }
              (s.adu.channels.set c { s.adu.channels.get c with place := .inShot })))

/-! ### The metering interval (R28, R29, R94 to R108, R113 to R118, R127, R136) -/

/-- An interval end hands the counts over and starts them again from 0; the arm's channel is computed by the nine stages, the K-factor,
the meter factor of the table at the rate, the probe and the correction factor in turn. An active compartment is credited gross,
net and weighted sum whatever becomes of the arm, with its mark counted, its reverse volume and its note flags; an IDLE arm counts
unauthorized flow, with UNAUTHORIZED_FLOW as it passes 5,000 mL and nothing else changed. PULSE_FAULT is raised from the eleventh
marked interval and past 2,000 mL of reverse volume, PROBE_FAULT by a probe fault where ATC_REQUIRED is yes. What was computed goes to
the Flow Controller and the ADU, each once, in the order the command carries (the model's operand, log 9); no other arm's channel
changes. A count of marks stays at 65,535 (log 33), and READ_ARM's values are taken here (log 13) (R28, R29, R95 to R99, R102 to R104,
R106, R108). -/
def Obligations.IntervalIsComputed : Prop :=
  ∀ (a : Arm) (raw : Nat) (order : IntervalOrder) (s : State), s.condition = .running →
    let arm := s.wc.arms.get a
    let m := s.me.get a
    let c := (s.ic.meters.get a).counts
    let k := arm.kMilli.getD 100000
    let rawMl := (c.nA * 1000000 + m.rawResidue) / k
    let window := rawMl :: m.rateWindow.take 3
    let mf := if arm.kMilli = none then 100000 else arm.mf.at (min 9999 (window.sum * 60 / 1000))
    let grossNum := rawMl * mf + m.grossResidue
    let temperature := arm.offset + ((raw * arm.span / 65536 : Nat) : Int)
    let good := raw ≠ 0 ∧ raw ≠ 65535 ∧ -4000 ≤ temperature ∧ temperature ≤ 7000
    let active := if (s.fc.get a).state = .idle then none else s.running.get a
    let samples := m.temperatures ++ [temperature]
    let temperatures :=
      if good ∧ (∀ y, active = some y → y.metering.phase = .sampling) then
        (if 4 < samples.length then samples.tail else samples)
      else m.temperatures
    let working := if temperatures = [] then none else some (temperatures.sum.tdiv temperatures.length)
    let used := working.getD (match s.wc.products.find arm.product with | none => 1500 | some p => p.fallback)
    let factor := vcf (match s.wc.products.find arm.product with | none => 0 | some p => p.alpha) used
    let netNum := grossNum / 100000 * factor + m.netResidue
    let unauthorized := if active = none then min 999999999999 (m.unauthorized + grossNum / 100000) else m.unauthorized
    let channel : MeteringChannel :=
      { rawResidue := (c.nA * 1000000 + m.rawResidue) % k, grossResidue := grossNum % 100000
        netResidue := netNum % 100000, reverseResidue := (c.reverse * 1000000 + m.reverseResidue) % k
        gross := (m.gross + grossNum / 100000) % 1000000000000, net := (m.net + netNum / 100000) % 1000000000000
        unauthorized := unauthorized, rateWindow := window, temperatures := temperatures, shownTemperature := working
        shownUnauthorized := unauthorized }
    let mark : Prop := arm.mode = .dual ∧ (arm.fidelity < c.nA - c.nB ∨ arm.fidelity < c.nB - c.nA)
    let meters := s.ic.meters.set a
      { s.ic.meters.get a with
        counts := { nA := 0, nB := 0, reverse := 0 }
        last := some { nA := c.nA, nB := c.nB, reverse := c.reverse, mark := decide mark, raw := raw } }
    let reverseMl := (c.reverse * 1000000 + m.reverseResidue) / k
    let credited : MeteringPart → MeteringPart := fun x =>
      { openGross := x.openGross, openNet := x.openNet, gross := x.gross + grossNum / 100000, net := x.net + netNum / 100000
        weighted := x.weighted + (grossNum / 100000 : Nat) * used
        pulseErrors := min 65535 (x.pulseErrors + if mark then 1 else 0), reverse := x.reverse + reverseMl
        phase := if 0 < c.nA then .sampling else x.phase
        tempSubstituted :=
          x.tempSubstituted || decide (working = none ∧ 0 < grossNum / 100000 ∧ ¬(x.phase = .waiting ∧ 0 < c.nA))
        probeFault := x.probeFault || decide (x.phase = .sampling ∧ ¬good)
        vcfClamped :=
          let f := vcfUnclamped (match s.wc.products.find arm.product with | none => 0 | some p => p.alpha) used
          x.vcfClamped || decide (f < 90000 ∨ 110000 < f)
        pulseErrorsSeen := x.pulseErrorsSeen || decide mark }
    let causes : List StopCause :=
      match active with
      | none => []
      | some y =>
        (if (mark ∧ 10 < y.metering.pulseErrors + 1) ∨ (0 < reverseMl ∧ 2000 < y.metering.reverse + reverseMl) then
            [StopCause.pulseFault] else [])
          ++ (if y.metering.phase = .sampling ∧ ¬good ∧ arm.atcRequired = true then [StopCause.probeFault] else [])
    ∃ v t, exec (.meteringIntervalEnd a raw order) s = .next t
      ∧ s.becomes (.next v) (if m.unauthorized ≤ 5000 ∧ 5000 < unauthorized then [.unauthorizedFlow a] else [])
        { s with
          me := s.me.set a channel, ic := { s.ic with meters := meters }
          running :=
            match active with
            | none => s.running
            | some y => s.running.set a (some { y with metering := credited y.metering }) }
      ∧ t =
        (match order with
          | .flowFirst => (v.flowInterval a c.nA causes).paceArm a
          | .dosingFirst => (v.paceArm a).flowInterval a c.nA causes
          | .leavingLast =>
            (v.pace a).2.foldl (fun t c => t.raiseCause a c) ((v.pace a).1.flowInterval a c.nA causes))
      ∧ t.me = s.me.set a channel ∧ t.ic = { s.ic with meters := meters }
      ∧ (∀ y, active = some y → ∃ z, t.running.get a = some z ∧ z.metering = credited y.metering)
      ∧ ((s.fc.get a).state = .idle → t = v)

/-- Stage 5 corrects raw to gross and stage 8 gross to net: the numerator divided by 100,000 is what the totalizer and the running
quantity gain, the remainder is the new residue; an interval with no raw millilitre leaves gross and its residue as they
were. The correction factor is that of R105's five steps, each rounding given by its bounds, clamped to 90,000 and 110,000. The meter
factor of a table whose factors lie between 90,000 and 110,000 lies there too: it is the first point's at or below that point's rate,
the last point's at or above it, and between two points the first's with trunc of the proportional part; an uncommissioned arm's is
100,000 (R100, R101, R105, R106). -/
def Obligations.GrossAndNetAreCorrected : Prop :=
  (∀ (p : MeterParameters) (m : MeteringChannel) (part : Option MeteringPart) (h : Handover),
    let r := meterInterval p m part h
    let rawMl := (h.nA * 1000000 + m.rawResidue) / p.kMilli.getD 100000
    let grossNum := rawMl * p.mfAt r.channel.rate + m.grossResidue
    let grossInc := grossNum / 100000
    let netNum := grossInc * vcf p.alpha (r.channel.shownTemperature.getD p.fallback) + m.netResidue
    let netInc := netNum / 100000
    r.channel.grossResidue = grossNum % 100000 ∧ r.channel.netResidue = netNum % 100000
      ∧ r.channel.gross = (m.gross + grossInc) % 1000000000000 ∧ r.channel.net = (m.net + netInc) % 1000000000000
      ∧ (∀ y, part = some y → ∃ z, r.part = some z ∧ z.gross = y.gross + grossInc ∧ z.net = y.net + netInc)
      ∧ (rawMl = 0 → m.grossResidue < 100000 → grossInc = 0 ∧ r.channel.grossResidue = m.grossResidue))
  ∧ (∀ alpha t, 90000 ≤ vcf alpha t ∧ vcf alpha t ≤ 110000)
  ∧ (∀ (alpha : Nat) (t p s w : Int), p = alpha * (t - 1500) →
    s * 10000000000 ≤ 8 * p * p + 5000000000 → 8 * p * p + 5000000000 < (s + 1) * 10000000000 →
    w * 10000 ≤ 1000000000 - p - s + 5000 → 1000000000 - p - s + 5000 < (w + 1) * 10000 →
    vcfUnclamped alpha t = w ∧ (vcf alpha t : Int) = if w < 90000 then 90000 else if 110000 < w then 110000 else w)
  ∧ ∀ (p : MeterParameters) (rate : Nat), ((p.mf.first :: p.mf.rest).map MfPoint.rate).Pairwise (· < ·) →
    (∀ q ∈ p.mf.first :: p.mf.rest, 90000 ≤ q.mf ∧ q.mf ≤ 110000) →
    90000 ≤ p.mfAt rate ∧ p.mfAt rate ≤ 110000
      ∧ (p.kMilli = none → p.mfAt rate = 100000)
      ∧ (p.kMilli ≠ none → ∀ q ∈ p.mf.first :: p.mf.rest, q.rate = rate → p.mfAt rate = q.mf)
      ∧ (p.kMilli ≠ none → rate ≤ p.mf.first.rate → p.mfAt rate = p.mf.first.mf)
      ∧ (p.kMilli ≠ none → ∀ q, (p.mf.first :: p.mf.rest).getLast? = some q → q.rate ≤ rate → p.mfAt rate = q.mf)
      ∧ (p.kMilli ≠ none → ∀ (before after : List MfPoint) (q r : MfPoint),
        p.mf.first :: p.mf.rest = before ++ q :: r :: after → q.rate ≤ rate → rate < r.rate →
        (p.mfAt rate : Int) = q.mf + (((r.mf : Int) - q.mf) * (rate - q.rate)).tdiv (r.rate - q.rate))

/-- An interval end credits the arm, and then the Flow Controller and the ADU each take the interval once, in the order the command
carries (log 9): either may be first, and the ADU may also pace before it is told of a leaving of flow that the interval itself
makes, what it raises then meeting the arm as it has become. At the Flow Controller the causes are raised first; then a flowing arm
moves to the implied stage where that comes later, to CLOSING with COMPLETE and the dead-man timer told, or to a flowing stage, the
command then chosen by the new setpoint and the no-flow timer started, restarted for its period (log 19), left running or stopped;
CLOSING counts intervals without flow and ends at the third; every other state stays. At the ADU a flowing arm's lines are paced in
recipe order, and then the causes they raise are raised (log 10): a line with stock owes what is due less what was requested, and
joins its pump's queue where its channel is free, an IDLE pump then serving the oldest at once; an empty stock raises ADDITIVE_FAULT,
more than 3 owed ADDITIVE_LAG. An arm that moves to CLOSING has left flow: its channels leave the Shot Queues, and its bay's dead-man
timer stops where it was the last, with the set of arms that left flow in WARNING kept (log 32) (R90, R95, R113 to R118, R127, R136
to R138). -/
def Obligations.IntervalStagesAndPaces : Prop :=
  (∀ (a : Arm) (raw : Nat) (order : IntervalOrder) (s : State), s.condition = .running →
    let v := s.takeHandover a (s.handoverOf a raw)
    let r := v.meterResult a (s.handoverOf a raw)
    let u := v.credit a r
    r.forward = (s.ic.meters.get a).counts.nA
      ∧ exec (.meteringIntervalEnd a raw order) s =
        .next
          (match order with
          | .flowFirst => (u.flowInterval a r.forward r.causes).paceArm a
          | .dosingFirst => (u.paceArm a).flowInterval a r.forward r.causes
          | .leavingLast =>
            (u.pace a).2.foldl (fun t c => t.raiseCause a c) ((u.pace a).1.flowInterval a r.forward r.causes)))
  ∧ (∀ (a : Arm) (n : Nat) (causes : List StopCause) (s : State),
    let u := causes.foldl (fun t c => t.raiseCause a c) s
    let flows : State → Prop := fun t => (t.fc.get a).state ∈ [ArmState.lowStart, .highFlow, .topOff]
    ((s.fc.get a).state = .idle → s.flowInterval a n causes = s)
    ∧ ((s.fc.get a).state ∈ [ArmState.paused, .ending] → s.flowInterval a n causes = u)
    ∧ ((s.fc.get a).state = .closing → s.flowInterval a n causes = u.flowInterval a n [])
    ∧ (flows s → (flows u → s.flowInterval a n causes = u.flowInterval a n [])
      ∧ (¬flows u → s.flowInterval a n causes = u)))
  ∧ (∀ (a : Arm) (s : State),
    (∀ y, s.running.get a = some y → (s.fc.get a).state ∈ [ArmState.lowStart, .highFlow, .topOff] →
      let p := y.lines.foldl
        (fun (q : State × List StopCause) x =>
          ((q.1.paceLine y.metering.gross x).1, q.2 ++ (q.1.paceLine y.metering.gross x).2)) (s, [])
      s.pace a = p ∧ s.paceArm a = p.2.foldl (fun t c => t.raiseCause a c) p.1)
    ∧ ((s.running.get a = none ∨ (s.fc.get a).state ∉ [ArmState.lowStart, .highFlow, .topOff]) →
      s.pace a = (s, []) ∧ s.paceArm a = s))
  ∧ (∀ (a : Arm) (n : Nat) (s : State),
    let fc := s.fc.get a
    let arm := s.wc.arms.get a
    let rate := (s.me.get a).rate
    let regulated : ArmState → FlowController := fun st =>
      let setpoint := if st = .highFlow then arm.highRate else arm.lowRate
      let command :=
        if rate + arm.deadband < setpoint then ValveCommand.openValve
        else if setpoint + arm.deadband < rate then .close else .hold
      { fc with
        state := st, command := command
        noFlowTimer :=
          if command = .openValve then
            (if fc.command = .openValve then (if 0 < n then some (fc.noFlowTimer.getD (arm.noFlowTime * 1000)) else fc.noFlowTimer)
            else some (arm.noFlowTime * 1000))
          else none }
    (∀ y q, fc.state ∈ [ArmState.lowStart, .highFlow, .topOff] → s.running.get a = some y →
      q = (match y.flow.basis with | .gross => y.metering.gross | .net => y.metering.net) →
      (y.flow.preset ≤ q + fc.lead →
        s.flowInterval a n [] =
          { (s.setEndReason a .complete).dosingLeft a with
            fc := s.fc.set a
              { fc with
                state := .closing, command := .close, closingCount := 0, closingTimer := some 10000, noFlowTimer := none
                pauseTimer := none }
            bsc := s.deadmanLeft a })
      ∧ (q + fc.lead < y.flow.preset →
        (y.flow.preset ≤ q + arm.topOffVolume * 1000 →
          s.flowInterval a n [] = { s with fc := s.fc.set a (regulated .topOff) })
        ∧ (q + arm.topOffVolume * 1000 < y.flow.preset → arm.startVolume * 1000 ≤ q →
          s.flowInterval a n [] =
            { s with fc := s.fc.set a (regulated (if fc.state = .topOff then .topOff else .highFlow)) })
        ∧ (q + arm.topOffVolume * 1000 < y.flow.preset → q < arm.startVolume * 1000 →
          s.flowInterval a n [] = { s with fc := s.fc.set a (regulated fc.state) })))
    ∧ (fc.state = .closing →
      (0 < n → s.flowInterval a n [] = { s with fc := s.fc.set a { fc with closingCount := 0 } })
      ∧ (n = 0 → fc.closingCount < 2 →
        s.flowInterval a n [] = { s with fc := s.fc.set a { fc with closingCount := fc.closingCount + 1 } })
      ∧ (n = 0 → 2 ≤ fc.closingCount →
        s.flowInterval a n [] =
          State.endClosing { s with fc := s.fc.set a { fc with closingCount := fc.closingCount + 1 } } a))
    ∧ (fc.state ∈ [ArmState.idle, .paused, .ending] → s.flowInterval a n [] = s))
  ∧ ∀ (g : Nat) (x : LineRecord) (s : State),
    let c := x.channel
    let ch := s.adu.channels.get c
    let due := g * x.dose / ((s.wc.injectors.get c).shotVolume * 1000000)
    let owes : Nat → State := fun n => { s with adu := { s.adu with channels := s.adu.channels.set c { ch with owed := n } } }
    let lag : Nat → List StopCause := fun n => if 3 < n then [.additiveLag] else []
    ((s.wc.stock.get x.additive).stock = 0 → s.paceLine g x = (s, [.additiveFault]))
    ∧ (0 < (s.wc.stock.get x.additive).stock →
      ((due ≤ x.requested ∨ ch.place ≠ .none) →
        s.paceLine g x = (owes (due - x.requested), lag (due - x.requested)))
      ∧ ∀ i p, x.requested < due → ch.place = .none → ch.serving = some i →
        (s.wc.injectors.get c).additive = some p →
        let pump := s.adu.pumps.get p
        let requests : DosingUnit → State := fun u =>
          { s with
            running := s.running.modify c.arm (Option.map fun y =>
              { y with lines := y.lines.modify i fun z => { z with requested := z.requested + 1 } })
            adu := u }
        let queued := s.adu.channels.set c { ch with owed := due - x.requested - 1, place := .queued }
        ((pump.status ≠ .idle ∨ s.accepts .emergencyStop = false ∨ s.ic.warning = true) →
          s.paceLine g x =
            (requests { channels := queued, pumps := s.adu.pumps.set p { pump with queue := pump.queue ++ [c] } },
              lag (due - x.requested - 1)))
        ∧ ∀ d rest, pump.status = .idle → s.accepts .emergencyStop = true → s.ic.warning = false →
          pump.queue ++ [c] = d :: rest →
          s.paceLine g x =
            (requests
              { channels := queued.set d { queued.get d with place := .inShot }
                pumps := s.adu.pumps.set p
                  { status := .shot d, queue := rest, restTimer := pump.restTimer
                    shotTimer := some (s.wc.injectors.get d).timeLimit, pulseCount := 0, volume := 0
                    target := ((s.wc.injectors.get d).shotVolume * (s.wc.injectors.get d).kMilli + 999999) / 1000000 } },
              lag (due - x.requested - 1)))

/-! ### Timers of arms and bays (R51, R86, R87, R91, R117 to R119, R127, R128) -/

/-- The closing timer ends CLOSING: the overrun past its limit is flagged with CAUSE_RAISED, a COMPLETE compartment moves the learned
lead by half the overrun, within 0 and the lead maximum, and the arm is ENDING with its timers stopped, its hand-over held while
the warning is asserted. The no-flow timer raises NO_FLOW, which pauses a flowing arm. The pause timer fixes PAUSE_TIMEOUT and takes
a PAUSED arm to ENDING (R117 to R119, R127, R128). -/
def Obligations.ArmTimersExpire : Prop :=
  ∀ (a : Arm) (s : State), s.condition = .running ∨ s.condition = .restoring →
    let fc := s.fc.get a
    let ended : FlowController :=
      { fc with state := .ending, command := .close, closingTimer := none, noFlowTimer := none, pauseTimer := none }
    let ns : NoteStore := { s.ns with held := if s.ic.warning then s.ns.held.set a true else s.ns.held }
    (∀ y q, fc.closingTimer ≠ none → fc.state = .closing → s.running.get a = some y →
      q = (match y.flow.basis with | .gross => y.metering.gross | .net => y.metering.net) →
      let past := y.flow.preset + (s.wc.arms.get a).overrunLimit * 1000 < q
      let lead : Int := fc.lead + ((q : Int) - y.flow.preset).tdiv 2
      s.becomes (exec (.closingTimerExpiry a) s) (if past then [.causeRaised a] else [])
        { s with
          fc := s.fc.set a
            { ended with
              lead :=
                if y.flow.endReason = some .complete then min (s.wc.arms.get a).leadMaximum lead.toNat else fc.lead }
          running := s.running.set a (some { y with flow := { y.flow with overrun := y.flow.overrun || decide past } })
          ns := ns })
    ∧ (fc.noFlowTimer ≠ none →
      exec (.noFlowTimerExpiry a) s =
        .next (State.raiseCause { s with fc := s.fc.set a { fc with noFlowTimer := none } } a .noFlow)
      ∧ (fc.state ∈ [ArmState.lowStart, .highFlow, .topOff] → StopCause.noFlow ∉ fc.causes →
        ∃ t, exec (.noFlowTimerExpiry a) s = .next t ∧ (t.fc.get a).state = .paused ∧ (t.fc.get a).command = .close
          ∧ (t.fc.get a).pauseTimer = some (s.wc.rack.pauseTimeout * 1000)))
    ∧ (fc.pauseTimer ≠ none → fc.state = .paused →
      exec (.pauseTimerExpiry a) s =
        .next
          { s with
            fc := s.fc.set a ended
            running := s.running.set a ((s.running.get a).map fun y =>
              { y with flow := { y.flow with endReason := some .pauseTimeout } })
            ns := ns })

/-- The PIN timer unbinds the driver and locks the bay, with BAY_CHANGED. The inactivity timer closes the session: the held order
released, the lists cleared, the driver unbound, the bay LOCKED. The dead-man timer in QUIET brings WARNING and starts again; in
WARNING it stops, the alarm is set, the stage is QUIET, and DEADMAN is raised on each flowing arm of the bay, in arm order, which
pauses it, and on each arm that has left flow in WARNING where the expiry is taken ahead of that leaving: such an arm, in CLOSING for
one, records the cause without changing its course. No other arm changes (R51, R68, R86, R87, R91). That the command says which
leavings it is ahead of, and that the leaving's own command has stopped the timer by then, is the model's (log 32). -/
def Obligations.BayTimersExpire : Prop :=
  ∀ (b : Bay) (s : State), s.condition = .running ∨ s.condition = .restoring →
    let bay := s.bsc.get b
    (∀ d, bay.pinTimer ≠ none → bay.status = .ident → bay.driver = some d →
      s.becomes (exec (.pinTimerExpiry b) s) [.bayChanged b]
        { s with
          pt := { bound := s.pt.bound.remove d }
          bsc := s.bsc.set b { bay with status := .locked, driver := none, pinTimer := none } })
    ∧ (∀ d, bay.inactivityTimer ≠ none → bay.status ∈ [BayStatus.signed, .planning, .loading] → bay.driver = some d →
      let closed : BayController :=
        { bay with
          status := .locked, closePending := false, driver := none, order := none
          selection := { first := none, last := none, excluded := [] }, plan := [], pinTimer := none
          inactivityTimer := none }
      (bay.order = none →
        s.becomes (exec (.inactivityTimerExpiry b) s) [.bayChanged b]
          { s with pt := { bound := s.pt.bound.remove d }, bsc := s.bsc.set b closed })
      ∧ ∀ n o, bay.order = some n → s.ob.orders.find n = some o →
        s.becomes (exec (.inactivityTimerExpiry b) s) [.bayChanged b]
          { s with
            pt := { bound := s.pt.bound.remove d }, bsc := s.bsc.set b closed
            ob :=
              { orders := s.ob.orders.put n
                  { o with
                    holding := none, cancelPending := false
                    state := if ∀ c ∈ o.compartments, c.status = .loaded then .complete else .opened } } })
    ∧ ∀ ahead : PerArm Bool,
      let x : DeadmanExpiry := { bay := b, ahead := ahead }
      let flows : Arm → Prop := fun a => a.bay = b ∧ (s.fc.get a).state ∈ [ArmState.lowStart, .highFlow, .topOff]
      let late : Arm → Prop := fun a =>
        a.bay = b ∧ ahead.get a = true ∧ a ∈ bay.leftInWarning ∧ (s.fc.get a).state ≠ .idle
      (bay.deadmanTimer ≠ none → bay.stage = .quiet →
        exec (.deadmanTimerExpiry x) s =
          .next
            { s with
              bsc := s.bsc.set b
                { bay with
                  stage := .warning, deadmanTimer := some (s.wc.rack.deadmanInterval * 1000), leftInWarning := [] } })
      ∧ (bay.deadmanTimer = none → (∀ a, ¬late a) → exec (.deadmanTimerExpiry x) s = .next s)
      ∧ ((bay.deadmanTimer ≠ none ∧ bay.stage = .warning) ∨ (bay.deadmanTimer = none ∧ ∃ a, late a) →
        ∀ hit : List Arm, (∀ a, a ∈ hit ↔ flows a ∨ late a) → (hit.map Arm.toNat).Pairwise (· < ·) →
        let stopped : BayController := { bay with stage := .quiet, alarm := true, deadmanTimer := none, leftInWarning := [] }
        ∃ t, exec (.deadmanTimerExpiry x) s = .next t
          ∧ t = State.raiseOn { s with bsc := s.bsc.set b stopped } hit .deadman
          ∧ t.bsc = s.bsc.set b stopped
          ∧ ∀ a,
            (a ∉ hit → t.fc.get a = s.fc.get a)
            ∧ (a ∈ hit → StopCause.deadman ∈ (t.fc.get a).causes
              ∧ (flows a → StopCause.deadman ∉ (s.fc.get a).causes →
                (t.fc.get a).state = .paused ∧ (t.fc.get a).command = .close)
              ∧ (¬flows a → (t.fc.get a).state = (s.fc.get a).state ∧ (t.fc.get a).command = (s.fc.get a).command)))

/-! ### The hand-over, the store, the warning and the resets (R7, R14, R28, R36, R70, R119, R123, R135, R138, R140, R146 to R173) -/

/-- A hand-over that nothing holds: the arm is IDLE with an empty set, its record gone, its channels free, its reservation and any
hold ended. With no gross there is no note, and the compartment has its status back. With gross the note joins the collection under
the next number, in whole litres, NOTE_ADDED is set, CAUSE_RAISED where a line deviates by more permille of what it required than its
recipe's tolerance, the unauthorized-flow counter is 0, three end-class entries go to the NVC, and the compartment gains the note's
litres, LOADED where it ended COMPLETE. The alarm goes with the bay's last DEADMAN. Where the order is to be cancelled and no other
arm is on it, it is CANCELLED, its session loses it and the bay goes to SIGNED. Where the bay's close is pending and its other arm is
IDLE, the session closes to OUT_OF_SERVICE, with an order not so cancelled released. Otherwise the inactivity timer starts where the
other arm is IDLE. A hand-over is held by a shot of the arm, the warning, a queued note of the arm, and, held over a warning, by an
area not yet clear or a lower arm's hold; held, HAND_OVER changes nothing, which is the model's form of waiting (logs 2, 11), and so
is that a lower arm's hold which R166 keeps back does not count (log 11) (R70, R72, R86, R88, R92, R119, R146, R151, R152, R158,
R160, R166). The set of arms that left flow in WARNING is the model's (log 32). -/
def Obligations.HandOverEndsTheCompartment : Prop :=
  (∀ (a : Arm) (s : State), s.condition = .running →
    let noteQueued : Arm → Prop := fun k => ∃ e ∈ s.nvc.queue, ∃ n next, e.contents = .note n next ∧ n.arm = k
    let ready := (s.fc.get a).state = .ending ∧ (∀ c : Channel, c.arm = a → (s.adu.channels.get c).place ≠ .inShot)
      ∧ s.ic.warning = false ∧ ¬noteQueued a
      ∧ (s.ns.held.get a = true → s.nvc.areaWrite = none ∧ s.nvc.clearDue = false
        ∧ ∀ k : Arm, k.toNat < a.toNat → s.ns.held.get k = true → noteQueued k)
    (¬ready → exec (.handOver a) s = .next s)
    ∧ ∀ (y : Running) (o : Order) (reason : EndReason), ready → s.running.get a = some y →
      y.flow.endReason = some reason → s.ob.orders.find y.flow.order = some o → o.holding = some a.bay →
      (s.bsc.get a.bay).status = .loading → (s.bsc.get a.bay).order = some y.flow.order →
      let m := s.me.get a
      let lone := (s.fc.get a.other).state = .idle
      let completes := o.cancelPending = true
        ∧ ∀ k y', k ≠ a → (s.fc.get k).state ≠ .idle → s.running.get k = some y' → y'.flow.order ≠ y.flow.order
      let bay : BayController :=
        { s.bsc.get a.bay with
          alarm :=
            if StopCause.deadman ∈ (s.fc.get a).causes ∧ StopCause.deadman ∉ (s.fc.get a.other).causes then false
            else (s.bsc.get a.bay).alarm
          leftInWarning := (s.bsc.get a.bay).leftInWarning.filter fun k => decide (k ≠ a) }
      let put : (Compartment → Compartment) → (Order → Order) → OrderBook := fun f g =>
        { orders := s.ob.orders.put y.flow.order
            (g { o with compartments := o.compartments.map fun c => if c.number = y.flow.compartment then f c else c }) }
      let ended : State → (Compartment → Compartment) → (Order → Order) → BayController → State := fun u f g b =>
        { u with
          ns := { reserved := s.ns.reserved.set a false, held := s.ns.held.set a false }
          fc := s.fc.set a
            { s.fc.get a with
              state := .idle, command := .close, causes := [], releaseMark := false, closingCount := 0
              closingTimer := none, noFlowTimer := none, pauseTimer := none }
          running := s.running.set a none
          adu :=
            { s.adu with
              channels := .tabulate fun c =>
                if c.arm = a ∧ (s.adu.channels.get c).serving ≠ none then
                  { s.adu.channels.get c with serving := none, owed := 0 }
                else s.adu.channels.get c }
          ob := put f g
          bsc := s.bsc.set a.bay b }
      let unbound : State → State := fun u =>
        { u with pt := match bay.driver with | none => s.pt | some d => { bound := s.pt.bound.remove d } }
      let cancelled : Order → Order := fun o => { o with holding := none, cancelPending := false, state := .cancelled }
      ∀ (u : State) (f : Compartment → Compartment) (events : List FlagEvent),
        ((y.metering.gross = 0 ∧ u = s ∧ events = []
          ∧ f = fun c =>
            { c with
              status := (match c.statusBefore with | none => c.status | some st => st), loadingArm := none
              statusBefore := none })
        ∨ (0 < y.metering.gross ∧
          let gross := (y.metering.gross + 500) / 1000
          let net := (y.metering.net + 500) / 1000
          let note : NoteRecord :=
            { number := s.wc.nextNote, bay := y.note.bay, arm := a, order := y.note.order, compartment := y.note.compartment
              driver := y.note.driver, vehicle := y.note.vehicle, product := y.note.product, recipe := y.note.recipe
              startTime := y.note.startTime, endTime := if s.lc.clock.isSet then some s.lc.clock.count else none
              preset := y.note.preset, gross := gross, net := net
              temperature := y.metering.weighted.tdiv y.metering.gross
              openGross := y.metering.openGross, openNet := y.metering.openNet, closeGross := m.gross, closeNet := m.net
              lines := y.lines.map fun x =>
                { additive := x.additive, required := y.metering.gross * x.dose / 1000000, injected := x.injected
                  shots := x.requested }
              endReason := reason, tempSubstituted := y.metering.tempSubstituted, probeFault := y.metering.probeFault
              vcfClamped := y.metering.vcfClamped, overrun := y.flow.overrun, deviation := y.deviates s.wc
              pulseErrorsSeen := y.metering.pulseErrorsSeen, recovered := false }
          let next := if s.wc.nextNote < 999999 then s.wc.nextNote + 1 else 1
          u = { ((s.commit (.note note next) .endClass).commit (.totals a { gross := m.gross, net := m.net }) .endClass).commit
                (.stock s.wc.stock) .endClass with
              me := s.me.set a { m with unauthorized := 0 } }
          ∧ events = (if y.deviates s.wc then [.noteAdded y.note.bay, .causeRaised a] else [.noteAdded y.note.bay])
          ∧ f = fun c =>
            { c with
              deliveredGross := c.deliveredGross + gross, deliveredNet := c.deliveredNet + net
              status := if reason = .complete then .loaded else .partLoaded, loadingArm := none
              statusBefore := none })) →
        (¬completes → ¬(bay.closePending = true ∧ lone) →
          s.becomes (exec (.handOver a) s) events
            (ended u f id { bay with inactivityTimer := if lone then some 300000 else bay.inactivityTimer }))
        ∧ (¬completes → bay.closePending = true → lone →
          s.becomes (exec (.handOver a) s) (events ++ [.bayChanged a.bay])
            (unbound (ended u f Order.letGo (bay.closed .outOfService))))
        ∧ (completes → bay.closePending = false →
          s.becomes (exec (.handOver a) s) (events ++ [.bayChanged a.bay])
            (ended u f cancelled
              { bay with
                status := .signed, order := none, plan := []
                selection := { first := none, last := none, excluded := [] }
                inactivityTimer := if lone then some 300000 else none }))
        ∧ (completes → bay.closePending = true → lone →
          s.becomes (exec (.handOver a) s) (events ++ [.bayChanged a.bay])
            (unbound (ended u f cancelled (bay.closed .outOfService)))))
  ∧ ∀ (y : Running) (w : NvRecords) (code : Nat) (x : RecipeRecord), y.note.recipe = some code → w.recipes.find code = some x →
    (y.deviates w = true ↔
      ∃ z ∈ y.lines,
        let required := y.metering.gross * z.dose / 1000000
        let deviation := (((z.injected : Int) - required) * 1000).tdiv required
        0 < required ∧ (deviation < -(x.tolerance : Int) ∨ (x.tolerance : Int) < deviation))

/-- A write's completion puts the entry's record into the store, empties the buffer and begins the next write: a clearing that is
due, else the oldest entry; in the drain, with the queue empty, the checkpoint of the first arm that is not IDLE, then those of the
others in arm order. A checkpoint's completion puts the arm's record and totalizers as they stand in its place. The clearing's
completion empties the area. The hand-overs that the event frees are taken in it, in arm order. An entry handed to the NVC replaces
the queued entry of its key in place, staying end class where that was, or joins at the newest end; a release removes any other
release. While a write is in progress it waits; otherwise the write of the oldest begins. Each kind of contents, under its key,
replaces its one record in the store or the working copies and leaves every other: a driver record may be taken out, a note joins the
collection with the next note number it carries, and a release takes out the notes up to its own, all where that note was never
written (R158 to R160, R163, R164, R166). That an event takes the hand-overs it frees, in arm order, is the model's form of their
waiting (log 11). That a checkpoint holds the record as at its completion is the model's (log 12), and so are that a commit in any
condition but running only queues its entry, since no write begins before restoration is complete (log 18), that a clearing due is
made before a new drain (log 34), and that a release of a number not written takes out every note there (log 24). -/
def Obligations.StoreWritesComplete : Prop :=
  (∀ s : State, s.condition = .running →
    let n := s.nvc
    let withNvc : NvController → State := fun x => { s with nvc := x }
    let frees : Instr → State → Prop := fun c v =>
      ∃ t, exec c s = .next t ∧ s.freed v = .next t ∧ ((∀ a, (s.fc.get a).state ≠ .ending) → t = v)
    let clears : NvController → State := fun x => withNvc { x with areaWrite := some .clearing, clearDue := false }
    (∀ e, n.buffer = some e → n.areaWrite = none →
      let stored : NvController := { n with store := n.store.write e.contents, buffer := none }
      (n.clearDue = true → frees .nvWriteComplete (clears stored))
      ∧ (n.clearDue = false →
        (∀ e' q, n.phase = .normal ∨ n.phase = .draining → n.queue = e' :: q →
          frees .nvWriteComplete (withNvc { stored with buffer := some e', queue := q }))
        ∧ (n.phase = .normal → n.queue = [] → frees .nvWriteComplete (withNvc stored))
        ∧ (n.phase = .drained → frees .nvWriteComplete (withNvc stored))
        ∧ (n.phase = .draining → n.queue = [] →
          ((∀ a, (s.fc.get a).state = .idle) →
            frees .nvWriteComplete (withNvc { stored with phase := .drained }))
          ∧ ∀ a rest, ([Arm.arm0, .arm1, .arm2, .arm3].filter fun k => (s.fc.get k).state ≠ .idle) = a :: rest →
            frees .nvWriteComplete (withNvc { stored with phase := .checkpointing rest, areaWrite := some (.checkpoint a) }))))
    ∧ (∀ a y, n.buffer = none → n.areaWrite = some (.checkpoint a) → s.running.get a = some y →
      let stored : NvController :=
        { n with
          area := n.area.set a (some { running := y, gross := (s.me.get a).gross, net := (s.me.get a).net })
          areaWrite := none }
      (n.clearDue = true → exec .checkpointWriteComplete s = .next (clears stored))
      ∧ (n.clearDue = false → n.phase = .checkpointing [] →
        exec .checkpointWriteComplete s = .next (withNvc { stored with phase := .drained }))
      ∧ ∀ k rest, n.clearDue = false → n.phase = .checkpointing (k :: rest) →
        exec .checkpointWriteComplete s =
          .next (withNvc { stored with phase := .checkpointing rest, areaWrite := some (.checkpoint k) }))
    ∧ (n.buffer = none → n.areaWrite = some .clearing → n.clearDue = false →
      let cleared : NvController := { n with area := .const none, areaWrite := none }
      (n.phase = .normal → n.queue = [] → frees .checkpointAreaCleared (withNvc cleared))
      ∧ (∀ e q, n.phase = .normal ∨ n.phase = .draining → n.queue = e :: q →
        frees .checkpointAreaCleared (withNvc { cleared with buffer := some e, queue := q }))
      ∧ (n.phase = .draining → n.queue = [] →
        ((∀ a, (s.fc.get a).state = .idle) →
          frees .checkpointAreaCleared (withNvc { cleared with phase := .drained }))
        ∧ ∀ a rest, ([Arm.arm0, .arm1, .arm2, .arm3].filter fun k => (s.fc.get k).state ≠ .idle) = a :: rest →
          frees .checkpointAreaCleared (withNvc { cleared with phase := .checkpointing rest, areaWrite := some (.checkpoint a) }))))
  ∧ (∀ (w : NvRecords) (c : NvContents),
    let v := w.write c
    match c with
    | .driver n x =>
      c.key = .driver n ∧ v = { w with drivers := v.drivers }
        ∧ ∀ k, v.drivers.find k = if k = n then x else w.drivers.find k
    | .product n x =>
      c.key = .product n ∧ v = { w with products := v.products }
        ∧ ∀ k, v.products.find k = if k = n then some x else w.products.find k
    | .recipe n x =>
      c.key = .recipe n ∧ v = { w with recipes := v.recipes }
        ∧ ∀ k, v.recipes.find k = if k = n then some x else w.recipes.find k
    | .arm a x => c.key = .arm a ∧ v = { w with arms := .tabulate fun k => if k = a then x else w.arms.get k }
    | .injector h x =>
      c.key = .injector h ∧ v = { w with injectors := .tabulate fun k => if k = h then x else w.injectors.get k }
    | .pump p x => c.key = .pump p ∧ v = { w with pumpRest := .tabulate fun k => if k = p then x else w.pumpRest.get k }
    | .rack x => c.key = .rack ∧ v = { w with rack := x }
    | .bayService b x =>
      c.key = .bayService b ∧ v = { w with outOfService := .tabulate fun k => if k = b then x else w.outOfService.get k }
    | .audit x => c.key = .audit ∧ v = { w with audit := x }
    | .stock x => c.key = .stock ∧ v = { w with stock := x }
    | .note x next => c.key = .note x.number ∧ v = { w with notes := w.notes ++ [x], nextNote := next }
    | .release n =>
      c.key = .note n ∧ v = { w with notes := v.notes }
        ∧ (∀ before x after, w.notes = before ++ x :: after → x.number = n → (∀ y ∈ before, y.number ≠ n) → v.notes = after)
        ∧ ((∀ x ∈ w.notes, x.number ≠ n) → v.notes = [])
    | .totals a x => c.key = .totals a ∧ v = { w with totals := .tabulate fun k => if k = a then x else w.totals.get k })
  ∧ ∀ (c : NvContents) (cls : EntryClass) (s : State),
    let old := if c.isRelease then s.nvc.queue.filter fun e => !e.contents.isRelease || decide (e.contents.key = c.key)
      else s.nvc.queue
    ∀ q : List NvEntry,
      ((∀ e ∈ old, e.contents.key ≠ c.key) ∧ q = old ++ [{ contents := c, cls := cls }]
        ∨ ∃ before e after, old = before ++ e :: after ∧ e.contents.key = c.key
          ∧ (∀ d ∈ before ++ after, d.contents.key ≠ c.key)
          ∧ q = before ++ { contents := c, cls := if e.cls = .endClass then .endClass else cls } :: after) →
      ((s.condition ≠ .running ∨ s.nvc.buffer ≠ none ∨ s.nvc.areaWrite ≠ none ∨ s.nvc.phase = .drained ∧ s.nvc.clearDue = false) →
        s.commit c cls = { s with wc := s.wc.write c, nvc := { s.nvc with queue := q } })
      ∧ ∀ e rest, s.condition = .running → s.nvc.buffer = none → s.nvc.areaWrite = none → s.nvc.clearDue = false →
        s.nvc.phase = .normal → q = e :: rest →
        s.commit c cls = { s with wc := s.wc.write c, nvc := { s.nvc with buffer := some e, queue := rest } }

/-- The assertion of the warning drops each request not yet answered and each response not yet begun (the model's operand, log 7),
raises POWER_FAIL on every arm, which closes a flowing or PAUSED one, cuts off every shot and empties every Shot Queue, holds the
hand-overs of the arms in ENDING, and starts the drain: the write in progress goes on, and otherwise the oldest entry's begins, or
with an empty queue the checkpoint of the first arm that is not IDLE. The de-assertion lets every IDLE pump with a queue serve, with
the emergency stop inactive, sets the clearing due of an area that holds or is being given a checkpoint, begins it or the oldest
entry's write where no write is in progress, and takes the hand-overs it frees (R14, R123, R138, R140, R158, R160, R166). That
neither begins a write while restoration is in progress (log 18), and that a clearing due is begun before a new drain (log 34), is
the model's, and so is which held hand-overs the event takes where R166 keeps one back (log 11). -/
def Obligations.WarningIsAssertedAndReleased : Prop :=
  (∀ (begun : PerLink Bool) (s : State), s.condition = .running ∨ s.condition = .restoring → s.ic.warning = false →
    let n := s.nvc
    let warned : State :=
      { s with
        ic := { s.ic with warning := true }
        lc :=
          { s.lc with
            links := .tabulate fun l =>
              { s.lc.links.get l with
                slot :=
                  match (s.lc.links.get l).slot with
                  | .responding r => if begun.get l then .responding r else .empty
                  | .pending _ => .empty
                  | .empty => .empty } } }
    let stopped := [Arm.arm0, .arm1, .arm2, .arm3].foldl State.dosingLeft
      ((warned.raiseOn [.arm0, .arm1, .arm2, .arm3] .powerFail).cutShots fun _ => true)
    let drains : NvController := { n with phase := .draining }
    ∃ t x, exec (.powerFailWarningAssert begun) s = .next t
      ∧ t =
        { stopped with
          ns := { s.ns with held := .tabulate fun a => s.ns.held.get a || decide ((s.fc.get a).state = .ending) }
          nvc := x }
      ∧ ((s.condition = .restoring ∨ n.buffer ≠ none ∨ n.areaWrite ≠ none) → x = drains)
      ∧ (s.condition = .running → n.buffer = none → n.areaWrite = none →
        (n.clearDue = true → x = { drains with areaWrite := some .clearing, clearDue := false })
        ∧ (n.clearDue = false →
          (∀ e q, n.queue = e :: q → x = { drains with buffer := some e, queue := q })
          ∧ (n.queue = [] →
            ((∀ a, (s.fc.get a).state = .idle) → x = { n with phase := .drained })
            ∧ ∀ a rest, ([Arm.arm0, .arm1, .arm2, .arm3].filter fun k => (s.fc.get k).state ≠ .idle) = a :: rest →
              x = { n with phase := .checkpointing rest, areaWrite := some (.checkpoint a) })))
      ∧ (∀ a, (s.fc.get a).state = .idle → t.fc.get a = s.fc.get a)
      ∧ (∀ a, (s.fc.get a).state ≠ .idle → StopCause.powerFail ∈ (t.fc.get a).causes
        ∧ (StopCause.powerFail ∉ (s.fc.get a).causes →
          (s.fc.get a).state ∈ [ArmState.lowStart, .highFlow, .topOff, .paused] →
          (t.fc.get a).state = .closing ∧ (t.fc.get a).command = .close))
      ∧ (∀ p c, (t.adu.pumps.get p).status ≠ .shot c) ∧ ∀ c, (t.adu.channels.get c).place ≠ .queued)
  ∧ ∀ s : State, s.condition = .running ∨ s.condition = .restoring → s.ic.warning = true →
    let n := s.nvc
    let usual : NvController :=
      { n with
        phase := .normal
        clearDue :=
          match n.areaWrite with
          | some (.checkpoint _) => true
          | some .clearing => n.clearDue
          | none => n.clearDue || [Arm.arm0, .arm1, .arm2, .arm3].any fun a => (n.area.get a).isSome }
    let head : Additive → Option Channel := fun p =>
      if (s.adu.pumps.get p).status = .idle ∧ s.accepts .emergencyStop = true then (s.adu.pumps.get p).queue.head? else none
    let released : NvController → State := fun x =>
      { s with
        ic := { s.ic with warning := false }
        adu :=
          { channels := .tabulate fun c =>
              if Additive.all.any fun p => decide (head p = some c) then
                { s.adu.channels.get c with place := .inShot }
              else s.adu.channels.get c
            pumps := .tabulate fun p =>
              match head p with
              | none => s.adu.pumps.get p
              | some c =>
                { status := .shot c, queue := (s.adu.pumps.get p).queue.tail
                  restTimer := (s.adu.pumps.get p).restTimer
                  shotTimer := some (s.wc.injectors.get c).timeLimit, pulseCount := 0, volume := 0
                  target :=
                    ((s.wc.injectors.get c).shotVolume * (s.wc.injectors.get c).kMilli + 999999) / 1000000 } }
        nvc := x }
    ∃ x t, exec .powerFailWarningDeassert s = .next t ∧ s.freed (released x) = .next t
      ∧ ((∀ a, (s.fc.get a).state ≠ .ending) → t = released x)
      ∧ ((s.condition = .restoring ∨ n.buffer ≠ none ∨ n.areaWrite ≠ none) → x = usual)
      ∧ (s.condition = .running → n.buffer = none → n.areaWrite = none →
        (usual.clearDue = true → x = { usual with areaWrite := some .clearing, clearDue := false })
        ∧ (usual.clearDue = false →
          (n.queue = [] → x = usual) ∧ ∀ e q, n.queue = e :: q → x = { usual with buffer := some e, queue := q }))

/-- The reset line holds a powered part in reset, a loss of main power leaves it without power, and a backup supply that runs flat
leaves retained memory invalid. Restoration complete, the part runs with all counts 0 and the checkpoint area cleared, and the write
in the buffer or of the oldest entry goes on (log 18). A reset latches the straps: the baud rate, and the roles, a lower-numbered
link taking a bay panel's role and ROLE_CONFLICT set on the links that R12 names. It empties every volatile part and restores: with
the blank strap or no format mark, blank records; with retained memory valid (log 17), the working copies with every queued change,
the totalizers, residues, marks, clock, stock and next note number; otherwise the store as last written, the totals records, marks
for the checkpoints, a clock not set, and RETAINED_LOST. Then each running record found becomes, in arm order, a recovery note under
the next number: POWER_LOSS where the area holds a checkpoint, RESET otherwise, with NOTE_ADDED, CAUSE_RAISED where a line deviates,
its three entries, its mark cleared and its counter 0. That EXTERNAL_RESET finds retained memory valid and each reset acts as one
command (log 22), a blank initialisation with its format mark as a whole in it (log 36), that a strap value without a role is UNUSED
(log 27), that the warning is released (log 28), and that an event that cannot happen changes nothing (log 2), is the model's (R1,
R7, R14, R17, R36, R148, R157, R161 to R163, R168, R173). The set of arms that left flow in WARNING is the model's (log 32), and so
is the counter READ_ARM shows until the first interval end, the retained one as it was before a recovery note clears it, or 0 where
none is retained (log 13). -/
def Obligations.PowerAndResets : Prop :=
  (∀ s : State,
    (s.condition = .unpowered → exec .resetAsserted s = .next s)
    ∧ (s.condition ≠ .unpowered → exec .resetAsserted s = .next { s with condition := .heldInReset })
    ∧ exec .mainPowerLoss s = .next { s with condition := .unpowered }
    ∧ (s.condition = .unpowered →
      exec .backupSupplyRanFlat s = .next { s with nvc := { s.nvc with retainedValid := false } })
    ∧ (s.condition ≠ .unpowered → exec .backupSupplyRanFlat s = .next s)
    ∧ (s.condition ≠ .restoring → exec .restorationComplete s = .next s)
    ∧ (s.condition = .restoring → s.nvc.areaWrite = none → s.nvc.clearDue = false →
      (s.nvc.phase = .normal ∨ s.nvc.phase = .draining) →
      let runs : NvController → State := fun n =>
        { s with
          condition := .running
          ic :=
            { s.ic with
              meters := .tabulate fun a => { s.ic.meters.get a with counts := { nA := 0, nB := 0, reverse := 0 } } }
          nvc := n }
      (s.nvc.buffer ≠ none → exec .restorationComplete s = .next (runs { s.nvc with area := .const none }))
      ∧ (s.nvc.buffer = none →
        (s.nvc.queue = [] → s.nvc.phase = .normal →
          exec .restorationComplete s = .next (runs { s.nvc with area := .const none }))
        ∧ (s.nvc.queue = [] → s.nvc.phase = .draining → (∀ a, (s.fc.get a).state = .idle) →
          exec .restorationComplete s = .next (runs { s.nvc with area := .const none, phase := .drained }))
        ∧ ∀ e q, s.nvc.queue = e :: q →
          exec .restorationComplete s =
            .next (runs { s.nvc with area := .const none, buffer := some e, queue := q }))))
  ∧ ∀ (lines : ResetLines) (s : State) (o : Host.Outcome State Fault Refusal) (valid : Bool),
    (s.condition ≠ .unpowered ∧ o = exec (.externalReset lines) s ∧ valid = true)
      ∨ (o = exec (.powerOnReset lines) s ∧ valid = s.nvc.retainedValid) →
    let blank := lines.blankStrap || !s.nvc.formatMark
    let straps := lines.roleStraps.get
    let allLinks := [Link.sl0, .sl1, .sl2, .sl3]
    let allArms := [Arm.arm0, .arm1, .arm2, .arm3]
    let loses : Link → Bool := fun l =>
      (straps l = 2 || straps l = 3) && allLinks.any fun k => decide (k.toNat < l.toNat) && straps k = straps l
    let role : Link → Role := fun l =>
      if loses l then .unused
      else
        match straps l with
        | 1 => .office
        | 2 => .panel .bayA
        | 3 => .panel .bayB
        | 4 => .service
        | _ => .unused
    let copies : NvRecords :=
      if blank then .blank
      else if valid then
        { (s.nvc.buffer.toList ++ s.nvc.queue).foldl (fun w e => w.write e.contents) s.nvc.store with
          stock := s.wc.stock, nextNote := s.wc.nextNote }
      else s.nvc.store
    let found : Arm → Option Running := fun a =>
      if blank then none else if valid then s.running.get a else (s.nvc.area.get a).map Checkpoint.running
    let zero : MeteringChannel :=
      { rawResidue := 0, grossResidue := 0, netResidue := 0, reverseResidue := 0, gross := 0, net := 0, unauthorized := 0
        rateWindow := [0, 0, 0, 0], temperatures := [], shownTemperature := none, shownUnauthorized := 0 }
    let meter : Arm → MeteringChannel := fun a =>
      if blank then zero
      else if valid then
        { s.me.get a with
          rateWindow := [0, 0, 0, 0], temperatures := [], shownTemperature := none
          shownUnauthorized := (s.me.get a).unauthorized }
      else { zero with gross := (s.nvc.store.totals.get a).gross, net := (s.nvc.store.totals.get a).net }
    let clock : RackClock := if !blank && valid then s.lc.clock else { count := 0, isSet := false }
    let nvc : NvController :=
      if blank then
        { store := .blank, formatMark := true, blankStrap := lines.blankStrap, queue := [], buffer := none, phase := .normal
          areaWrite := none, clearDue := false, area := .const none, retainedValid := true, retainedLost := false }
      else if valid then
        { s.nvc with
          blankStrap := lines.blankStrap, phase := .normal, areaWrite := none, clearDue := false, retainedValid := true
          retainedLost := false }
      else
        { s.nvc with
          blankStrap := lines.blankStrap, queue := [], buffer := none, phase := .normal, areaWrite := none
          clearDue := false, retainedValid := true, retainedLost := true }
    let base : State :=
      { condition := .restoring
        lc :=
          { links := .tabulate fun l =>
              { strap := straps l, role := role l, receiver := .hunting, slot := .empty, planReset := false
                flags :=
                  { CFlags.clear with
                    roleConflict := allLinks.any loses && (loses l || role l = .office || role l = .service) }
                raised := .clear }
            baudStrap := lines.baudStrap, clock := clock }
        ic :=
          { inputs := .tabulate fun i =>
              { line := lines.inputs.get i, accepted := .deenergized, settled := false, timing := true }
            buttons := .const { state := .released, stuckTimer := none }
            meters := .tabulate fun a =>
              { lineA := lines.meterA.get a, lineB := lines.meterB.get a, counts := { nA := 0, nB := 0, reverse := 0 }
                last := none }
            additiveLines := lines.additive, warning := false }
        wc := copies
        pt := { bound := [] }
        ob := { orders := [] }
        bsc := .tabulate fun b =>
          { status := if copies.outOfService.get b then .outOfService else .locked, closePending := false, driver := none
            order := none, selection := { first := none, last := none, excluded := [] }, plan := [], pinTimer := none
            inactivityTimer := none, deadmanTimer := none, stage := .quiet, alarm := false, leftInWarning := [] }
        me := .tabulate meter
        fc := .tabulate fun a =>
          { state := .idle, command := .close, causes := [], releaseMark := false
            lead := min (copies.arms.get a).initialLead (copies.arms.get a).leadMaximum, closingCount := 0
            closingTimer := none, noFlowTimer := none, pauseTimer := none }
        running := .const none
        adu :=
          { channels := .tabulate fun c =>
              { serving := none, place := .none, owed := 0, failed := 0
                residue := if !blank && valid then (s.adu.channels.get c).residue else 0, leak := 0 }
            pumps := .const
              { status := .idle, queue := [], restTimer := none, shotTimer := none, pulseCount := 0, target := 0
                volume := 0 } }
        ns :=
          { reserved := .tabulate fun a =>
              !blank && (if valid then s.ns.reserved.get a else (s.nvc.area.get a).isSome)
            held := .const false }
        nvc := nvc
        pending := s.pending }
    let after : Nat → Nat := fun n => if n < 999999 then n + 1 else 1
    let marker := allArms.any fun a => (nvc.area.get a).isSome
    let note : Nat → Arm → Running → NoteRecord := fun number a y =>
      { number := number, bay := y.note.bay, arm := a, order := y.note.order, compartment := y.note.compartment
        driver := y.note.driver, vehicle := y.note.vehicle, product := y.note.product, recipe := y.note.recipe
        startTime := y.note.startTime, endTime := if clock.isSet then some clock.count else none, preset := y.note.preset
        gross := (y.metering.gross + 500) / 1000, net := (y.metering.net + 500) / 1000
        temperature :=
          if y.metering.gross = 0 then
            (match copies.products.find y.note.product with | none => 1500 | some p => p.fallback)
          else y.metering.weighted.tdiv y.metering.gross
        openGross := y.metering.openGross, openNet := y.metering.openNet
        closeGross :=
          if valid then (meter a).gross else (match s.nvc.area.get a with | none => (meter a).gross | some c => c.gross)
        closeNet := if valid then (meter a).net else (match s.nvc.area.get a with | none => (meter a).net | some c => c.net)
        lines := y.lines.map fun x =>
          { additive := x.additive, required := y.metering.gross * x.dose / 1000000, injected := x.injected
            shots := x.requested }
        endReason := if marker then .powerLoss else .reset
        tempSubstituted := y.metering.tempSubstituted, probeFault := y.metering.probeFault
        vcfClamped := y.metering.vcfClamped, overrun := y.flow.overrun, deviation := y.deviates copies
        pulseErrorsSeen := y.metering.pulseErrorsSeen, recovered := true }
    let notes := (allArms.filterMap fun a => (found a).map fun y => (a, y)).mapIdx fun i p =>
      note (after^[i] copies.nextNote) p.1 p.2
    let totals : Arm → Totals := fun a => { gross := (meter a).gross, net := (meter a).net }
    let entries := notes.flatMap fun n =>
      [NvEntry.mk (.note n (after n.number)) .endClass, .mk (.totals n.arm (totals n.arm)) .endClass,
        .mk (.stock copies.stock) .endClass]
    base.becomes o
        (notes.flatMap fun n => if n.deviation then [.noteAdded n.bay, .causeRaised n.arm] else [.noteAdded n.bay])
        { base with
          wc :=
            { copies with
              notes := copies.notes ++ notes, nextNote := after^[notes.length] copies.nextNote
              totals := .tabulate fun a => if (found a).isSome then totals a else copies.totals.get a }
          me := .tabulate fun a => if (found a).isSome then { meter a with unauthorized := 0 } else meter a
          ns := { base.ns with reserved := .tabulate fun a => base.ns.reserved.get a && !(found a).isSome }
          nvc := { nvc with queue := entries.foldl enqueue nvc.queue } }
      ∧ ∀ t, o = .next t →
        t.lc.baudRate =
          match lines.baudStrap with
          | 1 => 19200
          | 2 => 38400
          | 3 => 57600
          | 4 => 115200
          | _ => 9600

/-! ### Invariants (R37 to R39, R55, R58, R61, R74, R90 to R92, R94, R107 to R112, R149, R164) -/

/-- Every step keeps the law of the valves and the law of the dead-man timer: the valve is closed outside the flowing states, an arm
flows only with an empty set and its loading permissive condition holding, and the dead-man timer runs exactly while an arm of
the bay flows, the alarm exactly while one holds DEADMAN (R90 to R92, R111, R112). -/
def Obligations.FlowAndDeadmanLawsAreKept : Prop :=
  ∀ s t : State, s.flowLaw → s.deadmanLaw → step s = .next t → t.flowLaw ∧ t.deadmanLaw

/-- Every step keeps the law of the sessions: an arm that is not IDLE works within a LOADING bay whose inactivity timer is
stopped, on the order that bay holds; only a bay in PLANNING or LOADING holds an order; and an order held by a bay is the one
that bay's controller holds (R74, R81, R82, R86, R87, R112). -/
def Obligations.SessionLawIsKept : Prop :=
  ∀ s t : State, s.sessionLaw → step s = .next t → t.sessionLaw

/-- Every step keeps the law of the totalizers: an arm has a running record exactly while it is not IDLE, and its opening totalizers
with what was credited since are the totalizers, whatever the step, modulo 10^12 (R94, R107 to R109). -/
def Obligations.TotalsLawIsKept : Prop :=
  ∀ s t : State, s.totalsLaw → step s = .next t → t.totalsLaw

/-- Every step keeps the keyed tables in their canonical form, and the two sides of the driver binding in agreement
(R37, R55, R58, R61, R74). -/
def Obligations.TablesAndBindingAreKept : Prop :=
  ∀ s t : State, s.tablesLaw → s.bindingLaw → step s = .next t → t.tablesLaw ∧ t.bindingLaw

/-- Every step keeps the NV Write Queue free of two entries for one record and of a second release entry. It keeps the queue with all
that may still join it before the next request that needs an entry, State.queueLoad, within 23 entries, where the law of the
sessions holds too; and the queue is never longer than that, so that it stays within the 24 of its bound (R164 to R167). -/
def Obligations.QueueLawIsKept : Prop :=
  (∀ s t : State, s.nvc.queueLaw → step s = .next t → t.nvc.queueLaw)
    ∧ (∀ s t : State, s.nvc.queueLaw → s.sessionLaw → s.queueLoad ≤ 23 → step s = .next t → t.queueLoad ≤ 23)
    ∧ ∀ s : State, s.nvc.queue.length ≤ s.queueLoad

/-- Every step but a reset that finds retained memory lost keeps notes and reservations together within the 64 slots, with a
reservation for every arm that is not IDLE, and every driver record in step with the attempt limit. Where that step is a reset, the
working copies are those rebuilt from store, buffer and queue before it and the retained totals are the copies' (each a law of its
own), so that each recovery note takes the slot its reservation held. The law of the copies is kept by every step, a reset with
retained memory lost among them, and is claimed only where the next four note numbers are free: none of them stands in the store or,
where these are kept, in the buffer or the queue. At a reset that finds retained memory lost neither the 64 nor the attempt limit is
claimed: the notes as last written need not be those that the reservations were counted with, and the drivers as last written need
not fit the rack record as last written (log 30) (R39, R148, R149, R161 to R164, R168). -/
def Obligations.NotesAndAttemptLawsAreKept : Prop :=
  (∀ s t : State, (∀ c rest, s.pending = c :: rest → c.isReset = false) → step s = .next t →
    (s.notesLaw → t.notesLaw) ∧ (s.attemptLaw → t.attemptLaw))
  ∧ ∀ s t : State, s.tablesLaw → s.nvc.queueLaw → step s = .next t →
    let lost := ∃ x rest, s.pending = .powerOnReset x :: rest ∧ x.blankStrap = false ∧ s.nvc.formatMark = true
      ∧ s.nvc.retainedValid = false
    (¬ lost → s.copiesLaw → s.totalsLaw → (s.notesLaw → t.notesLaw) ∧ (s.attemptLaw → t.attemptLaw))
      ∧ (¬ lost → s.copiesLaw → s.nvc.numbersFree s.wc.nextNote → t.copiesLaw)
      ∧ (lost → s.copiesLaw →
        NvController.numbersFree { s.nvc with buffer := none, queue := [] } s.nvc.store.nextNote → t.copiesLaw)

/-- The state after reset, which log 5 fixes as that of a new device, meets every law. -/
def Obligations.ResetMeetsTheLaws : Prop :=
  State.reset.flowLaw ∧ State.reset.deadmanLaw ∧ State.reset.sessionLaw ∧ State.reset.totalsLaw ∧ State.reset.tablesLaw ∧ State.reset.bindingLaw
    ∧ State.reset.nvc.queueLaw ∧ State.reset.queueLoad ≤ 23 ∧ State.reset.notesLaw ∧ State.reset.attemptLaw
    ∧ State.reset.copiesLaw
end

