-- ==== Sys2Proof/Laws/Index.lean ====
section
/-! SUPPORT. One value per member: what `get` reads after `set`, `modify`, `tabulate` and `const`. -/

namespace Sys2Proof

variable {α : Type}

@[simp] theorem PerBay.get_tabulate (f : Bay → α) (i : Bay) : (PerBay.tabulate f).get i = f i := by cases i <;> rfl

@[simp] theorem PerBay.get_const (x : α) (i : Bay) : (PerBay.const x).get i = x := by cases i <;> rfl

@[simp] theorem PerBay.get_set_self (v : PerBay α) (i : Bay) (x : α) : (v.set i x).get i = x := by cases i <;> rfl

@[simp] theorem PerBay.set_get_self (v : PerBay α) (i : Bay) : v.set i (v.get i) = v := by cases i <;> rfl

@[simp] theorem PerBay.set_set (v : PerBay α) (i : Bay) (x y : α) : (v.set i x).set i y = v.set i y := by
  cases i <;> rfl

theorem PerBay.get_set (v : PerBay α) (i j : Bay) (x : α) : (v.set i x).get j = if j = i then x else v.get j := by
  cases i <;> cases j <;> rfl

theorem PerBay.get_set_of_ne (v : PerBay α) {i j : Bay} (x : α) (h : j ≠ i) : (v.set i x).get j = v.get j := by
  rw [PerBay.get_set, if_neg h]

@[simp] theorem PerBay.get_modify_self (v : PerBay α) (i : Bay) (f : α → α) : (v.modify i f).get i = f (v.get i) := by
  simp [PerBay.modify]

theorem PerBay.get_modify (v : PerBay α) (i j : Bay) (f : α → α) :
    (v.modify i f).get j = if j = i then f (v.get j) else v.get j := by
  cases i <;> cases j <;> rfl

theorem PerBay.get_modify_of_ne (v : PerBay α) {i j : Bay} (f : α → α) (h : j ≠ i) : (v.modify i f).get j = v.get j := by
  rw [PerBay.get_modify, if_neg h]

theorem PerBay.ext_get {v w : PerBay α} (h : ∀ i, v.get i = w.get i) : v = w := by
  cases v; cases w
  simp only [PerBay.mk.injEq]
  exact ⟨h .bayA, h .bayB⟩

@[simp] theorem PerBay.modify_id_of (v : PerBay α) (i : Bay) (f : α → α) (h : f (v.get i) = v.get i) : v.modify i f = v :=
  PerBay.ext_get fun j => by
    rw [PerBay.get_modify]
    split
    · rename_i e; rw [e, h]
    · rfl

@[simp] theorem PerLink.get_tabulate (f : Link → α) (i : Link) : (PerLink.tabulate f).get i = f i := by cases i <;> rfl

@[simp] theorem PerLink.get_const (x : α) (i : Link) : (PerLink.const x).get i = x := by cases i <;> rfl

@[simp] theorem PerLink.get_set_self (v : PerLink α) (i : Link) (x : α) : (v.set i x).get i = x := by cases i <;> rfl

@[simp] theorem PerLink.set_get_self (v : PerLink α) (i : Link) : v.set i (v.get i) = v := by cases i <;> rfl

@[simp] theorem PerLink.set_set (v : PerLink α) (i : Link) (x y : α) : (v.set i x).set i y = v.set i y := by
  cases i <;> rfl

theorem PerLink.get_set (v : PerLink α) (i j : Link) (x : α) : (v.set i x).get j = if j = i then x else v.get j := by
  cases i <;> cases j <;> rfl

theorem PerLink.get_set_of_ne (v : PerLink α) {i j : Link} (x : α) (h : j ≠ i) : (v.set i x).get j = v.get j := by
  rw [PerLink.get_set, if_neg h]

@[simp] theorem PerLink.get_modify_self (v : PerLink α) (i : Link) (f : α → α) : (v.modify i f).get i = f (v.get i) := by
  simp [PerLink.modify]

theorem PerLink.get_modify (v : PerLink α) (i j : Link) (f : α → α) :
    (v.modify i f).get j = if j = i then f (v.get j) else v.get j := by
  cases i <;> cases j <;> rfl

theorem PerLink.get_modify_of_ne (v : PerLink α) {i j : Link} (f : α → α) (h : j ≠ i) : (v.modify i f).get j = v.get j := by
  rw [PerLink.get_modify, if_neg h]

theorem PerLink.ext_get {v w : PerLink α} (h : ∀ i, v.get i = w.get i) : v = w := by
  cases v; cases w
  simp only [PerLink.mk.injEq]
  exact ⟨h .sl0, h .sl1, h .sl2, h .sl3⟩

@[simp] theorem PerLink.modify_id_of (v : PerLink α) (i : Link) (f : α → α) (h : f (v.get i) = v.get i) : v.modify i f = v :=
  PerLink.ext_get fun j => by
    rw [PerLink.get_modify]
    split
    · rename_i e; rw [e, h]
    · rfl

@[simp] theorem PerArm.get_tabulate (f : Arm → α) (i : Arm) : (PerArm.tabulate f).get i = f i := by cases i <;> rfl

@[simp] theorem PerArm.get_const (x : α) (i : Arm) : (PerArm.const x).get i = x := by cases i <;> rfl

@[simp] theorem PerArm.get_set_self (v : PerArm α) (i : Arm) (x : α) : (v.set i x).get i = x := by cases i <;> rfl

@[simp] theorem PerArm.set_get_self (v : PerArm α) (i : Arm) : v.set i (v.get i) = v := by cases i <;> rfl

@[simp] theorem PerArm.set_set (v : PerArm α) (i : Arm) (x y : α) : (v.set i x).set i y = v.set i y := by
  cases i <;> rfl

theorem PerArm.get_set (v : PerArm α) (i j : Arm) (x : α) : (v.set i x).get j = if j = i then x else v.get j := by
  cases i <;> cases j <;> rfl

theorem PerArm.get_set_of_ne (v : PerArm α) {i j : Arm} (x : α) (h : j ≠ i) : (v.set i x).get j = v.get j := by
  rw [PerArm.get_set, if_neg h]

@[simp] theorem PerArm.get_modify_self (v : PerArm α) (i : Arm) (f : α → α) : (v.modify i f).get i = f (v.get i) := by
  simp [PerArm.modify]

theorem PerArm.get_modify (v : PerArm α) (i j : Arm) (f : α → α) :
    (v.modify i f).get j = if j = i then f (v.get j) else v.get j := by
  cases i <;> cases j <;> rfl

theorem PerArm.get_modify_of_ne (v : PerArm α) {i j : Arm} (f : α → α) (h : j ≠ i) : (v.modify i f).get j = v.get j := by
  rw [PerArm.get_modify, if_neg h]

theorem PerArm.ext_get {v w : PerArm α} (h : ∀ i, v.get i = w.get i) : v = w := by
  cases v; cases w
  simp only [PerArm.mk.injEq]
  exact ⟨h .arm0, h .arm1, h .arm2, h .arm3⟩

@[simp] theorem PerArm.modify_id_of (v : PerArm α) (i : Arm) (f : α → α) (h : f (v.get i) = v.get i) : v.modify i f = v :=
  PerArm.ext_get fun j => by
    rw [PerArm.get_modify]
    split
    · rename_i e; rw [e, h]
    · rfl

@[simp] theorem PerChannel.get_tabulate (f : Channel → α) (i : Channel) : (PerChannel.tabulate f).get i = f i := by cases i <;> rfl

@[simp] theorem PerChannel.get_const (x : α) (i : Channel) : (PerChannel.const x).get i = x := by cases i <;> rfl

@[simp] theorem PerChannel.get_set_self (v : PerChannel α) (i : Channel) (x : α) : (v.set i x).get i = x := by cases i <;> rfl

@[simp] theorem PerChannel.set_get_self (v : PerChannel α) (i : Channel) : v.set i (v.get i) = v := by cases i <;> rfl

@[simp] theorem PerChannel.set_set (v : PerChannel α) (i : Channel) (x y : α) : (v.set i x).set i y = v.set i y := by
  cases i <;> rfl

theorem PerChannel.get_set (v : PerChannel α) (i j : Channel) (x : α) : (v.set i x).get j = if j = i then x else v.get j := by
  cases i <;> cases j <;> rfl

theorem PerChannel.get_set_of_ne (v : PerChannel α) {i j : Channel} (x : α) (h : j ≠ i) : (v.set i x).get j = v.get j := by
  rw [PerChannel.get_set, if_neg h]

@[simp] theorem PerChannel.get_modify_self (v : PerChannel α) (i : Channel) (f : α → α) : (v.modify i f).get i = f (v.get i) := by
  simp [PerChannel.modify]

theorem PerChannel.get_modify (v : PerChannel α) (i j : Channel) (f : α → α) :
    (v.modify i f).get j = if j = i then f (v.get j) else v.get j := by
  cases i <;> cases j <;> rfl

theorem PerChannel.get_modify_of_ne (v : PerChannel α) {i j : Channel} (f : α → α) (h : j ≠ i) : (v.modify i f).get j = v.get j := by
  rw [PerChannel.get_modify, if_neg h]

theorem PerChannel.ext_get {v w : PerChannel α} (h : ∀ i, v.get i = w.get i) : v = w := by
  cases v; cases w
  simp only [PerChannel.mk.injEq]
  exact ⟨h .ch0, h .ch1, h .ch2, h .ch3, h .ch4, h .ch5, h .ch6, h .ch7⟩

@[simp] theorem PerChannel.modify_id_of (v : PerChannel α) (i : Channel) (f : α → α) (h : f (v.get i) = v.get i) : v.modify i f = v :=
  PerChannel.ext_get fun j => by
    rw [PerChannel.get_modify]
    split
    · rename_i e; rw [e, h]
    · rfl

@[simp] theorem PerAdditive.get_tabulate (f : Additive → α) (i : Additive) : (PerAdditive.tabulate f).get i = f i := by cases i <;> rfl

@[simp] theorem PerAdditive.get_const (x : α) (i : Additive) : (PerAdditive.const x).get i = x := by cases i <;> rfl

@[simp] theorem PerAdditive.get_set_self (v : PerAdditive α) (i : Additive) (x : α) : (v.set i x).get i = x := by cases i <;> rfl

@[simp] theorem PerAdditive.set_get_self (v : PerAdditive α) (i : Additive) : v.set i (v.get i) = v := by cases i <;> rfl

@[simp] theorem PerAdditive.set_set (v : PerAdditive α) (i : Additive) (x y : α) : (v.set i x).set i y = v.set i y := by
  cases i <;> rfl

theorem PerAdditive.get_set (v : PerAdditive α) (i j : Additive) (x : α) : (v.set i x).get j = if j = i then x else v.get j := by
  cases i <;> cases j <;> rfl

theorem PerAdditive.get_set_of_ne (v : PerAdditive α) {i j : Additive} (x : α) (h : j ≠ i) : (v.set i x).get j = v.get j := by
  rw [PerAdditive.get_set, if_neg h]

@[simp] theorem PerAdditive.get_modify_self (v : PerAdditive α) (i : Additive) (f : α → α) : (v.modify i f).get i = f (v.get i) := by
  simp [PerAdditive.modify]

theorem PerAdditive.get_modify (v : PerAdditive α) (i j : Additive) (f : α → α) :
    (v.modify i f).get j = if j = i then f (v.get j) else v.get j := by
  cases i <;> cases j <;> rfl

theorem PerAdditive.get_modify_of_ne (v : PerAdditive α) {i j : Additive} (f : α → α) (h : j ≠ i) : (v.modify i f).get j = v.get j := by
  rw [PerAdditive.get_modify, if_neg h]

theorem PerAdditive.ext_get {v w : PerAdditive α} (h : ∀ i, v.get i = w.get i) : v = w := by
  cases v; cases w
  simp only [PerAdditive.mk.injEq]
  exact ⟨h .type1, h .type2, h .type3, h .type4, h .type5, h .type6⟩

@[simp] theorem PerAdditive.modify_id_of (v : PerAdditive α) (i : Additive) (f : α → α) (h : f (v.get i) = v.get i) : v.modify i f = v :=
  PerAdditive.ext_get fun j => by
    rw [PerAdditive.get_modify]
    split
    · rename_i e; rw [e, h]
    · rfl

@[simp] theorem PerInput.get_tabulate (f : DiscreteInput → α) (i : DiscreteInput) : (PerInput.tabulate f).get i = f i := by
  rcases i with ⟨p, b⟩ | a | _ | b | _
  · cases p <;> simp [PerInput.get, PerInput.tabulate]
  all_goals simp [PerInput.get, PerInput.tabulate]

@[simp] theorem PerInput.get_const (x : α) (i : DiscreteInput) : (PerInput.const x).get i = x := by simp [PerInput.const]

@[simp] theorem PerInput.get_set_self (v : PerInput α) (i : DiscreteInput) (x : α) : (v.set i x).get i = x := by
  rcases i with ⟨p, b⟩ | a | _ | b | _
  · cases p <;> simp [PerInput.get, PerInput.set]
  all_goals simp [PerInput.get, PerInput.set]

theorem PerInput.get_set_of_ne (v : PerInput α) {i j : DiscreteInput} (x : α) (h : j ≠ i) :
    (v.set i x).get j = v.get j := by
  rcases i with ⟨p, b⟩ | a | _ | b | _ <;> rcases j with ⟨q, c⟩ | d | _ | c | _ <;> (try cases p) <;> (try cases q) <;>
    simp_all [PerInput.get, PerInput.set, PerBay.get_set, PerArm.get_set]

end Sys2Proof
end

