-- ==== Sys2Proof/Laws/State.lean ====
section
/-! SUPPORT. Each update of the state, field by field: what it writes, and that it leaves every other field alone. -/

namespace Sys2Proof.Machine

variable (s : State)

/-- Two states are one if they agree in every part. -/
theorem State.eq_of_parts {s t : State} (condition : s.condition = t.condition) (lc : s.lc = t.lc) (ic : s.ic = t.ic)
    (wc : s.wc = t.wc) (pt : s.pt = t.pt) (ob : s.ob = t.ob) (bsc : s.bsc = t.bsc) (me : s.me = t.me) (fc : s.fc = t.fc)
    (running : s.running = t.running) (adu : s.adu = t.adu) (ns : s.ns = t.ns) (nvc : s.nvc = t.nvc)
    (pending : s.pending = t.pending) : s = t := by
  cases s; cases t; simp_all

@[simp] theorem State.modifyLink_condition (l : Link) (f : StationLink → StationLink) :
    (s.modifyLink l f).condition = s.condition := rfl
@[simp] theorem State.modifyLink_lc (l : Link) (f : StationLink → StationLink) :
    (s.modifyLink l f).lc = { s.lc with links := s.lc.links.modify l f } := rfl
@[simp] theorem State.modifyLink_ic (l : Link) (f : StationLink → StationLink) : (s.modifyLink l f).ic = s.ic := rfl
@[simp] theorem State.modifyLink_wc (l : Link) (f : StationLink → StationLink) : (s.modifyLink l f).wc = s.wc := rfl
@[simp] theorem State.modifyLink_pt (l : Link) (f : StationLink → StationLink) : (s.modifyLink l f).pt = s.pt := rfl
@[simp] theorem State.modifyLink_ob (l : Link) (f : StationLink → StationLink) : (s.modifyLink l f).ob = s.ob := rfl
@[simp] theorem State.modifyLink_bsc (l : Link) (f : StationLink → StationLink) : (s.modifyLink l f).bsc = s.bsc := rfl
@[simp] theorem State.modifyLink_me (l : Link) (f : StationLink → StationLink) : (s.modifyLink l f).me = s.me := rfl
@[simp] theorem State.modifyLink_fc (l : Link) (f : StationLink → StationLink) : (s.modifyLink l f).fc = s.fc := rfl
@[simp] theorem State.modifyLink_running (l : Link) (f : StationLink → StationLink) :
    (s.modifyLink l f).running = s.running := rfl
@[simp] theorem State.modifyLink_adu (l : Link) (f : StationLink → StationLink) : (s.modifyLink l f).adu = s.adu := rfl
@[simp] theorem State.modifyLink_ns (l : Link) (f : StationLink → StationLink) : (s.modifyLink l f).ns = s.ns := rfl
@[simp] theorem State.modifyLink_nvc (l : Link) (f : StationLink → StationLink) : (s.modifyLink l f).nvc = s.nvc := rfl
@[simp] theorem State.modifyLink_pending (l : Link) (f : StationLink → StationLink) :
    (s.modifyLink l f).pending = s.pending := rfl

@[simp] theorem State.setClock_condition (c : RackClock) : (s.setClock c).condition = s.condition := rfl
@[simp] theorem State.setClock_lc (c : RackClock) : (s.setClock c).lc = { s.lc with clock := c } := rfl
@[simp] theorem State.setClock_ic (c : RackClock) : (s.setClock c).ic = s.ic := rfl
@[simp] theorem State.setClock_wc (c : RackClock) : (s.setClock c).wc = s.wc := rfl
@[simp] theorem State.setClock_pt (c : RackClock) : (s.setClock c).pt = s.pt := rfl
@[simp] theorem State.setClock_ob (c : RackClock) : (s.setClock c).ob = s.ob := rfl
@[simp] theorem State.setClock_bsc (c : RackClock) : (s.setClock c).bsc = s.bsc := rfl
@[simp] theorem State.setClock_me (c : RackClock) : (s.setClock c).me = s.me := rfl
@[simp] theorem State.setClock_fc (c : RackClock) : (s.setClock c).fc = s.fc := rfl
@[simp] theorem State.setClock_running (c : RackClock) : (s.setClock c).running = s.running := rfl
@[simp] theorem State.setClock_adu (c : RackClock) : (s.setClock c).adu = s.adu := rfl
@[simp] theorem State.setClock_ns (c : RackClock) : (s.setClock c).ns = s.ns := rfl
@[simp] theorem State.setClock_nvc (c : RackClock) : (s.setClock c).nvc = s.nvc := rfl
@[simp] theorem State.setClock_pending (c : RackClock) : (s.setClock c).pending = s.pending := rfl

@[simp] theorem State.setInput_condition (i : DiscreteInput) (x : InputState) : (s.setInput i x).condition = s.condition := rfl
@[simp] theorem State.setInput_lc (i : DiscreteInput) (x : InputState) : (s.setInput i x).lc = s.lc := rfl
@[simp] theorem State.setInput_ic (i : DiscreteInput) (x : InputState) :
    (s.setInput i x).ic = { s.ic with inputs := s.ic.inputs.set i x } := rfl
@[simp] theorem State.setInput_wc (i : DiscreteInput) (x : InputState) : (s.setInput i x).wc = s.wc := rfl
@[simp] theorem State.setInput_pt (i : DiscreteInput) (x : InputState) : (s.setInput i x).pt = s.pt := rfl
@[simp] theorem State.setInput_ob (i : DiscreteInput) (x : InputState) : (s.setInput i x).ob = s.ob := rfl
@[simp] theorem State.setInput_bsc (i : DiscreteInput) (x : InputState) : (s.setInput i x).bsc = s.bsc := rfl
@[simp] theorem State.setInput_me (i : DiscreteInput) (x : InputState) : (s.setInput i x).me = s.me := rfl
@[simp] theorem State.setInput_fc (i : DiscreteInput) (x : InputState) : (s.setInput i x).fc = s.fc := rfl
@[simp] theorem State.setInput_running (i : DiscreteInput) (x : InputState) : (s.setInput i x).running = s.running := rfl
@[simp] theorem State.setInput_adu (i : DiscreteInput) (x : InputState) : (s.setInput i x).adu = s.adu := rfl
@[simp] theorem State.setInput_ns (i : DiscreteInput) (x : InputState) : (s.setInput i x).ns = s.ns := rfl
@[simp] theorem State.setInput_nvc (i : DiscreteInput) (x : InputState) : (s.setInput i x).nvc = s.nvc := rfl
@[simp] theorem State.setInput_pending (i : DiscreteInput) (x : InputState) : (s.setInput i x).pending = s.pending := rfl

@[simp] theorem State.setButton_condition (b : Bay) (x : Button) : (s.setButton b x).condition = s.condition := rfl
@[simp] theorem State.setButton_lc (b : Bay) (x : Button) : (s.setButton b x).lc = s.lc := rfl
@[simp] theorem State.setButton_ic (b : Bay) (x : Button) :
    (s.setButton b x).ic = { s.ic with buttons := s.ic.buttons.set b x } := rfl
@[simp] theorem State.setButton_wc (b : Bay) (x : Button) : (s.setButton b x).wc = s.wc := rfl
@[simp] theorem State.setButton_pt (b : Bay) (x : Button) : (s.setButton b x).pt = s.pt := rfl
@[simp] theorem State.setButton_ob (b : Bay) (x : Button) : (s.setButton b x).ob = s.ob := rfl
@[simp] theorem State.setButton_bsc (b : Bay) (x : Button) : (s.setButton b x).bsc = s.bsc := rfl
@[simp] theorem State.setButton_me (b : Bay) (x : Button) : (s.setButton b x).me = s.me := rfl
@[simp] theorem State.setButton_fc (b : Bay) (x : Button) : (s.setButton b x).fc = s.fc := rfl
@[simp] theorem State.setButton_running (b : Bay) (x : Button) : (s.setButton b x).running = s.running := rfl
@[simp] theorem State.setButton_adu (b : Bay) (x : Button) : (s.setButton b x).adu = s.adu := rfl
@[simp] theorem State.setButton_ns (b : Bay) (x : Button) : (s.setButton b x).ns = s.ns := rfl
@[simp] theorem State.setButton_nvc (b : Bay) (x : Button) : (s.setButton b x).nvc = s.nvc := rfl
@[simp] theorem State.setButton_pending (b : Bay) (x : Button) : (s.setButton b x).pending = s.pending := rfl

@[simp] theorem State.setMeter_condition (a : Arm) (x : MeterInput) : (s.setMeter a x).condition = s.condition := rfl
@[simp] theorem State.setMeter_lc (a : Arm) (x : MeterInput) : (s.setMeter a x).lc = s.lc := rfl
@[simp] theorem State.setMeter_ic (a : Arm) (x : MeterInput) :
    (s.setMeter a x).ic = { s.ic with meters := s.ic.meters.set a x } := rfl
@[simp] theorem State.setMeter_wc (a : Arm) (x : MeterInput) : (s.setMeter a x).wc = s.wc := rfl
@[simp] theorem State.setMeter_pt (a : Arm) (x : MeterInput) : (s.setMeter a x).pt = s.pt := rfl
@[simp] theorem State.setMeter_ob (a : Arm) (x : MeterInput) : (s.setMeter a x).ob = s.ob := rfl
@[simp] theorem State.setMeter_bsc (a : Arm) (x : MeterInput) : (s.setMeter a x).bsc = s.bsc := rfl
@[simp] theorem State.setMeter_me (a : Arm) (x : MeterInput) : (s.setMeter a x).me = s.me := rfl
@[simp] theorem State.setMeter_fc (a : Arm) (x : MeterInput) : (s.setMeter a x).fc = s.fc := rfl
@[simp] theorem State.setMeter_running (a : Arm) (x : MeterInput) : (s.setMeter a x).running = s.running := rfl
@[simp] theorem State.setMeter_adu (a : Arm) (x : MeterInput) : (s.setMeter a x).adu = s.adu := rfl
@[simp] theorem State.setMeter_ns (a : Arm) (x : MeterInput) : (s.setMeter a x).ns = s.ns := rfl
@[simp] theorem State.setMeter_nvc (a : Arm) (x : MeterInput) : (s.setMeter a x).nvc = s.nvc := rfl
@[simp] theorem State.setMeter_pending (a : Arm) (x : MeterInput) : (s.setMeter a x).pending = s.pending := rfl

@[simp] theorem State.setAdditiveLine_condition (c : Channel) (x : LineLevel) :
    (s.setAdditiveLine c x).condition = s.condition := rfl
@[simp] theorem State.setAdditiveLine_lc (c : Channel) (x : LineLevel) : (s.setAdditiveLine c x).lc = s.lc := rfl
@[simp] theorem State.setAdditiveLine_ic (c : Channel) (x : LineLevel) :
    (s.setAdditiveLine c x).ic = { s.ic with additiveLines := s.ic.additiveLines.set c x } := rfl
@[simp] theorem State.setAdditiveLine_wc (c : Channel) (x : LineLevel) : (s.setAdditiveLine c x).wc = s.wc := rfl
@[simp] theorem State.setAdditiveLine_pt (c : Channel) (x : LineLevel) : (s.setAdditiveLine c x).pt = s.pt := rfl
@[simp] theorem State.setAdditiveLine_ob (c : Channel) (x : LineLevel) : (s.setAdditiveLine c x).ob = s.ob := rfl
@[simp] theorem State.setAdditiveLine_bsc (c : Channel) (x : LineLevel) : (s.setAdditiveLine c x).bsc = s.bsc := rfl
@[simp] theorem State.setAdditiveLine_me (c : Channel) (x : LineLevel) : (s.setAdditiveLine c x).me = s.me := rfl
@[simp] theorem State.setAdditiveLine_fc (c : Channel) (x : LineLevel) : (s.setAdditiveLine c x).fc = s.fc := rfl
@[simp] theorem State.setAdditiveLine_running (c : Channel) (x : LineLevel) : (s.setAdditiveLine c x).running = s.running := rfl
@[simp] theorem State.setAdditiveLine_adu (c : Channel) (x : LineLevel) : (s.setAdditiveLine c x).adu = s.adu := rfl
@[simp] theorem State.setAdditiveLine_ns (c : Channel) (x : LineLevel) : (s.setAdditiveLine c x).ns = s.ns := rfl
@[simp] theorem State.setAdditiveLine_nvc (c : Channel) (x : LineLevel) : (s.setAdditiveLine c x).nvc = s.nvc := rfl
@[simp] theorem State.setAdditiveLine_pending (c : Channel) (x : LineLevel) : (s.setAdditiveLine c x).pending = s.pending := rfl

@[simp] theorem State.setWarning_condition (x : Bool) : (s.setWarning x).condition = s.condition := rfl
@[simp] theorem State.setWarning_lc (x : Bool) : (s.setWarning x).lc = s.lc := rfl
@[simp] theorem State.setWarning_ic (x : Bool) : (s.setWarning x).ic = { s.ic with warning := x } := rfl
@[simp] theorem State.setWarning_wc (x : Bool) : (s.setWarning x).wc = s.wc := rfl
@[simp] theorem State.setWarning_pt (x : Bool) : (s.setWarning x).pt = s.pt := rfl
@[simp] theorem State.setWarning_ob (x : Bool) : (s.setWarning x).ob = s.ob := rfl
@[simp] theorem State.setWarning_bsc (x : Bool) : (s.setWarning x).bsc = s.bsc := rfl
@[simp] theorem State.setWarning_me (x : Bool) : (s.setWarning x).me = s.me := rfl
@[simp] theorem State.setWarning_fc (x : Bool) : (s.setWarning x).fc = s.fc := rfl
@[simp] theorem State.setWarning_running (x : Bool) : (s.setWarning x).running = s.running := rfl
@[simp] theorem State.setWarning_adu (x : Bool) : (s.setWarning x).adu = s.adu := rfl
@[simp] theorem State.setWarning_ns (x : Bool) : (s.setWarning x).ns = s.ns := rfl
@[simp] theorem State.setWarning_nvc (x : Bool) : (s.setWarning x).nvc = s.nvc := rfl
@[simp] theorem State.setWarning_pending (x : Bool) : (s.setWarning x).pending = s.pending := rfl

@[simp] theorem State.setCopies_condition (x : NvRecords) : (s.setCopies x).condition = s.condition := rfl
@[simp] theorem State.setCopies_lc (x : NvRecords) : (s.setCopies x).lc = s.lc := rfl
@[simp] theorem State.setCopies_ic (x : NvRecords) : (s.setCopies x).ic = s.ic := rfl
@[simp] theorem State.setCopies_wc (x : NvRecords) : (s.setCopies x).wc = x := rfl
@[simp] theorem State.setCopies_pt (x : NvRecords) : (s.setCopies x).pt = s.pt := rfl
@[simp] theorem State.setCopies_ob (x : NvRecords) : (s.setCopies x).ob = s.ob := rfl
@[simp] theorem State.setCopies_bsc (x : NvRecords) : (s.setCopies x).bsc = s.bsc := rfl
@[simp] theorem State.setCopies_me (x : NvRecords) : (s.setCopies x).me = s.me := rfl
@[simp] theorem State.setCopies_fc (x : NvRecords) : (s.setCopies x).fc = s.fc := rfl
@[simp] theorem State.setCopies_running (x : NvRecords) : (s.setCopies x).running = s.running := rfl
@[simp] theorem State.setCopies_adu (x : NvRecords) : (s.setCopies x).adu = s.adu := rfl
@[simp] theorem State.setCopies_ns (x : NvRecords) : (s.setCopies x).ns = s.ns := rfl
@[simp] theorem State.setCopies_nvc (x : NvRecords) : (s.setCopies x).nvc = s.nvc := rfl
@[simp] theorem State.setCopies_pending (x : NvRecords) : (s.setCopies x).pending = s.pending := rfl

@[simp] theorem State.setBound_condition (x : Assoc Bay) : (s.setBound x).condition = s.condition := rfl
@[simp] theorem State.setBound_lc (x : Assoc Bay) : (s.setBound x).lc = s.lc := rfl
@[simp] theorem State.setBound_ic (x : Assoc Bay) : (s.setBound x).ic = s.ic := rfl
@[simp] theorem State.setBound_wc (x : Assoc Bay) : (s.setBound x).wc = s.wc := rfl
@[simp] theorem State.setBound_pt (x : Assoc Bay) : (s.setBound x).pt = { bound := x } := rfl
@[simp] theorem State.setBound_ob (x : Assoc Bay) : (s.setBound x).ob = s.ob := rfl
@[simp] theorem State.setBound_bsc (x : Assoc Bay) : (s.setBound x).bsc = s.bsc := rfl
@[simp] theorem State.setBound_me (x : Assoc Bay) : (s.setBound x).me = s.me := rfl
@[simp] theorem State.setBound_fc (x : Assoc Bay) : (s.setBound x).fc = s.fc := rfl
@[simp] theorem State.setBound_running (x : Assoc Bay) : (s.setBound x).running = s.running := rfl
@[simp] theorem State.setBound_adu (x : Assoc Bay) : (s.setBound x).adu = s.adu := rfl
@[simp] theorem State.setBound_ns (x : Assoc Bay) : (s.setBound x).ns = s.ns := rfl
@[simp] theorem State.setBound_nvc (x : Assoc Bay) : (s.setBound x).nvc = s.nvc := rfl
@[simp] theorem State.setBound_pending (x : Assoc Bay) : (s.setBound x).pending = s.pending := rfl

@[simp] theorem State.setOrders_condition (x : Assoc Order) : (s.setOrders x).condition = s.condition := rfl
@[simp] theorem State.setOrders_lc (x : Assoc Order) : (s.setOrders x).lc = s.lc := rfl
@[simp] theorem State.setOrders_ic (x : Assoc Order) : (s.setOrders x).ic = s.ic := rfl
@[simp] theorem State.setOrders_wc (x : Assoc Order) : (s.setOrders x).wc = s.wc := rfl
@[simp] theorem State.setOrders_pt (x : Assoc Order) : (s.setOrders x).pt = s.pt := rfl
@[simp] theorem State.setOrders_ob (x : Assoc Order) : (s.setOrders x).ob = { orders := x } := rfl
@[simp] theorem State.setOrders_bsc (x : Assoc Order) : (s.setOrders x).bsc = s.bsc := rfl
@[simp] theorem State.setOrders_me (x : Assoc Order) : (s.setOrders x).me = s.me := rfl
@[simp] theorem State.setOrders_fc (x : Assoc Order) : (s.setOrders x).fc = s.fc := rfl
@[simp] theorem State.setOrders_running (x : Assoc Order) : (s.setOrders x).running = s.running := rfl
@[simp] theorem State.setOrders_adu (x : Assoc Order) : (s.setOrders x).adu = s.adu := rfl
@[simp] theorem State.setOrders_ns (x : Assoc Order) : (s.setOrders x).ns = s.ns := rfl
@[simp] theorem State.setOrders_nvc (x : Assoc Order) : (s.setOrders x).nvc = s.nvc := rfl
@[simp] theorem State.setOrders_pending (x : Assoc Order) : (s.setOrders x).pending = s.pending := rfl

@[simp] theorem State.modifyBay_condition (b : Bay) (f : BayController → BayController) :
    (s.modifyBay b f).condition = s.condition := rfl
@[simp] theorem State.modifyBay_lc (b : Bay) (f : BayController → BayController) : (s.modifyBay b f).lc = s.lc := rfl
@[simp] theorem State.modifyBay_ic (b : Bay) (f : BayController → BayController) : (s.modifyBay b f).ic = s.ic := rfl
@[simp] theorem State.modifyBay_wc (b : Bay) (f : BayController → BayController) : (s.modifyBay b f).wc = s.wc := rfl
@[simp] theorem State.modifyBay_pt (b : Bay) (f : BayController → BayController) : (s.modifyBay b f).pt = s.pt := rfl
@[simp] theorem State.modifyBay_ob (b : Bay) (f : BayController → BayController) : (s.modifyBay b f).ob = s.ob := rfl
@[simp] theorem State.modifyBay_bsc (b : Bay) (f : BayController → BayController) :
    (s.modifyBay b f).bsc = s.bsc.modify b f := rfl
@[simp] theorem State.modifyBay_me (b : Bay) (f : BayController → BayController) : (s.modifyBay b f).me = s.me := rfl
@[simp] theorem State.modifyBay_fc (b : Bay) (f : BayController → BayController) : (s.modifyBay b f).fc = s.fc := rfl
@[simp] theorem State.modifyBay_running (b : Bay) (f : BayController → BayController) :
    (s.modifyBay b f).running = s.running := rfl
@[simp] theorem State.modifyBay_adu (b : Bay) (f : BayController → BayController) : (s.modifyBay b f).adu = s.adu := rfl
@[simp] theorem State.modifyBay_ns (b : Bay) (f : BayController → BayController) : (s.modifyBay b f).ns = s.ns := rfl
@[simp] theorem State.modifyBay_nvc (b : Bay) (f : BayController → BayController) : (s.modifyBay b f).nvc = s.nvc := rfl
@[simp] theorem State.modifyBay_pending (b : Bay) (f : BayController → BayController) :
    (s.modifyBay b f).pending = s.pending := rfl

@[simp] theorem State.setMe_condition (a : Arm) (x : MeteringChannel) : (s.setMe a x).condition = s.condition := rfl
@[simp] theorem State.setMe_lc (a : Arm) (x : MeteringChannel) : (s.setMe a x).lc = s.lc := rfl
@[simp] theorem State.setMe_ic (a : Arm) (x : MeteringChannel) : (s.setMe a x).ic = s.ic := rfl
@[simp] theorem State.setMe_wc (a : Arm) (x : MeteringChannel) : (s.setMe a x).wc = s.wc := rfl
@[simp] theorem State.setMe_pt (a : Arm) (x : MeteringChannel) : (s.setMe a x).pt = s.pt := rfl
@[simp] theorem State.setMe_ob (a : Arm) (x : MeteringChannel) : (s.setMe a x).ob = s.ob := rfl
@[simp] theorem State.setMe_bsc (a : Arm) (x : MeteringChannel) : (s.setMe a x).bsc = s.bsc := rfl
@[simp] theorem State.setMe_me (a : Arm) (x : MeteringChannel) : (s.setMe a x).me = s.me.set a x := rfl
@[simp] theorem State.setMe_fc (a : Arm) (x : MeteringChannel) : (s.setMe a x).fc = s.fc := rfl
@[simp] theorem State.setMe_running (a : Arm) (x : MeteringChannel) : (s.setMe a x).running = s.running := rfl
@[simp] theorem State.setMe_adu (a : Arm) (x : MeteringChannel) : (s.setMe a x).adu = s.adu := rfl
@[simp] theorem State.setMe_ns (a : Arm) (x : MeteringChannel) : (s.setMe a x).ns = s.ns := rfl
@[simp] theorem State.setMe_nvc (a : Arm) (x : MeteringChannel) : (s.setMe a x).nvc = s.nvc := rfl
@[simp] theorem State.setMe_pending (a : Arm) (x : MeteringChannel) : (s.setMe a x).pending = s.pending := rfl

@[simp] theorem State.modifyFc_condition (a : Arm) (f : FlowController → FlowController) :
    (s.modifyFc a f).condition = s.condition := rfl
@[simp] theorem State.modifyFc_lc (a : Arm) (f : FlowController → FlowController) : (s.modifyFc a f).lc = s.lc := rfl
@[simp] theorem State.modifyFc_ic (a : Arm) (f : FlowController → FlowController) : (s.modifyFc a f).ic = s.ic := rfl
@[simp] theorem State.modifyFc_wc (a : Arm) (f : FlowController → FlowController) : (s.modifyFc a f).wc = s.wc := rfl
@[simp] theorem State.modifyFc_pt (a : Arm) (f : FlowController → FlowController) : (s.modifyFc a f).pt = s.pt := rfl
@[simp] theorem State.modifyFc_ob (a : Arm) (f : FlowController → FlowController) : (s.modifyFc a f).ob = s.ob := rfl
@[simp] theorem State.modifyFc_bsc (a : Arm) (f : FlowController → FlowController) : (s.modifyFc a f).bsc = s.bsc := rfl
@[simp] theorem State.modifyFc_me (a : Arm) (f : FlowController → FlowController) : (s.modifyFc a f).me = s.me := rfl
@[simp] theorem State.modifyFc_fc (a : Arm) (f : FlowController → FlowController) : (s.modifyFc a f).fc = s.fc.modify a f := rfl
@[simp] theorem State.modifyFc_running (a : Arm) (f : FlowController → FlowController) :
    (s.modifyFc a f).running = s.running := rfl
@[simp] theorem State.modifyFc_adu (a : Arm) (f : FlowController → FlowController) : (s.modifyFc a f).adu = s.adu := rfl
@[simp] theorem State.modifyFc_ns (a : Arm) (f : FlowController → FlowController) : (s.modifyFc a f).ns = s.ns := rfl
@[simp] theorem State.modifyFc_nvc (a : Arm) (f : FlowController → FlowController) : (s.modifyFc a f).nvc = s.nvc := rfl
@[simp] theorem State.modifyFc_pending (a : Arm) (f : FlowController → FlowController) :
    (s.modifyFc a f).pending = s.pending := rfl

@[simp] theorem State.setRunning_condition (a : Arm) (x : Option Running) : (s.setRunning a x).condition = s.condition := rfl
@[simp] theorem State.setRunning_lc (a : Arm) (x : Option Running) : (s.setRunning a x).lc = s.lc := rfl
@[simp] theorem State.setRunning_ic (a : Arm) (x : Option Running) : (s.setRunning a x).ic = s.ic := rfl
@[simp] theorem State.setRunning_wc (a : Arm) (x : Option Running) : (s.setRunning a x).wc = s.wc := rfl
@[simp] theorem State.setRunning_pt (a : Arm) (x : Option Running) : (s.setRunning a x).pt = s.pt := rfl
@[simp] theorem State.setRunning_ob (a : Arm) (x : Option Running) : (s.setRunning a x).ob = s.ob := rfl
@[simp] theorem State.setRunning_bsc (a : Arm) (x : Option Running) : (s.setRunning a x).bsc = s.bsc := rfl
@[simp] theorem State.setRunning_me (a : Arm) (x : Option Running) : (s.setRunning a x).me = s.me := rfl
@[simp] theorem State.setRunning_fc (a : Arm) (x : Option Running) : (s.setRunning a x).fc = s.fc := rfl
@[simp] theorem State.setRunning_running (a : Arm) (x : Option Running) : (s.setRunning a x).running = s.running.set a x := rfl
@[simp] theorem State.setRunning_adu (a : Arm) (x : Option Running) : (s.setRunning a x).adu = s.adu := rfl
@[simp] theorem State.setRunning_ns (a : Arm) (x : Option Running) : (s.setRunning a x).ns = s.ns := rfl
@[simp] theorem State.setRunning_nvc (a : Arm) (x : Option Running) : (s.setRunning a x).nvc = s.nvc := rfl
@[simp] theorem State.setRunning_pending (a : Arm) (x : Option Running) : (s.setRunning a x).pending = s.pending := rfl

@[simp] theorem State.modifyRunning_condition (a : Arm) (f : Running → Running) :
    (s.modifyRunning a f).condition = s.condition := rfl
@[simp] theorem State.modifyRunning_lc (a : Arm) (f : Running → Running) : (s.modifyRunning a f).lc = s.lc := rfl
@[simp] theorem State.modifyRunning_ic (a : Arm) (f : Running → Running) : (s.modifyRunning a f).ic = s.ic := rfl
@[simp] theorem State.modifyRunning_wc (a : Arm) (f : Running → Running) : (s.modifyRunning a f).wc = s.wc := rfl
@[simp] theorem State.modifyRunning_pt (a : Arm) (f : Running → Running) : (s.modifyRunning a f).pt = s.pt := rfl
@[simp] theorem State.modifyRunning_ob (a : Arm) (f : Running → Running) : (s.modifyRunning a f).ob = s.ob := rfl
@[simp] theorem State.modifyRunning_bsc (a : Arm) (f : Running → Running) : (s.modifyRunning a f).bsc = s.bsc := rfl
@[simp] theorem State.modifyRunning_me (a : Arm) (f : Running → Running) : (s.modifyRunning a f).me = s.me := rfl
@[simp] theorem State.modifyRunning_fc (a : Arm) (f : Running → Running) : (s.modifyRunning a f).fc = s.fc := rfl
@[simp] theorem State.modifyRunning_running (a : Arm) (f : Running → Running) :
    (s.modifyRunning a f).running = s.running.modify a (Option.map f) := rfl
@[simp] theorem State.modifyRunning_adu (a : Arm) (f : Running → Running) : (s.modifyRunning a f).adu = s.adu := rfl
@[simp] theorem State.modifyRunning_ns (a : Arm) (f : Running → Running) : (s.modifyRunning a f).ns = s.ns := rfl
@[simp] theorem State.modifyRunning_nvc (a : Arm) (f : Running → Running) : (s.modifyRunning a f).nvc = s.nvc := rfl
@[simp] theorem State.modifyRunning_pending (a : Arm) (f : Running → Running) : (s.modifyRunning a f).pending = s.pending := rfl

@[simp] theorem State.modifyChannel_condition (c : Channel) (f : ChannelState → ChannelState) :
    (s.modifyChannel c f).condition = s.condition := rfl
@[simp] theorem State.modifyChannel_lc (c : Channel) (f : ChannelState → ChannelState) : (s.modifyChannel c f).lc = s.lc := rfl
@[simp] theorem State.modifyChannel_ic (c : Channel) (f : ChannelState → ChannelState) : (s.modifyChannel c f).ic = s.ic := rfl
@[simp] theorem State.modifyChannel_wc (c : Channel) (f : ChannelState → ChannelState) : (s.modifyChannel c f).wc = s.wc := rfl
@[simp] theorem State.modifyChannel_pt (c : Channel) (f : ChannelState → ChannelState) : (s.modifyChannel c f).pt = s.pt := rfl
@[simp] theorem State.modifyChannel_ob (c : Channel) (f : ChannelState → ChannelState) : (s.modifyChannel c f).ob = s.ob := rfl
@[simp] theorem State.modifyChannel_bsc (c : Channel) (f : ChannelState → ChannelState) :
    (s.modifyChannel c f).bsc = s.bsc := rfl
@[simp] theorem State.modifyChannel_me (c : Channel) (f : ChannelState → ChannelState) : (s.modifyChannel c f).me = s.me := rfl
@[simp] theorem State.modifyChannel_fc (c : Channel) (f : ChannelState → ChannelState) : (s.modifyChannel c f).fc = s.fc := rfl
@[simp] theorem State.modifyChannel_running (c : Channel) (f : ChannelState → ChannelState) :
    (s.modifyChannel c f).running = s.running := rfl
@[simp] theorem State.modifyChannel_adu (c : Channel) (f : ChannelState → ChannelState) :
    (s.modifyChannel c f).adu = { s.adu with channels := s.adu.channels.modify c f } := rfl
@[simp] theorem State.modifyChannel_ns (c : Channel) (f : ChannelState → ChannelState) : (s.modifyChannel c f).ns = s.ns := rfl
@[simp] theorem State.modifyChannel_nvc (c : Channel) (f : ChannelState → ChannelState) :
    (s.modifyChannel c f).nvc = s.nvc := rfl
@[simp] theorem State.modifyChannel_pending (c : Channel) (f : ChannelState → ChannelState) :
    (s.modifyChannel c f).pending = s.pending := rfl

@[simp] theorem State.modifyPump_condition (p : Additive) (f : PumpState → PumpState) :
    (s.modifyPump p f).condition = s.condition := rfl
@[simp] theorem State.modifyPump_lc (p : Additive) (f : PumpState → PumpState) : (s.modifyPump p f).lc = s.lc := rfl
@[simp] theorem State.modifyPump_ic (p : Additive) (f : PumpState → PumpState) : (s.modifyPump p f).ic = s.ic := rfl
@[simp] theorem State.modifyPump_wc (p : Additive) (f : PumpState → PumpState) : (s.modifyPump p f).wc = s.wc := rfl
@[simp] theorem State.modifyPump_pt (p : Additive) (f : PumpState → PumpState) : (s.modifyPump p f).pt = s.pt := rfl
@[simp] theorem State.modifyPump_ob (p : Additive) (f : PumpState → PumpState) : (s.modifyPump p f).ob = s.ob := rfl
@[simp] theorem State.modifyPump_bsc (p : Additive) (f : PumpState → PumpState) : (s.modifyPump p f).bsc = s.bsc := rfl
@[simp] theorem State.modifyPump_me (p : Additive) (f : PumpState → PumpState) : (s.modifyPump p f).me = s.me := rfl
@[simp] theorem State.modifyPump_fc (p : Additive) (f : PumpState → PumpState) : (s.modifyPump p f).fc = s.fc := rfl
@[simp] theorem State.modifyPump_running (p : Additive) (f : PumpState → PumpState) :
    (s.modifyPump p f).running = s.running := rfl
@[simp] theorem State.modifyPump_adu (p : Additive) (f : PumpState → PumpState) :
    (s.modifyPump p f).adu = { s.adu with pumps := s.adu.pumps.modify p f } := rfl
@[simp] theorem State.modifyPump_ns (p : Additive) (f : PumpState → PumpState) : (s.modifyPump p f).ns = s.ns := rfl
@[simp] theorem State.modifyPump_nvc (p : Additive) (f : PumpState → PumpState) : (s.modifyPump p f).nvc = s.nvc := rfl
@[simp] theorem State.modifyPump_pending (p : Additive) (f : PumpState → PumpState) :
    (s.modifyPump p f).pending = s.pending := rfl

@[simp] theorem State.setNs_condition (x : NoteStore) : (s.setNs x).condition = s.condition := rfl
@[simp] theorem State.setNs_lc (x : NoteStore) : (s.setNs x).lc = s.lc := rfl
@[simp] theorem State.setNs_ic (x : NoteStore) : (s.setNs x).ic = s.ic := rfl
@[simp] theorem State.setNs_wc (x : NoteStore) : (s.setNs x).wc = s.wc := rfl
@[simp] theorem State.setNs_pt (x : NoteStore) : (s.setNs x).pt = s.pt := rfl
@[simp] theorem State.setNs_ob (x : NoteStore) : (s.setNs x).ob = s.ob := rfl
@[simp] theorem State.setNs_bsc (x : NoteStore) : (s.setNs x).bsc = s.bsc := rfl
@[simp] theorem State.setNs_me (x : NoteStore) : (s.setNs x).me = s.me := rfl
@[simp] theorem State.setNs_fc (x : NoteStore) : (s.setNs x).fc = s.fc := rfl
@[simp] theorem State.setNs_running (x : NoteStore) : (s.setNs x).running = s.running := rfl
@[simp] theorem State.setNs_adu (x : NoteStore) : (s.setNs x).adu = s.adu := rfl
@[simp] theorem State.setNs_ns (x : NoteStore) : (s.setNs x).ns = x := rfl
@[simp] theorem State.setNs_nvc (x : NoteStore) : (s.setNs x).nvc = s.nvc := rfl
@[simp] theorem State.setNs_pending (x : NoteStore) : (s.setNs x).pending = s.pending := rfl

@[simp] theorem State.setNvc_condition (x : NvController) : (s.setNvc x).condition = s.condition := rfl
@[simp] theorem State.setNvc_lc (x : NvController) : (s.setNvc x).lc = s.lc := rfl
@[simp] theorem State.setNvc_ic (x : NvController) : (s.setNvc x).ic = s.ic := rfl
@[simp] theorem State.setNvc_wc (x : NvController) : (s.setNvc x).wc = s.wc := rfl
@[simp] theorem State.setNvc_pt (x : NvController) : (s.setNvc x).pt = s.pt := rfl
@[simp] theorem State.setNvc_ob (x : NvController) : (s.setNvc x).ob = s.ob := rfl
@[simp] theorem State.setNvc_bsc (x : NvController) : (s.setNvc x).bsc = s.bsc := rfl
@[simp] theorem State.setNvc_me (x : NvController) : (s.setNvc x).me = s.me := rfl
@[simp] theorem State.setNvc_fc (x : NvController) : (s.setNvc x).fc = s.fc := rfl
@[simp] theorem State.setNvc_running (x : NvController) : (s.setNvc x).running = s.running := rfl
@[simp] theorem State.setNvc_adu (x : NvController) : (s.setNvc x).adu = s.adu := rfl
@[simp] theorem State.setNvc_ns (x : NvController) : (s.setNvc x).ns = s.ns := rfl
@[simp] theorem State.setNvc_nvc (x : NvController) : (s.setNvc x).nvc = x := rfl
@[simp] theorem State.setNvc_pending (x : NvController) : (s.setNvc x).pending = s.pending := rfl

@[simp] theorem State.setCondition_condition (x : Condition) : (s.setCondition x).condition = x := rfl
@[simp] theorem State.setCondition_lc (x : Condition) : (s.setCondition x).lc = s.lc := rfl
@[simp] theorem State.setCondition_ic (x : Condition) : (s.setCondition x).ic = s.ic := rfl
@[simp] theorem State.setCondition_wc (x : Condition) : (s.setCondition x).wc = s.wc := rfl
@[simp] theorem State.setCondition_pt (x : Condition) : (s.setCondition x).pt = s.pt := rfl
@[simp] theorem State.setCondition_ob (x : Condition) : (s.setCondition x).ob = s.ob := rfl
@[simp] theorem State.setCondition_bsc (x : Condition) : (s.setCondition x).bsc = s.bsc := rfl
@[simp] theorem State.setCondition_me (x : Condition) : (s.setCondition x).me = s.me := rfl
@[simp] theorem State.setCondition_fc (x : Condition) : (s.setCondition x).fc = s.fc := rfl
@[simp] theorem State.setCondition_running (x : Condition) : (s.setCondition x).running = s.running := rfl
@[simp] theorem State.setCondition_adu (x : Condition) : (s.setCondition x).adu = s.adu := rfl
@[simp] theorem State.setCondition_ns (x : Condition) : (s.setCondition x).ns = s.ns := rfl
@[simp] theorem State.setCondition_nvc (x : Condition) : (s.setCondition x).nvc = s.nvc := rfl
@[simp] theorem State.setCondition_pending (x : Condition) : (s.setCondition x).pending = s.pending := rfl

end Sys2Proof.Machine
end

