-- ==== Sys2Proof/Laws/Frames.lean ====
section
/-! SUPPORT. The frames of the shared operations: for each, the blocks of the state it leaves alone. -/

namespace Sys2Proof.Machine

variable (s : State)

@[simp] theorem State.raiseFlag_condition (e : FlagEvent) : (s.raiseFlag e).condition = s.condition := by unfold State.raiseFlag; simp
@[simp] theorem State.raiseFlag_ic (e : FlagEvent) : (s.raiseFlag e).ic = s.ic := by unfold State.raiseFlag; simp
@[simp] theorem State.raiseFlag_wc (e : FlagEvent) : (s.raiseFlag e).wc = s.wc := by unfold State.raiseFlag; simp
@[simp] theorem State.raiseFlag_pt (e : FlagEvent) : (s.raiseFlag e).pt = s.pt := by unfold State.raiseFlag; simp
@[simp] theorem State.raiseFlag_ob (e : FlagEvent) : (s.raiseFlag e).ob = s.ob := by unfold State.raiseFlag; simp
@[simp] theorem State.raiseFlag_bsc (e : FlagEvent) : (s.raiseFlag e).bsc = s.bsc := by unfold State.raiseFlag; simp
@[simp] theorem State.raiseFlag_me (e : FlagEvent) : (s.raiseFlag e).me = s.me := by unfold State.raiseFlag; simp
@[simp] theorem State.raiseFlag_fc (e : FlagEvent) : (s.raiseFlag e).fc = s.fc := by unfold State.raiseFlag; simp
@[simp] theorem State.raiseFlag_running (e : FlagEvent) : (s.raiseFlag e).running = s.running := by unfold State.raiseFlag; simp
@[simp] theorem State.raiseFlag_adu (e : FlagEvent) : (s.raiseFlag e).adu = s.adu := by unfold State.raiseFlag; simp
@[simp] theorem State.raiseFlag_ns (e : FlagEvent) : (s.raiseFlag e).ns = s.ns := by unfold State.raiseFlag; simp
@[simp] theorem State.raiseFlag_nvc (e : FlagEvent) : (s.raiseFlag e).nvc = s.nvc := by unfold State.raiseFlag; simp
@[simp] theorem State.raiseFlag_pending (e : FlagEvent) : (s.raiseFlag e).pending = s.pending := by unfold State.raiseFlag; simp

@[simp] theorem State.setPlanReset_condition (l : Link) (x : Bool) : (s.setPlanReset l x).condition = s.condition := by unfold State.setPlanReset; simp
@[simp] theorem State.setPlanReset_ic (l : Link) (x : Bool) : (s.setPlanReset l x).ic = s.ic := by unfold State.setPlanReset; simp
@[simp] theorem State.setPlanReset_wc (l : Link) (x : Bool) : (s.setPlanReset l x).wc = s.wc := by unfold State.setPlanReset; simp
@[simp] theorem State.setPlanReset_pt (l : Link) (x : Bool) : (s.setPlanReset l x).pt = s.pt := by unfold State.setPlanReset; simp
@[simp] theorem State.setPlanReset_ob (l : Link) (x : Bool) : (s.setPlanReset l x).ob = s.ob := by unfold State.setPlanReset; simp
@[simp] theorem State.setPlanReset_bsc (l : Link) (x : Bool) : (s.setPlanReset l x).bsc = s.bsc := by unfold State.setPlanReset; simp
@[simp] theorem State.setPlanReset_me (l : Link) (x : Bool) : (s.setPlanReset l x).me = s.me := by unfold State.setPlanReset; simp
@[simp] theorem State.setPlanReset_fc (l : Link) (x : Bool) : (s.setPlanReset l x).fc = s.fc := by unfold State.setPlanReset; simp
@[simp] theorem State.setPlanReset_running (l : Link) (x : Bool) : (s.setPlanReset l x).running = s.running := by unfold State.setPlanReset; simp
@[simp] theorem State.setPlanReset_adu (l : Link) (x : Bool) : (s.setPlanReset l x).adu = s.adu := by unfold State.setPlanReset; simp
@[simp] theorem State.setPlanReset_ns (l : Link) (x : Bool) : (s.setPlanReset l x).ns = s.ns := by unfold State.setPlanReset; simp
@[simp] theorem State.setPlanReset_nvc (l : Link) (x : Bool) : (s.setPlanReset l x).nvc = s.nvc := by unfold State.setPlanReset; simp
@[simp] theorem State.setPlanReset_pending (l : Link) (x : Bool) : (s.setPlanReset l x).pending = s.pending := by unfold State.setPlanReset; simp

@[simp] theorem State.advanceNv_condition : (s.advanceNv).condition = s.condition := by
  unfold State.advanceNv
  (repeat' split) <;> simp
@[simp] theorem State.advanceNv_lc : (s.advanceNv).lc = s.lc := by
  unfold State.advanceNv
  (repeat' split) <;> simp
@[simp] theorem State.advanceNv_ic : (s.advanceNv).ic = s.ic := by
  unfold State.advanceNv
  (repeat' split) <;> simp
@[simp] theorem State.advanceNv_wc : (s.advanceNv).wc = s.wc := by
  unfold State.advanceNv
  (repeat' split) <;> simp
@[simp] theorem State.advanceNv_pt : (s.advanceNv).pt = s.pt := by
  unfold State.advanceNv
  (repeat' split) <;> simp
@[simp] theorem State.advanceNv_ob : (s.advanceNv).ob = s.ob := by
  unfold State.advanceNv
  (repeat' split) <;> simp
@[simp] theorem State.advanceNv_bsc : (s.advanceNv).bsc = s.bsc := by
  unfold State.advanceNv
  (repeat' split) <;> simp
@[simp] theorem State.advanceNv_me : (s.advanceNv).me = s.me := by
  unfold State.advanceNv
  (repeat' split) <;> simp
@[simp] theorem State.advanceNv_fc : (s.advanceNv).fc = s.fc := by
  unfold State.advanceNv
  (repeat' split) <;> simp
@[simp] theorem State.advanceNv_running : (s.advanceNv).running = s.running := by
  unfold State.advanceNv
  (repeat' split) <;> simp
@[simp] theorem State.advanceNv_adu : (s.advanceNv).adu = s.adu := by
  unfold State.advanceNv
  (repeat' split) <;> simp
@[simp] theorem State.advanceNv_ns : (s.advanceNv).ns = s.ns := by
  unfold State.advanceNv
  (repeat' split) <;> simp
@[simp] theorem State.advanceNv_pending : (s.advanceNv).pending = s.pending := by
  unfold State.advanceNv
  (repeat' split) <;> simp

@[simp] theorem State.commit_condition (c : NvContents) (k : EntryClass) : (s.commit c k).condition = s.condition := by unfold State.commit; simp
@[simp] theorem State.commit_lc (c : NvContents) (k : EntryClass) : (s.commit c k).lc = s.lc := by unfold State.commit; simp
@[simp] theorem State.commit_ic (c : NvContents) (k : EntryClass) : (s.commit c k).ic = s.ic := by unfold State.commit; simp
@[simp] theorem State.commit_pt (c : NvContents) (k : EntryClass) : (s.commit c k).pt = s.pt := by unfold State.commit; simp
@[simp] theorem State.commit_ob (c : NvContents) (k : EntryClass) : (s.commit c k).ob = s.ob := by unfold State.commit; simp
@[simp] theorem State.commit_bsc (c : NvContents) (k : EntryClass) : (s.commit c k).bsc = s.bsc := by unfold State.commit; simp
@[simp] theorem State.commit_me (c : NvContents) (k : EntryClass) : (s.commit c k).me = s.me := by unfold State.commit; simp
@[simp] theorem State.commit_fc (c : NvContents) (k : EntryClass) : (s.commit c k).fc = s.fc := by unfold State.commit; simp
@[simp] theorem State.commit_running (c : NvContents) (k : EntryClass) : (s.commit c k).running = s.running := by unfold State.commit; simp
@[simp] theorem State.commit_adu (c : NvContents) (k : EntryClass) : (s.commit c k).adu = s.adu := by unfold State.commit; simp
@[simp] theorem State.commit_ns (c : NvContents) (k : EntryClass) : (s.commit c k).ns = s.ns := by unfold State.commit; simp
@[simp] theorem State.commit_pending (c : NvContents) (k : EntryClass) : (s.commit c k).pending = s.pending := by unfold State.commit; simp

@[simp] theorem State.modifyLine_condition
    (c : Channel) (f : LineRecord → LineRecord) : (s.modifyLine c f).condition = s.condition := by
  unfold State.modifyLine
  (repeat' split) <;> simp
@[simp] theorem State.modifyLine_lc (c : Channel) (f : LineRecord → LineRecord) : (s.modifyLine c f).lc = s.lc := by
  unfold State.modifyLine
  (repeat' split) <;> simp
@[simp] theorem State.modifyLine_ic (c : Channel) (f : LineRecord → LineRecord) : (s.modifyLine c f).ic = s.ic := by
  unfold State.modifyLine
  (repeat' split) <;> simp
@[simp] theorem State.modifyLine_wc (c : Channel) (f : LineRecord → LineRecord) : (s.modifyLine c f).wc = s.wc := by
  unfold State.modifyLine
  (repeat' split) <;> simp
@[simp] theorem State.modifyLine_pt (c : Channel) (f : LineRecord → LineRecord) : (s.modifyLine c f).pt = s.pt := by
  unfold State.modifyLine
  (repeat' split) <;> simp
@[simp] theorem State.modifyLine_ob (c : Channel) (f : LineRecord → LineRecord) : (s.modifyLine c f).ob = s.ob := by
  unfold State.modifyLine
  (repeat' split) <;> simp
@[simp] theorem State.modifyLine_bsc (c : Channel) (f : LineRecord → LineRecord) : (s.modifyLine c f).bsc = s.bsc := by
  unfold State.modifyLine
  (repeat' split) <;> simp
@[simp] theorem State.modifyLine_me (c : Channel) (f : LineRecord → LineRecord) : (s.modifyLine c f).me = s.me := by
  unfold State.modifyLine
  (repeat' split) <;> simp
@[simp] theorem State.modifyLine_fc (c : Channel) (f : LineRecord → LineRecord) : (s.modifyLine c f).fc = s.fc := by
  unfold State.modifyLine
  (repeat' split) <;> simp
@[simp] theorem State.modifyLine_adu (c : Channel) (f : LineRecord → LineRecord) : (s.modifyLine c f).adu = s.adu := by
  unfold State.modifyLine
  (repeat' split) <;> simp
@[simp] theorem State.modifyLine_ns (c : Channel) (f : LineRecord → LineRecord) : (s.modifyLine c f).ns = s.ns := by
  unfold State.modifyLine
  (repeat' split) <;> simp
@[simp] theorem State.modifyLine_nvc (c : Channel) (f : LineRecord → LineRecord) : (s.modifyLine c f).nvc = s.nvc := by
  unfold State.modifyLine
  (repeat' split) <;> simp
@[simp] theorem State.modifyLine_pending
    (c : Channel) (f : LineRecord → LineRecord) : (s.modifyLine c f).pending = s.pending := by
  unfold State.modifyLine
  (repeat' split) <;> simp

@[simp] theorem State.endShot_condition (p : Additive) : (s.endShot p).condition = s.condition := by
  unfold State.endShot
  (repeat' split) <;> simp
@[simp] theorem State.endShot_lc (p : Additive) : (s.endShot p).lc = s.lc := by
  unfold State.endShot
  (repeat' split) <;> simp
@[simp] theorem State.endShot_ic (p : Additive) : (s.endShot p).ic = s.ic := by
  unfold State.endShot
  (repeat' split) <;> simp
@[simp] theorem State.endShot_wc (p : Additive) : (s.endShot p).wc = s.wc := by
  unfold State.endShot
  (repeat' split) <;> simp
@[simp] theorem State.endShot_pt (p : Additive) : (s.endShot p).pt = s.pt := by
  unfold State.endShot
  (repeat' split) <;> simp
@[simp] theorem State.endShot_ob (p : Additive) : (s.endShot p).ob = s.ob := by
  unfold State.endShot
  (repeat' split) <;> simp
@[simp] theorem State.endShot_bsc (p : Additive) : (s.endShot p).bsc = s.bsc := by
  unfold State.endShot
  (repeat' split) <;> simp
@[simp] theorem State.endShot_me (p : Additive) : (s.endShot p).me = s.me := by
  unfold State.endShot
  (repeat' split) <;> simp
@[simp] theorem State.endShot_fc (p : Additive) : (s.endShot p).fc = s.fc := by
  unfold State.endShot
  (repeat' split) <;> simp
@[simp] theorem State.endShot_running (p : Additive) : (s.endShot p).running = s.running := by
  unfold State.endShot
  (repeat' split) <;> simp
@[simp] theorem State.endShot_ns (p : Additive) : (s.endShot p).ns = s.ns := by
  unfold State.endShot
  (repeat' split) <;> simp
@[simp] theorem State.endShot_nvc (p : Additive) : (s.endShot p).nvc = s.nvc := by
  unfold State.endShot
  (repeat' split) <;> simp
@[simp] theorem State.endShot_pending (p : Additive) : (s.endShot p).pending = s.pending := by
  unfold State.endShot
  (repeat' split) <;> simp

@[simp] theorem State.cutShot_condition
    (cut : Channel → Bool) (p : Additive) : (State.cutShot cut s p).condition = s.condition := by
  unfold State.cutShot
  (repeat' split) <;> simp
@[simp] theorem State.cutShot_lc (cut : Channel → Bool) (p : Additive) : (State.cutShot cut s p).lc = s.lc := by
  unfold State.cutShot
  (repeat' split) <;> simp
@[simp] theorem State.cutShot_ic (cut : Channel → Bool) (p : Additive) : (State.cutShot cut s p).ic = s.ic := by
  unfold State.cutShot
  (repeat' split) <;> simp
@[simp] theorem State.cutShot_wc (cut : Channel → Bool) (p : Additive) : (State.cutShot cut s p).wc = s.wc := by
  unfold State.cutShot
  (repeat' split) <;> simp
@[simp] theorem State.cutShot_pt (cut : Channel → Bool) (p : Additive) : (State.cutShot cut s p).pt = s.pt := by
  unfold State.cutShot
  (repeat' split) <;> simp
@[simp] theorem State.cutShot_ob (cut : Channel → Bool) (p : Additive) : (State.cutShot cut s p).ob = s.ob := by
  unfold State.cutShot
  (repeat' split) <;> simp
@[simp] theorem State.cutShot_bsc (cut : Channel → Bool) (p : Additive) : (State.cutShot cut s p).bsc = s.bsc := by
  unfold State.cutShot
  (repeat' split) <;> simp
@[simp] theorem State.cutShot_me (cut : Channel → Bool) (p : Additive) : (State.cutShot cut s p).me = s.me := by
  unfold State.cutShot
  (repeat' split) <;> simp
@[simp] theorem State.cutShot_fc (cut : Channel → Bool) (p : Additive) : (State.cutShot cut s p).fc = s.fc := by
  unfold State.cutShot
  (repeat' split) <;> simp
@[simp] theorem State.cutShot_running (cut : Channel → Bool) (p : Additive) : (State.cutShot cut s p).running = s.running := by
  unfold State.cutShot
  (repeat' split) <;> simp
@[simp] theorem State.cutShot_ns (cut : Channel → Bool) (p : Additive) : (State.cutShot cut s p).ns = s.ns := by
  unfold State.cutShot
  (repeat' split) <;> simp
@[simp] theorem State.cutShot_nvc (cut : Channel → Bool) (p : Additive) : (State.cutShot cut s p).nvc = s.nvc := by
  unfold State.cutShot
  (repeat' split) <;> simp
@[simp] theorem State.cutShot_pending (cut : Channel → Bool) (p : Additive) : (State.cutShot cut s p).pending = s.pending := by
  unfold State.cutShot
  (repeat' split) <;> simp

@[simp] theorem State.cutShots_condition (cut : Channel → Bool) : (s.cutShots cut).condition = s.condition := by simp [State.cutShots, Additive.all]
@[simp] theorem State.cutShots_lc (cut : Channel → Bool) : (s.cutShots cut).lc = s.lc := by simp [State.cutShots, Additive.all]
@[simp] theorem State.cutShots_ic (cut : Channel → Bool) : (s.cutShots cut).ic = s.ic := by simp [State.cutShots, Additive.all]
@[simp] theorem State.cutShots_wc (cut : Channel → Bool) : (s.cutShots cut).wc = s.wc := by simp [State.cutShots, Additive.all]
@[simp] theorem State.cutShots_pt (cut : Channel → Bool) : (s.cutShots cut).pt = s.pt := by simp [State.cutShots, Additive.all]
@[simp] theorem State.cutShots_ob (cut : Channel → Bool) : (s.cutShots cut).ob = s.ob := by simp [State.cutShots, Additive.all]
@[simp] theorem State.cutShots_bsc (cut : Channel → Bool) : (s.cutShots cut).bsc = s.bsc := by simp [State.cutShots, Additive.all]
@[simp] theorem State.cutShots_me (cut : Channel → Bool) : (s.cutShots cut).me = s.me := by simp [State.cutShots, Additive.all]
@[simp] theorem State.cutShots_fc (cut : Channel → Bool) : (s.cutShots cut).fc = s.fc := by simp [State.cutShots, Additive.all]
@[simp] theorem State.cutShots_running (cut : Channel → Bool) : (s.cutShots cut).running = s.running := by simp [State.cutShots, Additive.all]
@[simp] theorem State.cutShots_ns (cut : Channel → Bool) : (s.cutShots cut).ns = s.ns := by simp [State.cutShots, Additive.all]
@[simp] theorem State.cutShots_nvc (cut : Channel → Bool) : (s.cutShots cut).nvc = s.nvc := by simp [State.cutShots, Additive.all]
@[simp] theorem State.cutShots_pending (cut : Channel → Bool) : (s.cutShots cut).pending = s.pending := by simp [State.cutShots, Additive.all]

@[simp] theorem State.unqueue_condition (c : Channel) : (s.unqueue c).condition = s.condition := by
  unfold State.unqueue
  dsimp only
  (repeat' split) <;> simp
@[simp] theorem State.unqueue_lc (c : Channel) : (s.unqueue c).lc = s.lc := by
  unfold State.unqueue
  dsimp only
  (repeat' split) <;> simp
@[simp] theorem State.unqueue_ic (c : Channel) : (s.unqueue c).ic = s.ic := by
  unfold State.unqueue
  dsimp only
  (repeat' split) <;> simp
@[simp] theorem State.unqueue_wc (c : Channel) : (s.unqueue c).wc = s.wc := by
  unfold State.unqueue
  dsimp only
  (repeat' split) <;> simp
@[simp] theorem State.unqueue_pt (c : Channel) : (s.unqueue c).pt = s.pt := by
  unfold State.unqueue
  dsimp only
  (repeat' split) <;> simp
@[simp] theorem State.unqueue_ob (c : Channel) : (s.unqueue c).ob = s.ob := by
  unfold State.unqueue
  dsimp only
  (repeat' split) <;> simp
@[simp] theorem State.unqueue_bsc (c : Channel) : (s.unqueue c).bsc = s.bsc := by
  unfold State.unqueue
  dsimp only
  (repeat' split) <;> simp
@[simp] theorem State.unqueue_me (c : Channel) : (s.unqueue c).me = s.me := by
  unfold State.unqueue
  dsimp only
  (repeat' split) <;> simp
@[simp] theorem State.unqueue_fc (c : Channel) : (s.unqueue c).fc = s.fc := by
  unfold State.unqueue
  dsimp only
  (repeat' split) <;> simp
@[simp] theorem State.unqueue_ns (c : Channel) : (s.unqueue c).ns = s.ns := by
  unfold State.unqueue
  dsimp only
  (repeat' split) <;> simp
@[simp] theorem State.unqueue_nvc (c : Channel) : (s.unqueue c).nvc = s.nvc := by
  unfold State.unqueue
  dsimp only
  (repeat' split) <;> simp
@[simp] theorem State.unqueue_pending (c : Channel) : (s.unqueue c).pending = s.pending := by
  unfold State.unqueue
  dsimp only
  (repeat' split) <;> simp

@[simp] theorem State.dosingLeft_condition (a : Arm) : (s.dosingLeft a).condition = s.condition := by unfold State.dosingLeft; simp
@[simp] theorem State.dosingLeft_lc (a : Arm) : (s.dosingLeft a).lc = s.lc := by unfold State.dosingLeft; simp
@[simp] theorem State.dosingLeft_ic (a : Arm) : (s.dosingLeft a).ic = s.ic := by unfold State.dosingLeft; simp
@[simp] theorem State.dosingLeft_wc (a : Arm) : (s.dosingLeft a).wc = s.wc := by unfold State.dosingLeft; simp
@[simp] theorem State.dosingLeft_pt (a : Arm) : (s.dosingLeft a).pt = s.pt := by unfold State.dosingLeft; simp
@[simp] theorem State.dosingLeft_ob (a : Arm) : (s.dosingLeft a).ob = s.ob := by unfold State.dosingLeft; simp
@[simp] theorem State.dosingLeft_bsc (a : Arm) : (s.dosingLeft a).bsc = s.bsc := by unfold State.dosingLeft; simp
@[simp] theorem State.dosingLeft_me (a : Arm) : (s.dosingLeft a).me = s.me := by unfold State.dosingLeft; simp
@[simp] theorem State.dosingLeft_fc (a : Arm) : (s.dosingLeft a).fc = s.fc := by unfold State.dosingLeft; simp
@[simp] theorem State.dosingLeft_ns (a : Arm) : (s.dosingLeft a).ns = s.ns := by unfold State.dosingLeft; simp
@[simp] theorem State.dosingLeft_nvc (a : Arm) : (s.dosingLeft a).nvc = s.nvc := by unfold State.dosingLeft; simp
@[simp] theorem State.dosingLeft_pending (a : Arm) : (s.dosingLeft a).pending = s.pending := by unfold State.dosingLeft; simp

@[simp] theorem State.emptyQueues_condition : (s.emptyQueues).condition = s.condition := by simp [State.emptyQueues, Channel.all]
@[simp] theorem State.emptyQueues_lc : (s.emptyQueues).lc = s.lc := by simp [State.emptyQueues, Channel.all]
@[simp] theorem State.emptyQueues_ic : (s.emptyQueues).ic = s.ic := by simp [State.emptyQueues, Channel.all]
@[simp] theorem State.emptyQueues_wc : (s.emptyQueues).wc = s.wc := by simp [State.emptyQueues, Channel.all]
@[simp] theorem State.emptyQueues_pt : (s.emptyQueues).pt = s.pt := by simp [State.emptyQueues, Channel.all]
@[simp] theorem State.emptyQueues_ob : (s.emptyQueues).ob = s.ob := by simp [State.emptyQueues, Channel.all]
@[simp] theorem State.emptyQueues_bsc : (s.emptyQueues).bsc = s.bsc := by simp [State.emptyQueues, Channel.all]
@[simp] theorem State.emptyQueues_me : (s.emptyQueues).me = s.me := by simp [State.emptyQueues, Channel.all]
@[simp] theorem State.emptyQueues_fc : (s.emptyQueues).fc = s.fc := by simp [State.emptyQueues, Channel.all]
@[simp] theorem State.emptyQueues_ns : (s.emptyQueues).ns = s.ns := by simp [State.emptyQueues, Channel.all]
@[simp] theorem State.emptyQueues_nvc : (s.emptyQueues).nvc = s.nvc := by simp [State.emptyQueues, Channel.all]
@[simp] theorem State.emptyQueues_pending : (s.emptyQueues).pending = s.pending := by simp [State.emptyQueues, Channel.all]

@[simp] theorem State.serve_condition (p : Additive) : (s.serve p).condition = s.condition := by
  unfold State.serve
  dsimp only
  (repeat' split) <;> simp
@[simp] theorem State.serve_lc (p : Additive) : (s.serve p).lc = s.lc := by
  unfold State.serve
  dsimp only
  (repeat' split) <;> simp
@[simp] theorem State.serve_ic (p : Additive) : (s.serve p).ic = s.ic := by
  unfold State.serve
  dsimp only
  (repeat' split) <;> simp
@[simp] theorem State.serve_wc (p : Additive) : (s.serve p).wc = s.wc := by
  unfold State.serve
  dsimp only
  (repeat' split) <;> simp
@[simp] theorem State.serve_pt (p : Additive) : (s.serve p).pt = s.pt := by
  unfold State.serve
  dsimp only
  (repeat' split) <;> simp
@[simp] theorem State.serve_ob (p : Additive) : (s.serve p).ob = s.ob := by
  unfold State.serve
  dsimp only
  (repeat' split) <;> simp
@[simp] theorem State.serve_bsc (p : Additive) : (s.serve p).bsc = s.bsc := by
  unfold State.serve
  dsimp only
  (repeat' split) <;> simp
@[simp] theorem State.serve_me (p : Additive) : (s.serve p).me = s.me := by
  unfold State.serve
  dsimp only
  (repeat' split) <;> simp
@[simp] theorem State.serve_fc (p : Additive) : (s.serve p).fc = s.fc := by
  unfold State.serve
  dsimp only
  (repeat' split) <;> simp
@[simp] theorem State.serve_running (p : Additive) : (s.serve p).running = s.running := by
  unfold State.serve
  dsimp only
  (repeat' split) <;> simp
@[simp] theorem State.serve_ns (p : Additive) : (s.serve p).ns = s.ns := by
  unfold State.serve
  dsimp only
  (repeat' split) <;> simp
@[simp] theorem State.serve_nvc (p : Additive) : (s.serve p).nvc = s.nvc := by
  unfold State.serve
  dsimp only
  (repeat' split) <;> simp
@[simp] theorem State.serve_pending (p : Additive) : (s.serve p).pending = s.pending := by
  unfold State.serve
  dsimp only
  (repeat' split) <;> simp

@[simp] theorem State.serveAll_condition : (s.serveAll).condition = s.condition := by simp [State.serveAll, Additive.all]
@[simp] theorem State.serveAll_lc : (s.serveAll).lc = s.lc := by simp [State.serveAll, Additive.all]
@[simp] theorem State.serveAll_ic : (s.serveAll).ic = s.ic := by simp [State.serveAll, Additive.all]
@[simp] theorem State.serveAll_wc : (s.serveAll).wc = s.wc := by simp [State.serveAll, Additive.all]
@[simp] theorem State.serveAll_pt : (s.serveAll).pt = s.pt := by simp [State.serveAll, Additive.all]
@[simp] theorem State.serveAll_ob : (s.serveAll).ob = s.ob := by simp [State.serveAll, Additive.all]
@[simp] theorem State.serveAll_bsc : (s.serveAll).bsc = s.bsc := by simp [State.serveAll, Additive.all]
@[simp] theorem State.serveAll_me : (s.serveAll).me = s.me := by simp [State.serveAll, Additive.all]
@[simp] theorem State.serveAll_fc : (s.serveAll).fc = s.fc := by simp [State.serveAll, Additive.all]
@[simp] theorem State.serveAll_running : (s.serveAll).running = s.running := by simp [State.serveAll, Additive.all]
@[simp] theorem State.serveAll_ns : (s.serveAll).ns = s.ns := by simp [State.serveAll, Additive.all]
@[simp] theorem State.serveAll_nvc : (s.serveAll).nvc = s.nvc := by simp [State.serveAll, Additive.all]
@[simp] theorem State.serveAll_pending : (s.serveAll).pending = s.pending := by simp [State.serveAll, Additive.all]

@[simp] theorem State.joinQueue_condition (c : Channel) : (s.joinQueue c).condition = s.condition := by
  unfold State.joinQueue
  (repeat' split) <;> simp
@[simp] theorem State.joinQueue_lc (c : Channel) : (s.joinQueue c).lc = s.lc := by
  unfold State.joinQueue
  (repeat' split) <;> simp
@[simp] theorem State.joinQueue_ic (c : Channel) : (s.joinQueue c).ic = s.ic := by
  unfold State.joinQueue
  (repeat' split) <;> simp
@[simp] theorem State.joinQueue_wc (c : Channel) : (s.joinQueue c).wc = s.wc := by
  unfold State.joinQueue
  (repeat' split) <;> simp
@[simp] theorem State.joinQueue_pt (c : Channel) : (s.joinQueue c).pt = s.pt := by
  unfold State.joinQueue
  (repeat' split) <;> simp
@[simp] theorem State.joinQueue_ob (c : Channel) : (s.joinQueue c).ob = s.ob := by
  unfold State.joinQueue
  (repeat' split) <;> simp
@[simp] theorem State.joinQueue_bsc (c : Channel) : (s.joinQueue c).bsc = s.bsc := by
  unfold State.joinQueue
  (repeat' split) <;> simp
@[simp] theorem State.joinQueue_me (c : Channel) : (s.joinQueue c).me = s.me := by
  unfold State.joinQueue
  (repeat' split) <;> simp
@[simp] theorem State.joinQueue_fc (c : Channel) : (s.joinQueue c).fc = s.fc := by
  unfold State.joinQueue
  (repeat' split) <;> simp
@[simp] theorem State.joinQueue_running (c : Channel) : (s.joinQueue c).running = s.running := by
  unfold State.joinQueue
  (repeat' split) <;> simp
@[simp] theorem State.joinQueue_ns (c : Channel) : (s.joinQueue c).ns = s.ns := by
  unfold State.joinQueue
  (repeat' split) <;> simp
@[simp] theorem State.joinQueue_nvc (c : Channel) : (s.joinQueue c).nvc = s.nvc := by
  unfold State.joinQueue
  (repeat' split) <;> simp
@[simp] theorem State.joinQueue_pending (c : Channel) : (s.joinQueue c).pending = s.pending := by
  unfold State.joinQueue
  (repeat' split) <;> simp

@[simp] theorem State.startDeadman_condition (b : Bay) : (s.startDeadman b).condition = s.condition := by unfold State.startDeadman; simp
@[simp] theorem State.startDeadman_lc (b : Bay) : (s.startDeadman b).lc = s.lc := by unfold State.startDeadman; simp
@[simp] theorem State.startDeadman_ic (b : Bay) : (s.startDeadman b).ic = s.ic := by unfold State.startDeadman; simp
@[simp] theorem State.startDeadman_wc (b : Bay) : (s.startDeadman b).wc = s.wc := by unfold State.startDeadman; simp
@[simp] theorem State.startDeadman_pt (b : Bay) : (s.startDeadman b).pt = s.pt := by unfold State.startDeadman; simp
@[simp] theorem State.startDeadman_ob (b : Bay) : (s.startDeadman b).ob = s.ob := by unfold State.startDeadman; simp
@[simp] theorem State.startDeadman_me (b : Bay) : (s.startDeadman b).me = s.me := by unfold State.startDeadman; simp
@[simp] theorem State.startDeadman_fc (b : Bay) : (s.startDeadman b).fc = s.fc := by unfold State.startDeadman; simp
@[simp] theorem State.startDeadman_running (b : Bay) : (s.startDeadman b).running = s.running := by unfold State.startDeadman; simp
@[simp] theorem State.startDeadman_adu (b : Bay) : (s.startDeadman b).adu = s.adu := by unfold State.startDeadman; simp
@[simp] theorem State.startDeadman_ns (b : Bay) : (s.startDeadman b).ns = s.ns := by unfold State.startDeadman; simp
@[simp] theorem State.startDeadman_nvc (b : Bay) : (s.startDeadman b).nvc = s.nvc := by unfold State.startDeadman; simp
@[simp] theorem State.startDeadman_pending (b : Bay) : (s.startDeadman b).pending = s.pending := by unfold State.startDeadman; simp

@[simp] theorem State.deadmanFlowLeft_condition (a : Arm) : (s.deadmanFlowLeft a).condition = s.condition := by unfold State.deadmanFlowLeft; simp
@[simp] theorem State.deadmanFlowLeft_lc (a : Arm) : (s.deadmanFlowLeft a).lc = s.lc := by unfold State.deadmanFlowLeft; simp
@[simp] theorem State.deadmanFlowLeft_ic (a : Arm) : (s.deadmanFlowLeft a).ic = s.ic := by unfold State.deadmanFlowLeft; simp
@[simp] theorem State.deadmanFlowLeft_wc (a : Arm) : (s.deadmanFlowLeft a).wc = s.wc := by unfold State.deadmanFlowLeft; simp
@[simp] theorem State.deadmanFlowLeft_pt (a : Arm) : (s.deadmanFlowLeft a).pt = s.pt := by unfold State.deadmanFlowLeft; simp
@[simp] theorem State.deadmanFlowLeft_ob (a : Arm) : (s.deadmanFlowLeft a).ob = s.ob := by unfold State.deadmanFlowLeft; simp
@[simp] theorem State.deadmanFlowLeft_me (a : Arm) : (s.deadmanFlowLeft a).me = s.me := by unfold State.deadmanFlowLeft; simp
@[simp] theorem State.deadmanFlowLeft_fc (a : Arm) : (s.deadmanFlowLeft a).fc = s.fc := by unfold State.deadmanFlowLeft; simp
@[simp] theorem State.deadmanFlowLeft_running (a : Arm) : (s.deadmanFlowLeft a).running = s.running := by unfold State.deadmanFlowLeft; simp
@[simp] theorem State.deadmanFlowLeft_adu (a : Arm) : (s.deadmanFlowLeft a).adu = s.adu := by unfold State.deadmanFlowLeft; simp
@[simp] theorem State.deadmanFlowLeft_ns (a : Arm) : (s.deadmanFlowLeft a).ns = s.ns := by unfold State.deadmanFlowLeft; simp
@[simp] theorem State.deadmanFlowLeft_nvc (a : Arm) : (s.deadmanFlowLeft a).nvc = s.nvc := by unfold State.deadmanFlowLeft; simp
@[simp] theorem State.deadmanFlowLeft_pending (a : Arm) : (s.deadmanFlowLeft a).pending = s.pending := by unfold State.deadmanFlowLeft; simp

@[simp] theorem State.deadmanCauseLeft_condition (b : Bay) : (s.deadmanCauseLeft b).condition = s.condition := by
  unfold State.deadmanCauseLeft
  (repeat' split) <;> simp
@[simp] theorem State.deadmanCauseLeft_lc (b : Bay) : (s.deadmanCauseLeft b).lc = s.lc := by
  unfold State.deadmanCauseLeft
  (repeat' split) <;> simp
@[simp] theorem State.deadmanCauseLeft_ic (b : Bay) : (s.deadmanCauseLeft b).ic = s.ic := by
  unfold State.deadmanCauseLeft
  (repeat' split) <;> simp
@[simp] theorem State.deadmanCauseLeft_wc (b : Bay) : (s.deadmanCauseLeft b).wc = s.wc := by
  unfold State.deadmanCauseLeft
  (repeat' split) <;> simp
@[simp] theorem State.deadmanCauseLeft_pt (b : Bay) : (s.deadmanCauseLeft b).pt = s.pt := by
  unfold State.deadmanCauseLeft
  (repeat' split) <;> simp
@[simp] theorem State.deadmanCauseLeft_ob (b : Bay) : (s.deadmanCauseLeft b).ob = s.ob := by
  unfold State.deadmanCauseLeft
  (repeat' split) <;> simp
@[simp] theorem State.deadmanCauseLeft_me (b : Bay) : (s.deadmanCauseLeft b).me = s.me := by
  unfold State.deadmanCauseLeft
  (repeat' split) <;> simp
@[simp] theorem State.deadmanCauseLeft_fc (b : Bay) : (s.deadmanCauseLeft b).fc = s.fc := by
  unfold State.deadmanCauseLeft
  (repeat' split) <;> simp
@[simp] theorem State.deadmanCauseLeft_running (b : Bay) : (s.deadmanCauseLeft b).running = s.running := by
  unfold State.deadmanCauseLeft
  (repeat' split) <;> simp
@[simp] theorem State.deadmanCauseLeft_adu (b : Bay) : (s.deadmanCauseLeft b).adu = s.adu := by
  unfold State.deadmanCauseLeft
  (repeat' split) <;> simp
@[simp] theorem State.deadmanCauseLeft_ns (b : Bay) : (s.deadmanCauseLeft b).ns = s.ns := by
  unfold State.deadmanCauseLeft
  (repeat' split) <;> simp
@[simp] theorem State.deadmanCauseLeft_nvc (b : Bay) : (s.deadmanCauseLeft b).nvc = s.nvc := by
  unfold State.deadmanCauseLeft
  (repeat' split) <;> simp
@[simp] theorem State.deadmanCauseLeft_pending (b : Bay) : (s.deadmanCauseLeft b).pending = s.pending := by
  unfold State.deadmanCauseLeft
  (repeat' split) <;> simp

@[simp] theorem State.flowLeft_condition (a : Arm) : (s.flowLeft a).condition = s.condition := by unfold State.flowLeft; simp
@[simp] theorem State.flowLeft_lc (a : Arm) : (s.flowLeft a).lc = s.lc := by unfold State.flowLeft; simp
@[simp] theorem State.flowLeft_ic (a : Arm) : (s.flowLeft a).ic = s.ic := by unfold State.flowLeft; simp
@[simp] theorem State.flowLeft_wc (a : Arm) : (s.flowLeft a).wc = s.wc := by unfold State.flowLeft; simp
@[simp] theorem State.flowLeft_pt (a : Arm) : (s.flowLeft a).pt = s.pt := by unfold State.flowLeft; simp
@[simp] theorem State.flowLeft_ob (a : Arm) : (s.flowLeft a).ob = s.ob := by unfold State.flowLeft; simp
@[simp] theorem State.flowLeft_me (a : Arm) : (s.flowLeft a).me = s.me := by unfold State.flowLeft; simp
@[simp] theorem State.flowLeft_fc (a : Arm) : (s.flowLeft a).fc = s.fc := by unfold State.flowLeft; simp
@[simp] theorem State.flowLeft_ns (a : Arm) : (s.flowLeft a).ns = s.ns := by unfold State.flowLeft; simp
@[simp] theorem State.flowLeft_nvc (a : Arm) : (s.flowLeft a).nvc = s.nvc := by unfold State.flowLeft; simp
@[simp] theorem State.flowLeft_pending (a : Arm) : (s.flowLeft a).pending = s.pending := by unfold State.flowLeft; simp

@[simp] theorem State.setEndReason_condition (a : Arm) (r : EndReason) : (s.setEndReason a r).condition = s.condition := by unfold State.setEndReason; simp
@[simp] theorem State.setEndReason_lc (a : Arm) (r : EndReason) : (s.setEndReason a r).lc = s.lc := by unfold State.setEndReason; simp
@[simp] theorem State.setEndReason_ic (a : Arm) (r : EndReason) : (s.setEndReason a r).ic = s.ic := by unfold State.setEndReason; simp
@[simp] theorem State.setEndReason_wc (a : Arm) (r : EndReason) : (s.setEndReason a r).wc = s.wc := by unfold State.setEndReason; simp
@[simp] theorem State.setEndReason_pt (a : Arm) (r : EndReason) : (s.setEndReason a r).pt = s.pt := by unfold State.setEndReason; simp
@[simp] theorem State.setEndReason_ob (a : Arm) (r : EndReason) : (s.setEndReason a r).ob = s.ob := by unfold State.setEndReason; simp
@[simp] theorem State.setEndReason_bsc (a : Arm) (r : EndReason) : (s.setEndReason a r).bsc = s.bsc := by unfold State.setEndReason; simp
@[simp] theorem State.setEndReason_me (a : Arm) (r : EndReason) : (s.setEndReason a r).me = s.me := by unfold State.setEndReason; simp
@[simp] theorem State.setEndReason_fc (a : Arm) (r : EndReason) : (s.setEndReason a r).fc = s.fc := by unfold State.setEndReason; simp
@[simp] theorem State.setEndReason_adu (a : Arm) (r : EndReason) : (s.setEndReason a r).adu = s.adu := by unfold State.setEndReason; simp
@[simp] theorem State.setEndReason_ns (a : Arm) (r : EndReason) : (s.setEndReason a r).ns = s.ns := by unfold State.setEndReason; simp
@[simp] theorem State.setEndReason_nvc (a : Arm) (r : EndReason) : (s.setEndReason a r).nvc = s.nvc := by unfold State.setEndReason; simp
@[simp] theorem State.setEndReason_pending (a : Arm) (r : EndReason) : (s.setEndReason a r).pending = s.pending := by unfold State.setEndReason; simp

@[simp] theorem State.enterClosing_condition (a : Arm) (r : EndReason) : (s.enterClosing a r).condition = s.condition := by
  unfold State.enterClosing
  dsimp only
  (repeat' split) <;> simp
@[simp] theorem State.enterClosing_lc (a : Arm) (r : EndReason) : (s.enterClosing a r).lc = s.lc := by
  unfold State.enterClosing
  dsimp only
  (repeat' split) <;> simp
@[simp] theorem State.enterClosing_ic (a : Arm) (r : EndReason) : (s.enterClosing a r).ic = s.ic := by
  unfold State.enterClosing
  dsimp only
  (repeat' split) <;> simp
@[simp] theorem State.enterClosing_wc (a : Arm) (r : EndReason) : (s.enterClosing a r).wc = s.wc := by
  unfold State.enterClosing
  dsimp only
  (repeat' split) <;> simp
@[simp] theorem State.enterClosing_pt (a : Arm) (r : EndReason) : (s.enterClosing a r).pt = s.pt := by
  unfold State.enterClosing
  dsimp only
  (repeat' split) <;> simp
@[simp] theorem State.enterClosing_ob (a : Arm) (r : EndReason) : (s.enterClosing a r).ob = s.ob := by
  unfold State.enterClosing
  dsimp only
  (repeat' split) <;> simp
@[simp] theorem State.enterClosing_me (a : Arm) (r : EndReason) : (s.enterClosing a r).me = s.me := by
  unfold State.enterClosing
  dsimp only
  (repeat' split) <;> simp
@[simp] theorem State.enterClosing_ns (a : Arm) (r : EndReason) : (s.enterClosing a r).ns = s.ns := by
  unfold State.enterClosing
  dsimp only
  (repeat' split) <;> simp
@[simp] theorem State.enterClosing_nvc (a : Arm) (r : EndReason) : (s.enterClosing a r).nvc = s.nvc := by
  unfold State.enterClosing
  dsimp only
  (repeat' split) <;> simp
@[simp] theorem State.enterClosing_pending (a : Arm) (r : EndReason) : (s.enterClosing a r).pending = s.pending := by
  unfold State.enterClosing
  dsimp only
  (repeat' split) <;> simp

@[simp] theorem State.enterPaused_condition (a : Arm) : (s.enterPaused a).condition = s.condition := by unfold State.enterPaused; simp
@[simp] theorem State.enterPaused_lc (a : Arm) : (s.enterPaused a).lc = s.lc := by unfold State.enterPaused; simp
@[simp] theorem State.enterPaused_ic (a : Arm) : (s.enterPaused a).ic = s.ic := by unfold State.enterPaused; simp
@[simp] theorem State.enterPaused_wc (a : Arm) : (s.enterPaused a).wc = s.wc := by unfold State.enterPaused; simp
@[simp] theorem State.enterPaused_pt (a : Arm) : (s.enterPaused a).pt = s.pt := by unfold State.enterPaused; simp
@[simp] theorem State.enterPaused_ob (a : Arm) : (s.enterPaused a).ob = s.ob := by unfold State.enterPaused; simp
@[simp] theorem State.enterPaused_me (a : Arm) : (s.enterPaused a).me = s.me := by unfold State.enterPaused; simp
@[simp] theorem State.enterPaused_ns (a : Arm) : (s.enterPaused a).ns = s.ns := by unfold State.enterPaused; simp
@[simp] theorem State.enterPaused_nvc (a : Arm) : (s.enterPaused a).nvc = s.nvc := by unfold State.enterPaused; simp
@[simp] theorem State.enterPaused_pending (a : Arm) : (s.enterPaused a).pending = s.pending := by unfold State.enterPaused; simp

@[simp] theorem State.enterEnding_condition (a : Arm) : (s.enterEnding a).condition = s.condition := by
  unfold State.enterEnding
  (repeat' split) <;> simp
@[simp] theorem State.enterEnding_lc (a : Arm) : (s.enterEnding a).lc = s.lc := by
  unfold State.enterEnding
  (repeat' split) <;> simp
@[simp] theorem State.enterEnding_ic (a : Arm) : (s.enterEnding a).ic = s.ic := by
  unfold State.enterEnding
  (repeat' split) <;> simp
@[simp] theorem State.enterEnding_wc (a : Arm) : (s.enterEnding a).wc = s.wc := by
  unfold State.enterEnding
  (repeat' split) <;> simp
@[simp] theorem State.enterEnding_pt (a : Arm) : (s.enterEnding a).pt = s.pt := by
  unfold State.enterEnding
  (repeat' split) <;> simp
@[simp] theorem State.enterEnding_ob (a : Arm) : (s.enterEnding a).ob = s.ob := by
  unfold State.enterEnding
  (repeat' split) <;> simp
@[simp] theorem State.enterEnding_bsc (a : Arm) : (s.enterEnding a).bsc = s.bsc := by
  unfold State.enterEnding
  (repeat' split) <;> simp
@[simp] theorem State.enterEnding_me (a : Arm) : (s.enterEnding a).me = s.me := by
  unfold State.enterEnding
  (repeat' split) <;> simp
@[simp] theorem State.enterEnding_running (a : Arm) : (s.enterEnding a).running = s.running := by
  unfold State.enterEnding
  (repeat' split) <;> simp
@[simp] theorem State.enterEnding_adu (a : Arm) : (s.enterEnding a).adu = s.adu := by
  unfold State.enterEnding
  (repeat' split) <;> simp
@[simp] theorem State.enterEnding_nvc (a : Arm) : (s.enterEnding a).nvc = s.nvc := by
  unfold State.enterEnding
  (repeat' split) <;> simp
@[simp] theorem State.enterEnding_pending (a : Arm) : (s.enterEnding a).pending = s.pending := by
  unfold State.enterEnding
  (repeat' split) <;> simp

@[simp] theorem State.raiseCause_condition (a : Arm) (c : StopCause) : (s.raiseCause a c).condition = s.condition := by
  unfold State.raiseCause
  dsimp only
  (repeat' split) <;> simp
@[simp] theorem State.raiseCause_ic (a : Arm) (c : StopCause) : (s.raiseCause a c).ic = s.ic := by
  unfold State.raiseCause
  dsimp only
  (repeat' split) <;> simp
@[simp] theorem State.raiseCause_wc (a : Arm) (c : StopCause) : (s.raiseCause a c).wc = s.wc := by
  unfold State.raiseCause
  dsimp only
  (repeat' split) <;> simp
@[simp] theorem State.raiseCause_pt (a : Arm) (c : StopCause) : (s.raiseCause a c).pt = s.pt := by
  unfold State.raiseCause
  dsimp only
  (repeat' split) <;> simp
@[simp] theorem State.raiseCause_ob (a : Arm) (c : StopCause) : (s.raiseCause a c).ob = s.ob := by
  unfold State.raiseCause
  dsimp only
  (repeat' split) <;> simp
@[simp] theorem State.raiseCause_me (a : Arm) (c : StopCause) : (s.raiseCause a c).me = s.me := by
  unfold State.raiseCause
  dsimp only
  (repeat' split) <;> simp
@[simp] theorem State.raiseCause_ns (a : Arm) (c : StopCause) : (s.raiseCause a c).ns = s.ns := by
  unfold State.raiseCause
  dsimp only
  (repeat' split) <;> simp
@[simp] theorem State.raiseCause_nvc (a : Arm) (c : StopCause) : (s.raiseCause a c).nvc = s.nvc := by
  unfold State.raiseCause
  dsimp only
  (repeat' split) <;> simp
@[simp] theorem State.raiseCause_pending (a : Arm) (c : StopCause) : (s.raiseCause a c).pending = s.pending := by
  unfold State.raiseCause
  dsimp only
  (repeat' split) <;> simp

@[simp] theorem State.raiseCauses_condition (a : Arm) (cs : List StopCause) : (s.raiseCauses a cs).condition = s.condition := by
  unfold State.raiseCauses
  induction cs generalizing s with
  | nil => rfl
  | cons x xs ih => rw [List.foldl_cons, ih]; simp
@[simp] theorem State.raiseCauses_ic (a : Arm) (cs : List StopCause) : (s.raiseCauses a cs).ic = s.ic := by
  unfold State.raiseCauses
  induction cs generalizing s with
  | nil => rfl
  | cons x xs ih => rw [List.foldl_cons, ih]; simp
@[simp] theorem State.raiseCauses_wc (a : Arm) (cs : List StopCause) : (s.raiseCauses a cs).wc = s.wc := by
  unfold State.raiseCauses
  induction cs generalizing s with
  | nil => rfl
  | cons x xs ih => rw [List.foldl_cons, ih]; simp
@[simp] theorem State.raiseCauses_pt (a : Arm) (cs : List StopCause) : (s.raiseCauses a cs).pt = s.pt := by
  unfold State.raiseCauses
  induction cs generalizing s with
  | nil => rfl
  | cons x xs ih => rw [List.foldl_cons, ih]; simp
@[simp] theorem State.raiseCauses_ob (a : Arm) (cs : List StopCause) : (s.raiseCauses a cs).ob = s.ob := by
  unfold State.raiseCauses
  induction cs generalizing s with
  | nil => rfl
  | cons x xs ih => rw [List.foldl_cons, ih]; simp
@[simp] theorem State.raiseCauses_me (a : Arm) (cs : List StopCause) : (s.raiseCauses a cs).me = s.me := by
  unfold State.raiseCauses
  induction cs generalizing s with
  | nil => rfl
  | cons x xs ih => rw [List.foldl_cons, ih]; simp
@[simp] theorem State.raiseCauses_ns (a : Arm) (cs : List StopCause) : (s.raiseCauses a cs).ns = s.ns := by
  unfold State.raiseCauses
  induction cs generalizing s with
  | nil => rfl
  | cons x xs ih => rw [List.foldl_cons, ih]; simp
@[simp] theorem State.raiseCauses_nvc (a : Arm) (cs : List StopCause) : (s.raiseCauses a cs).nvc = s.nvc := by
  unfold State.raiseCauses
  induction cs generalizing s with
  | nil => rfl
  | cons x xs ih => rw [List.foldl_cons, ih]; simp
@[simp] theorem State.raiseCauses_pending (a : Arm) (cs : List StopCause) : (s.raiseCauses a cs).pending = s.pending := by
  unfold State.raiseCauses
  induction cs generalizing s with
  | nil => rfl
  | cons x xs ih => rw [List.foldl_cons, ih]; simp

@[simp] theorem State.raiseOn_condition (arms : List Arm) (c : StopCause) : (s.raiseOn arms c).condition = s.condition := by
  unfold State.raiseOn
  induction arms generalizing s with
  | nil => rfl
  | cons x xs ih => rw [List.foldl_cons, ih]; simp
@[simp] theorem State.raiseOn_ic (arms : List Arm) (c : StopCause) : (s.raiseOn arms c).ic = s.ic := by
  unfold State.raiseOn
  induction arms generalizing s with
  | nil => rfl
  | cons x xs ih => rw [List.foldl_cons, ih]; simp
@[simp] theorem State.raiseOn_wc (arms : List Arm) (c : StopCause) : (s.raiseOn arms c).wc = s.wc := by
  unfold State.raiseOn
  induction arms generalizing s with
  | nil => rfl
  | cons x xs ih => rw [List.foldl_cons, ih]; simp
@[simp] theorem State.raiseOn_pt (arms : List Arm) (c : StopCause) : (s.raiseOn arms c).pt = s.pt := by
  unfold State.raiseOn
  induction arms generalizing s with
  | nil => rfl
  | cons x xs ih => rw [List.foldl_cons, ih]; simp
@[simp] theorem State.raiseOn_ob (arms : List Arm) (c : StopCause) : (s.raiseOn arms c).ob = s.ob := by
  unfold State.raiseOn
  induction arms generalizing s with
  | nil => rfl
  | cons x xs ih => rw [List.foldl_cons, ih]; simp
@[simp] theorem State.raiseOn_me (arms : List Arm) (c : StopCause) : (s.raiseOn arms c).me = s.me := by
  unfold State.raiseOn
  induction arms generalizing s with
  | nil => rfl
  | cons x xs ih => rw [List.foldl_cons, ih]; simp
@[simp] theorem State.raiseOn_ns (arms : List Arm) (c : StopCause) : (s.raiseOn arms c).ns = s.ns := by
  unfold State.raiseOn
  induction arms generalizing s with
  | nil => rfl
  | cons x xs ih => rw [List.foldl_cons, ih]; simp
@[simp] theorem State.raiseOn_nvc (arms : List Arm) (c : StopCause) : (s.raiseOn arms c).nvc = s.nvc := by
  unfold State.raiseOn
  induction arms generalizing s with
  | nil => rfl
  | cons x xs ih => rw [List.foldl_cons, ih]; simp
@[simp] theorem State.raiseOn_pending (arms : List Arm) (c : StopCause) : (s.raiseOn arms c).pending = s.pending := by
  unfold State.raiseOn
  induction arms generalizing s with
  | nil => rfl
  | cons x xs ih => rw [List.foldl_cons, ih]; simp

@[simp] theorem State.enterFlow_condition (a : Arm) (st : ArmState) : (s.enterFlow a st).condition = s.condition := by
  unfold State.enterFlow
  dsimp only
  (repeat' split) <;> simp
@[simp] theorem State.enterFlow_lc (a : Arm) (st : ArmState) : (s.enterFlow a st).lc = s.lc := by
  unfold State.enterFlow
  dsimp only
  (repeat' split) <;> simp
@[simp] theorem State.enterFlow_ic (a : Arm) (st : ArmState) : (s.enterFlow a st).ic = s.ic := by
  unfold State.enterFlow
  dsimp only
  (repeat' split) <;> simp
@[simp] theorem State.enterFlow_wc (a : Arm) (st : ArmState) : (s.enterFlow a st).wc = s.wc := by
  unfold State.enterFlow
  dsimp only
  (repeat' split) <;> simp
@[simp] theorem State.enterFlow_pt (a : Arm) (st : ArmState) : (s.enterFlow a st).pt = s.pt := by
  unfold State.enterFlow
  dsimp only
  (repeat' split) <;> simp
@[simp] theorem State.enterFlow_ob (a : Arm) (st : ArmState) : (s.enterFlow a st).ob = s.ob := by
  unfold State.enterFlow
  dsimp only
  (repeat' split) <;> simp
@[simp] theorem State.enterFlow_me (a : Arm) (st : ArmState) : (s.enterFlow a st).me = s.me := by
  unfold State.enterFlow
  dsimp only
  (repeat' split) <;> simp
@[simp] theorem State.enterFlow_running (a : Arm) (st : ArmState) : (s.enterFlow a st).running = s.running := by
  unfold State.enterFlow
  dsimp only
  (repeat' split) <;> simp
@[simp] theorem State.enterFlow_adu (a : Arm) (st : ArmState) : (s.enterFlow a st).adu = s.adu := by
  unfold State.enterFlow
  dsimp only
  (repeat' split) <;> simp
@[simp] theorem State.enterFlow_ns (a : Arm) (st : ArmState) : (s.enterFlow a st).ns = s.ns := by
  unfold State.enterFlow
  dsimp only
  (repeat' split) <;> simp
@[simp] theorem State.enterFlow_nvc (a : Arm) (st : ArmState) : (s.enterFlow a st).nvc = s.nvc := by
  unfold State.enterFlow
  dsimp only
  (repeat' split) <;> simp
@[simp] theorem State.enterFlow_pending (a : Arm) (st : ArmState) : (s.enterFlow a st).pending = s.pending := by
  unfold State.enterFlow
  dsimp only
  (repeat' split) <;> simp

@[simp] theorem State.enterStage_condition (a : Arm) (st : Stage) : (s.enterStage a st).condition = s.condition := by
  unfold State.enterStage
  (repeat' split) <;> simp
@[simp] theorem State.enterStage_lc (a : Arm) (st : Stage) : (s.enterStage a st).lc = s.lc := by
  unfold State.enterStage
  (repeat' split) <;> simp
@[simp] theorem State.enterStage_ic (a : Arm) (st : Stage) : (s.enterStage a st).ic = s.ic := by
  unfold State.enterStage
  (repeat' split) <;> simp
@[simp] theorem State.enterStage_wc (a : Arm) (st : Stage) : (s.enterStage a st).wc = s.wc := by
  unfold State.enterStage
  (repeat' split) <;> simp
@[simp] theorem State.enterStage_pt (a : Arm) (st : Stage) : (s.enterStage a st).pt = s.pt := by
  unfold State.enterStage
  (repeat' split) <;> simp
@[simp] theorem State.enterStage_ob (a : Arm) (st : Stage) : (s.enterStage a st).ob = s.ob := by
  unfold State.enterStage
  (repeat' split) <;> simp
@[simp] theorem State.enterStage_me (a : Arm) (st : Stage) : (s.enterStage a st).me = s.me := by
  unfold State.enterStage
  (repeat' split) <;> simp
@[simp] theorem State.enterStage_ns (a : Arm) (st : Stage) : (s.enterStage a st).ns = s.ns := by
  unfold State.enterStage
  (repeat' split) <;> simp
@[simp] theorem State.enterStage_nvc (a : Arm) (st : Stage) : (s.enterStage a st).nvc = s.nvc := by
  unfold State.enterStage
  (repeat' split) <;> simp
@[simp] theorem State.enterStage_pending (a : Arm) (st : Stage) : (s.enterStage a st).pending = s.pending := by
  unfold State.enterStage
  (repeat' split) <;> simp

@[simp] theorem State.regulateArm_condition (a : Arm) (n : Nat) : (s.regulateArm a n).condition = s.condition := by unfold State.regulateArm; simp
@[simp] theorem State.regulateArm_lc (a : Arm) (n : Nat) : (s.regulateArm a n).lc = s.lc := by unfold State.regulateArm; simp
@[simp] theorem State.regulateArm_ic (a : Arm) (n : Nat) : (s.regulateArm a n).ic = s.ic := by unfold State.regulateArm; simp
@[simp] theorem State.regulateArm_wc (a : Arm) (n : Nat) : (s.regulateArm a n).wc = s.wc := by unfold State.regulateArm; simp
@[simp] theorem State.regulateArm_pt (a : Arm) (n : Nat) : (s.regulateArm a n).pt = s.pt := by unfold State.regulateArm; simp
@[simp] theorem State.regulateArm_ob (a : Arm) (n : Nat) : (s.regulateArm a n).ob = s.ob := by unfold State.regulateArm; simp
@[simp] theorem State.regulateArm_bsc (a : Arm) (n : Nat) : (s.regulateArm a n).bsc = s.bsc := by unfold State.regulateArm; simp
@[simp] theorem State.regulateArm_me (a : Arm) (n : Nat) : (s.regulateArm a n).me = s.me := by unfold State.regulateArm; simp
@[simp] theorem State.regulateArm_running (a : Arm) (n : Nat) : (s.regulateArm a n).running = s.running := by unfold State.regulateArm; simp
@[simp] theorem State.regulateArm_adu (a : Arm) (n : Nat) : (s.regulateArm a n).adu = s.adu := by unfold State.regulateArm; simp
@[simp] theorem State.regulateArm_ns (a : Arm) (n : Nat) : (s.regulateArm a n).ns = s.ns := by unfold State.regulateArm; simp
@[simp] theorem State.regulateArm_nvc (a : Arm) (n : Nat) : (s.regulateArm a n).nvc = s.nvc := by unfold State.regulateArm; simp
@[simp] theorem State.regulateArm_pending (a : Arm) (n : Nat) : (s.regulateArm a n).pending = s.pending := by unfold State.regulateArm; simp

@[simp] theorem State.stageArm_condition (a : Arm) : (s.stageArm a).condition = s.condition := by
  unfold State.stageArm
  dsimp only
  (repeat' split) <;> simp
@[simp] theorem State.stageArm_lc (a : Arm) : (s.stageArm a).lc = s.lc := by
  unfold State.stageArm
  dsimp only
  (repeat' split) <;> simp
@[simp] theorem State.stageArm_ic (a : Arm) : (s.stageArm a).ic = s.ic := by
  unfold State.stageArm
  dsimp only
  (repeat' split) <;> simp
@[simp] theorem State.stageArm_wc (a : Arm) : (s.stageArm a).wc = s.wc := by
  unfold State.stageArm
  dsimp only
  (repeat' split) <;> simp
@[simp] theorem State.stageArm_pt (a : Arm) : (s.stageArm a).pt = s.pt := by
  unfold State.stageArm
  dsimp only
  (repeat' split) <;> simp
@[simp] theorem State.stageArm_ob (a : Arm) : (s.stageArm a).ob = s.ob := by
  unfold State.stageArm
  dsimp only
  (repeat' split) <;> simp
@[simp] theorem State.stageArm_me (a : Arm) : (s.stageArm a).me = s.me := by
  unfold State.stageArm
  dsimp only
  (repeat' split) <;> simp
@[simp] theorem State.stageArm_ns (a : Arm) : (s.stageArm a).ns = s.ns := by
  unfold State.stageArm
  dsimp only
  (repeat' split) <;> simp
@[simp] theorem State.stageArm_nvc (a : Arm) : (s.stageArm a).nvc = s.nvc := by
  unfold State.stageArm
  dsimp only
  (repeat' split) <;> simp
@[simp] theorem State.stageArm_pending (a : Arm) : (s.stageArm a).pending = s.pending := by
  unfold State.stageArm
  dsimp only
  (repeat' split) <;> simp

@[simp] theorem State.endClosing_condition (a : Arm) : (s.endClosing a).condition = s.condition := by
  unfold State.endClosing
  dsimp only
  (repeat' split) <;> simp
@[simp] theorem State.endClosing_ic (a : Arm) : (s.endClosing a).ic = s.ic := by
  unfold State.endClosing
  dsimp only
  (repeat' split) <;> simp
@[simp] theorem State.endClosing_wc (a : Arm) : (s.endClosing a).wc = s.wc := by
  unfold State.endClosing
  dsimp only
  (repeat' split) <;> simp
@[simp] theorem State.endClosing_pt (a : Arm) : (s.endClosing a).pt = s.pt := by
  unfold State.endClosing
  dsimp only
  (repeat' split) <;> simp
@[simp] theorem State.endClosing_ob (a : Arm) : (s.endClosing a).ob = s.ob := by
  unfold State.endClosing
  dsimp only
  (repeat' split) <;> simp
@[simp] theorem State.endClosing_bsc (a : Arm) : (s.endClosing a).bsc = s.bsc := by
  unfold State.endClosing
  dsimp only
  (repeat' split) <;> simp
@[simp] theorem State.endClosing_me (a : Arm) : (s.endClosing a).me = s.me := by
  unfold State.endClosing
  dsimp only
  (repeat' split) <;> simp
@[simp] theorem State.endClosing_adu (a : Arm) : (s.endClosing a).adu = s.adu := by
  unfold State.endClosing
  dsimp only
  (repeat' split) <;> simp
@[simp] theorem State.endClosing_nvc (a : Arm) : (s.endClosing a).nvc = s.nvc := by
  unfold State.endClosing
  dsimp only
  (repeat' split) <;> simp
@[simp] theorem State.endClosing_pending (a : Arm) : (s.endClosing a).pending = s.pending := by
  unfold State.endClosing
  dsimp only
  (repeat' split) <;> simp

@[simp] theorem State.countClosing_condition (a : Arm) (n : Nat) : (s.countClosing a n).condition = s.condition := by
  unfold State.countClosing
  dsimp only
  (repeat' split) <;> simp
@[simp] theorem State.countClosing_ic (a : Arm) (n : Nat) : (s.countClosing a n).ic = s.ic := by
  unfold State.countClosing
  dsimp only
  (repeat' split) <;> simp
@[simp] theorem State.countClosing_wc (a : Arm) (n : Nat) : (s.countClosing a n).wc = s.wc := by
  unfold State.countClosing
  dsimp only
  (repeat' split) <;> simp
@[simp] theorem State.countClosing_pt (a : Arm) (n : Nat) : (s.countClosing a n).pt = s.pt := by
  unfold State.countClosing
  dsimp only
  (repeat' split) <;> simp
@[simp] theorem State.countClosing_ob (a : Arm) (n : Nat) : (s.countClosing a n).ob = s.ob := by
  unfold State.countClosing
  dsimp only
  (repeat' split) <;> simp
@[simp] theorem State.countClosing_bsc (a : Arm) (n : Nat) : (s.countClosing a n).bsc = s.bsc := by
  unfold State.countClosing
  dsimp only
  (repeat' split) <;> simp
@[simp] theorem State.countClosing_me (a : Arm) (n : Nat) : (s.countClosing a n).me = s.me := by
  unfold State.countClosing
  dsimp only
  (repeat' split) <;> simp
@[simp] theorem State.countClosing_adu (a : Arm) (n : Nat) : (s.countClosing a n).adu = s.adu := by
  unfold State.countClosing
  dsimp only
  (repeat' split) <;> simp
@[simp] theorem State.countClosing_nvc (a : Arm) (n : Nat) : (s.countClosing a n).nvc = s.nvc := by
  unfold State.countClosing
  dsimp only
  (repeat' split) <;> simp
@[simp] theorem State.countClosing_pending (a : Arm) (n : Nat) : (s.countClosing a n).pending = s.pending := by
  unfold State.countClosing
  dsimp only
  (repeat' split) <;> simp

@[simp] theorem State.flowInterval_condition
    (a : Arm) (n : Nat) (cs : List StopCause) : (s.flowInterval a n cs).condition = s.condition := by
  unfold State.flowInterval
  split <;> (try dsimp only) <;> (try split) <;> simp
@[simp] theorem State.flowInterval_ic (a : Arm) (n : Nat) (cs : List StopCause) : (s.flowInterval a n cs).ic = s.ic := by
  unfold State.flowInterval
  split <;> (try dsimp only) <;> (try split) <;> simp
@[simp] theorem State.flowInterval_wc (a : Arm) (n : Nat) (cs : List StopCause) : (s.flowInterval a n cs).wc = s.wc := by
  unfold State.flowInterval
  split <;> (try dsimp only) <;> (try split) <;> simp
@[simp] theorem State.flowInterval_pt (a : Arm) (n : Nat) (cs : List StopCause) : (s.flowInterval a n cs).pt = s.pt := by
  unfold State.flowInterval
  split <;> (try dsimp only) <;> (try split) <;> simp
@[simp] theorem State.flowInterval_ob (a : Arm) (n : Nat) (cs : List StopCause) : (s.flowInterval a n cs).ob = s.ob := by
  unfold State.flowInterval
  split <;> (try dsimp only) <;> (try split) <;> simp
@[simp] theorem State.flowInterval_me (a : Arm) (n : Nat) (cs : List StopCause) : (s.flowInterval a n cs).me = s.me := by
  unfold State.flowInterval
  split <;> (try dsimp only) <;> (try split) <;> simp
@[simp] theorem State.flowInterval_nvc (a : Arm) (n : Nat) (cs : List StopCause) : (s.flowInterval a n cs).nvc = s.nvc := by
  unfold State.flowInterval
  split <;> (try dsimp only) <;> (try split) <;> simp
@[simp] theorem State.flowInterval_pending
    (a : Arm) (n : Nat) (cs : List StopCause) : (s.flowInterval a n cs).pending = s.pending := by
  unfold State.flowInterval
  split <;> (try dsimp only) <;> (try split) <;> simp

@[simp] theorem State.takeHandover_condition (a : Arm) (h : Handover) : (s.takeHandover a h).condition = s.condition := by unfold State.takeHandover; simp
@[simp] theorem State.takeHandover_lc (a : Arm) (h : Handover) : (s.takeHandover a h).lc = s.lc := by unfold State.takeHandover; simp
@[simp] theorem State.takeHandover_wc (a : Arm) (h : Handover) : (s.takeHandover a h).wc = s.wc := by unfold State.takeHandover; simp
@[simp] theorem State.takeHandover_pt (a : Arm) (h : Handover) : (s.takeHandover a h).pt = s.pt := by unfold State.takeHandover; simp
@[simp] theorem State.takeHandover_ob (a : Arm) (h : Handover) : (s.takeHandover a h).ob = s.ob := by unfold State.takeHandover; simp
@[simp] theorem State.takeHandover_bsc (a : Arm) (h : Handover) : (s.takeHandover a h).bsc = s.bsc := by unfold State.takeHandover; simp
@[simp] theorem State.takeHandover_me (a : Arm) (h : Handover) : (s.takeHandover a h).me = s.me := by unfold State.takeHandover; simp
@[simp] theorem State.takeHandover_fc (a : Arm) (h : Handover) : (s.takeHandover a h).fc = s.fc := by unfold State.takeHandover; simp
@[simp] theorem State.takeHandover_running (a : Arm) (h : Handover) : (s.takeHandover a h).running = s.running := by unfold State.takeHandover; simp
@[simp] theorem State.takeHandover_adu (a : Arm) (h : Handover) : (s.takeHandover a h).adu = s.adu := by unfold State.takeHandover; simp
@[simp] theorem State.takeHandover_ns (a : Arm) (h : Handover) : (s.takeHandover a h).ns = s.ns := by unfold State.takeHandover; simp
@[simp] theorem State.takeHandover_nvc (a : Arm) (h : Handover) : (s.takeHandover a h).nvc = s.nvc := by unfold State.takeHandover; simp
@[simp] theorem State.takeHandover_pending (a : Arm) (h : Handover) : (s.takeHandover a h).pending = s.pending := by unfold State.takeHandover; simp

@[simp] theorem State.credit_condition (a : Arm) (r : MeterResult) : (s.credit a r).condition = s.condition := by
  unfold State.credit
  dsimp only
  (repeat' split) <;> simp
@[simp] theorem State.credit_ic (a : Arm) (r : MeterResult) : (s.credit a r).ic = s.ic := by
  unfold State.credit
  dsimp only
  (repeat' split) <;> simp
@[simp] theorem State.credit_wc (a : Arm) (r : MeterResult) : (s.credit a r).wc = s.wc := by
  unfold State.credit
  dsimp only
  (repeat' split) <;> simp
@[simp] theorem State.credit_pt (a : Arm) (r : MeterResult) : (s.credit a r).pt = s.pt := by
  unfold State.credit
  dsimp only
  (repeat' split) <;> simp
@[simp] theorem State.credit_ob (a : Arm) (r : MeterResult) : (s.credit a r).ob = s.ob := by
  unfold State.credit
  dsimp only
  (repeat' split) <;> simp
@[simp] theorem State.credit_bsc (a : Arm) (r : MeterResult) : (s.credit a r).bsc = s.bsc := by
  unfold State.credit
  dsimp only
  (repeat' split) <;> simp
@[simp] theorem State.credit_fc (a : Arm) (r : MeterResult) : (s.credit a r).fc = s.fc := by
  unfold State.credit
  dsimp only
  (repeat' split) <;> simp
@[simp] theorem State.credit_adu (a : Arm) (r : MeterResult) : (s.credit a r).adu = s.adu := by
  unfold State.credit
  dsimp only
  (repeat' split) <;> simp
@[simp] theorem State.credit_ns (a : Arm) (r : MeterResult) : (s.credit a r).ns = s.ns := by
  unfold State.credit
  dsimp only
  (repeat' split) <;> simp
@[simp] theorem State.credit_nvc (a : Arm) (r : MeterResult) : (s.credit a r).nvc = s.nvc := by
  unfold State.credit
  dsimp only
  (repeat' split) <;> simp
@[simp] theorem State.credit_pending (a : Arm) (r : MeterResult) : (s.credit a r).pending = s.pending := by
  unfold State.credit
  dsimp only
  (repeat' split) <;> simp

@[simp] theorem State.paceLine_condition (g : Nat) (x : LineRecord) : (s.paceLine g x).1.condition = s.condition := by
  unfold State.paceLine
  dsimp only
  (repeat' split) <;> simp
@[simp] theorem State.paceLine_lc (g : Nat) (x : LineRecord) : (s.paceLine g x).1.lc = s.lc := by
  unfold State.paceLine
  dsimp only
  (repeat' split) <;> simp
@[simp] theorem State.paceLine_ic (g : Nat) (x : LineRecord) : (s.paceLine g x).1.ic = s.ic := by
  unfold State.paceLine
  dsimp only
  (repeat' split) <;> simp
@[simp] theorem State.paceLine_wc (g : Nat) (x : LineRecord) : (s.paceLine g x).1.wc = s.wc := by
  unfold State.paceLine
  dsimp only
  (repeat' split) <;> simp
@[simp] theorem State.paceLine_pt (g : Nat) (x : LineRecord) : (s.paceLine g x).1.pt = s.pt := by
  unfold State.paceLine
  dsimp only
  (repeat' split) <;> simp
@[simp] theorem State.paceLine_ob (g : Nat) (x : LineRecord) : (s.paceLine g x).1.ob = s.ob := by
  unfold State.paceLine
  dsimp only
  (repeat' split) <;> simp
@[simp] theorem State.paceLine_bsc (g : Nat) (x : LineRecord) : (s.paceLine g x).1.bsc = s.bsc := by
  unfold State.paceLine
  dsimp only
  (repeat' split) <;> simp
@[simp] theorem State.paceLine_me (g : Nat) (x : LineRecord) : (s.paceLine g x).1.me = s.me := by
  unfold State.paceLine
  dsimp only
  (repeat' split) <;> simp
@[simp] theorem State.paceLine_fc (g : Nat) (x : LineRecord) : (s.paceLine g x).1.fc = s.fc := by
  unfold State.paceLine
  dsimp only
  (repeat' split) <;> simp
@[simp] theorem State.paceLine_ns (g : Nat) (x : LineRecord) : (s.paceLine g x).1.ns = s.ns := by
  unfold State.paceLine
  dsimp only
  (repeat' split) <;> simp
@[simp] theorem State.paceLine_nvc (g : Nat) (x : LineRecord) : (s.paceLine g x).1.nvc = s.nvc := by
  unfold State.paceLine
  dsimp only
  (repeat' split) <;> simp
@[simp] theorem State.paceLine_pending (g : Nat) (x : LineRecord) : (s.paceLine g x).1.pending = s.pending := by
  unfold State.paceLine
  dsimp only
  (repeat' split) <;> simp

@[simp] theorem State.paceLines_condition (g : Nat) (xs : List LineRecord) : (s.paceLines g xs).1.condition = s.condition := by
  induction xs generalizing s with
  | nil => rfl
  | cons x xs ih => simp [State.paceLines, ih]
@[simp] theorem State.paceLines_lc (g : Nat) (xs : List LineRecord) : (s.paceLines g xs).1.lc = s.lc := by
  induction xs generalizing s with
  | nil => rfl
  | cons x xs ih => simp [State.paceLines, ih]
@[simp] theorem State.paceLines_ic (g : Nat) (xs : List LineRecord) : (s.paceLines g xs).1.ic = s.ic := by
  induction xs generalizing s with
  | nil => rfl
  | cons x xs ih => simp [State.paceLines, ih]
@[simp] theorem State.paceLines_wc (g : Nat) (xs : List LineRecord) : (s.paceLines g xs).1.wc = s.wc := by
  induction xs generalizing s with
  | nil => rfl
  | cons x xs ih => simp [State.paceLines, ih]
@[simp] theorem State.paceLines_pt (g : Nat) (xs : List LineRecord) : (s.paceLines g xs).1.pt = s.pt := by
  induction xs generalizing s with
  | nil => rfl
  | cons x xs ih => simp [State.paceLines, ih]
@[simp] theorem State.paceLines_ob (g : Nat) (xs : List LineRecord) : (s.paceLines g xs).1.ob = s.ob := by
  induction xs generalizing s with
  | nil => rfl
  | cons x xs ih => simp [State.paceLines, ih]
@[simp] theorem State.paceLines_bsc (g : Nat) (xs : List LineRecord) : (s.paceLines g xs).1.bsc = s.bsc := by
  induction xs generalizing s with
  | nil => rfl
  | cons x xs ih => simp [State.paceLines, ih]
@[simp] theorem State.paceLines_me (g : Nat) (xs : List LineRecord) : (s.paceLines g xs).1.me = s.me := by
  induction xs generalizing s with
  | nil => rfl
  | cons x xs ih => simp [State.paceLines, ih]
@[simp] theorem State.paceLines_fc (g : Nat) (xs : List LineRecord) : (s.paceLines g xs).1.fc = s.fc := by
  induction xs generalizing s with
  | nil => rfl
  | cons x xs ih => simp [State.paceLines, ih]
@[simp] theorem State.paceLines_ns (g : Nat) (xs : List LineRecord) : (s.paceLines g xs).1.ns = s.ns := by
  induction xs generalizing s with
  | nil => rfl
  | cons x xs ih => simp [State.paceLines, ih]
@[simp] theorem State.paceLines_nvc (g : Nat) (xs : List LineRecord) : (s.paceLines g xs).1.nvc = s.nvc := by
  induction xs generalizing s with
  | nil => rfl
  | cons x xs ih => simp [State.paceLines, ih]
@[simp] theorem State.paceLines_pending (g : Nat) (xs : List LineRecord) : (s.paceLines g xs).1.pending = s.pending := by
  induction xs generalizing s with
  | nil => rfl
  | cons x xs ih => simp [State.paceLines, ih]

@[simp] theorem State.pace_condition (a : Arm) : (s.pace a).1.condition = s.condition := by unfold State.pace; (repeat' split) <;> simp
@[simp] theorem State.pace_lc (a : Arm) : (s.pace a).1.lc = s.lc := by unfold State.pace; (repeat' split) <;> simp
@[simp] theorem State.pace_ic (a : Arm) : (s.pace a).1.ic = s.ic := by unfold State.pace; (repeat' split) <;> simp
@[simp] theorem State.pace_wc (a : Arm) : (s.pace a).1.wc = s.wc := by unfold State.pace; (repeat' split) <;> simp
@[simp] theorem State.pace_pt (a : Arm) : (s.pace a).1.pt = s.pt := by unfold State.pace; (repeat' split) <;> simp
@[simp] theorem State.pace_ob (a : Arm) : (s.pace a).1.ob = s.ob := by unfold State.pace; (repeat' split) <;> simp
@[simp] theorem State.pace_bsc (a : Arm) : (s.pace a).1.bsc = s.bsc := by unfold State.pace; (repeat' split) <;> simp
@[simp] theorem State.pace_me (a : Arm) : (s.pace a).1.me = s.me := by unfold State.pace; (repeat' split) <;> simp
@[simp] theorem State.pace_fc (a : Arm) : (s.pace a).1.fc = s.fc := by unfold State.pace; (repeat' split) <;> simp
@[simp] theorem State.pace_ns (a : Arm) : (s.pace a).1.ns = s.ns := by unfold State.pace; (repeat' split) <;> simp
@[simp] theorem State.pace_nvc (a : Arm) : (s.pace a).1.nvc = s.nvc := by unfold State.pace; (repeat' split) <;> simp
@[simp] theorem State.pace_pending (a : Arm) : (s.pace a).1.pending = s.pending := by unfold State.pace; (repeat' split) <;> simp

@[simp] theorem State.paceArm_condition (a : Arm) : (s.paceArm a).condition = s.condition := by simp [State.paceArm]
@[simp] theorem State.paceArm_ic (a : Arm) : (s.paceArm a).ic = s.ic := by simp [State.paceArm]
@[simp] theorem State.paceArm_wc (a : Arm) : (s.paceArm a).wc = s.wc := by simp [State.paceArm]
@[simp] theorem State.paceArm_pt (a : Arm) : (s.paceArm a).pt = s.pt := by simp [State.paceArm]
@[simp] theorem State.paceArm_ob (a : Arm) : (s.paceArm a).ob = s.ob := by simp [State.paceArm]
@[simp] theorem State.paceArm_me (a : Arm) : (s.paceArm a).me = s.me := by simp [State.paceArm]
@[simp] theorem State.paceArm_ns (a : Arm) : (s.paceArm a).ns = s.ns := by simp [State.paceArm]
@[simp] theorem State.paceArm_nvc (a : Arm) : (s.paceArm a).nvc = s.nvc := by simp [State.paceArm]
@[simp] theorem State.paceArm_pending (a : Arm) : (s.paceArm a).pending = s.pending := by simp [State.paceArm]

@[simp] theorem State.setStockOf_condition (t : Additive) (x : StockRecord) : (s.setStockOf t x).condition = s.condition := by unfold State.setStockOf; simp
@[simp] theorem State.setStockOf_lc (t : Additive) (x : StockRecord) : (s.setStockOf t x).lc = s.lc := by unfold State.setStockOf; simp
@[simp] theorem State.setStockOf_ic (t : Additive) (x : StockRecord) : (s.setStockOf t x).ic = s.ic := by unfold State.setStockOf; simp
@[simp] theorem State.setStockOf_pt (t : Additive) (x : StockRecord) : (s.setStockOf t x).pt = s.pt := by unfold State.setStockOf; simp
@[simp] theorem State.setStockOf_ob (t : Additive) (x : StockRecord) : (s.setStockOf t x).ob = s.ob := by unfold State.setStockOf; simp
@[simp] theorem State.setStockOf_bsc (t : Additive) (x : StockRecord) : (s.setStockOf t x).bsc = s.bsc := by unfold State.setStockOf; simp
@[simp] theorem State.setStockOf_me (t : Additive) (x : StockRecord) : (s.setStockOf t x).me = s.me := by unfold State.setStockOf; simp
@[simp] theorem State.setStockOf_fc (t : Additive) (x : StockRecord) : (s.setStockOf t x).fc = s.fc := by unfold State.setStockOf; simp
@[simp] theorem State.setStockOf_running (t : Additive) (x : StockRecord) : (s.setStockOf t x).running = s.running := by unfold State.setStockOf; simp
@[simp] theorem State.setStockOf_adu (t : Additive) (x : StockRecord) : (s.setStockOf t x).adu = s.adu := by unfold State.setStockOf; simp
@[simp] theorem State.setStockOf_ns (t : Additive) (x : StockRecord) : (s.setStockOf t x).ns = s.ns := by unfold State.setStockOf; simp
@[simp] theorem State.setStockOf_nvc (t : Additive) (x : StockRecord) : (s.setStockOf t x).nvc = s.nvc := by unfold State.setStockOf; simp
@[simp] theorem State.setStockOf_pending (t : Additive) (x : StockRecord) : (s.setStockOf t x).pending = s.pending := by unfold State.setStockOf; simp

@[simp] theorem State.judgeReserve_condition (x y : StockRecord) : (s.judgeReserve x y).condition = s.condition := by
  unfold State.judgeReserve
  (repeat' split) <;> simp
@[simp] theorem State.judgeReserve_ic (x y : StockRecord) : (s.judgeReserve x y).ic = s.ic := by
  unfold State.judgeReserve
  (repeat' split) <;> simp
@[simp] theorem State.judgeReserve_wc (x y : StockRecord) : (s.judgeReserve x y).wc = s.wc := by
  unfold State.judgeReserve
  (repeat' split) <;> simp
@[simp] theorem State.judgeReserve_pt (x y : StockRecord) : (s.judgeReserve x y).pt = s.pt := by
  unfold State.judgeReserve
  (repeat' split) <;> simp
@[simp] theorem State.judgeReserve_ob (x y : StockRecord) : (s.judgeReserve x y).ob = s.ob := by
  unfold State.judgeReserve
  (repeat' split) <;> simp
@[simp] theorem State.judgeReserve_bsc (x y : StockRecord) : (s.judgeReserve x y).bsc = s.bsc := by
  unfold State.judgeReserve
  (repeat' split) <;> simp
@[simp] theorem State.judgeReserve_me (x y : StockRecord) : (s.judgeReserve x y).me = s.me := by
  unfold State.judgeReserve
  (repeat' split) <;> simp
@[simp] theorem State.judgeReserve_fc (x y : StockRecord) : (s.judgeReserve x y).fc = s.fc := by
  unfold State.judgeReserve
  (repeat' split) <;> simp
@[simp] theorem State.judgeReserve_running (x y : StockRecord) : (s.judgeReserve x y).running = s.running := by
  unfold State.judgeReserve
  (repeat' split) <;> simp
@[simp] theorem State.judgeReserve_adu (x y : StockRecord) : (s.judgeReserve x y).adu = s.adu := by
  unfold State.judgeReserve
  (repeat' split) <;> simp
@[simp] theorem State.judgeReserve_ns (x y : StockRecord) : (s.judgeReserve x y).ns = s.ns := by
  unfold State.judgeReserve
  (repeat' split) <;> simp
@[simp] theorem State.judgeReserve_nvc (x y : StockRecord) : (s.judgeReserve x y).nvc = s.nvc := by
  unfold State.judgeReserve
  (repeat' split) <;> simp
@[simp] theorem State.judgeReserve_pending (x y : StockRecord) : (s.judgeReserve x y).pending = s.pending := by
  unfold State.judgeReserve
  (repeat' split) <;> simp

@[simp] theorem State.draw_condition (t : Additive) (ml : Nat) : (s.draw t ml).condition = s.condition := by
  unfold State.draw
  dsimp only
  (repeat' split) <;> simp
@[simp] theorem State.draw_ic (t : Additive) (ml : Nat) : (s.draw t ml).ic = s.ic := by
  unfold State.draw
  dsimp only
  (repeat' split) <;> simp
@[simp] theorem State.draw_pt (t : Additive) (ml : Nat) : (s.draw t ml).pt = s.pt := by
  unfold State.draw
  dsimp only
  (repeat' split) <;> simp
@[simp] theorem State.draw_ob (t : Additive) (ml : Nat) : (s.draw t ml).ob = s.ob := by
  unfold State.draw
  dsimp only
  (repeat' split) <;> simp
@[simp] theorem State.draw_me (t : Additive) (ml : Nat) : (s.draw t ml).me = s.me := by
  unfold State.draw
  dsimp only
  (repeat' split) <;> simp
@[simp] theorem State.draw_ns (t : Additive) (ml : Nat) : (s.draw t ml).ns = s.ns := by
  unfold State.draw
  dsimp only
  (repeat' split) <;> simp
@[simp] theorem State.draw_nvc (t : Additive) (ml : Nat) : (s.draw t ml).nvc = s.nvc := by
  unfold State.draw
  dsimp only
  (repeat' split) <;> simp
@[simp] theorem State.draw_pending (t : Additive) (ml : Nat) : (s.draw t ml).pending = s.pending := by
  unfold State.draw
  dsimp only
  (repeat' split) <;> simp

@[simp] theorem State.countShotPulse_condition
    (p : Additive) (c : Channel) (ml : Nat) : (s.countShotPulse p c ml).condition = s.condition := by
  unfold State.countShotPulse
  dsimp only
  (repeat' split) <;> simp
@[simp] theorem State.countShotPulse_lc (p : Additive) (c : Channel) (ml : Nat) : (s.countShotPulse p c ml).lc = s.lc := by
  unfold State.countShotPulse
  dsimp only
  (repeat' split) <;> simp
@[simp] theorem State.countShotPulse_ic (p : Additive) (c : Channel) (ml : Nat) : (s.countShotPulse p c ml).ic = s.ic := by
  unfold State.countShotPulse
  dsimp only
  (repeat' split) <;> simp
@[simp] theorem State.countShotPulse_wc (p : Additive) (c : Channel) (ml : Nat) : (s.countShotPulse p c ml).wc = s.wc := by
  unfold State.countShotPulse
  dsimp only
  (repeat' split) <;> simp
@[simp] theorem State.countShotPulse_pt (p : Additive) (c : Channel) (ml : Nat) : (s.countShotPulse p c ml).pt = s.pt := by
  unfold State.countShotPulse
  dsimp only
  (repeat' split) <;> simp
@[simp] theorem State.countShotPulse_ob (p : Additive) (c : Channel) (ml : Nat) : (s.countShotPulse p c ml).ob = s.ob := by
  unfold State.countShotPulse
  dsimp only
  (repeat' split) <;> simp
@[simp] theorem State.countShotPulse_bsc (p : Additive) (c : Channel) (ml : Nat) : (s.countShotPulse p c ml).bsc = s.bsc := by
  unfold State.countShotPulse
  dsimp only
  (repeat' split) <;> simp
@[simp] theorem State.countShotPulse_me (p : Additive) (c : Channel) (ml : Nat) : (s.countShotPulse p c ml).me = s.me := by
  unfold State.countShotPulse
  dsimp only
  (repeat' split) <;> simp
@[simp] theorem State.countShotPulse_fc (p : Additive) (c : Channel) (ml : Nat) : (s.countShotPulse p c ml).fc = s.fc := by
  unfold State.countShotPulse
  dsimp only
  (repeat' split) <;> simp
@[simp] theorem State.countShotPulse_ns (p : Additive) (c : Channel) (ml : Nat) : (s.countShotPulse p c ml).ns = s.ns := by
  unfold State.countShotPulse
  dsimp only
  (repeat' split) <;> simp
@[simp] theorem State.countShotPulse_nvc (p : Additive) (c : Channel) (ml : Nat) : (s.countShotPulse p c ml).nvc = s.nvc := by
  unfold State.countShotPulse
  dsimp only
  (repeat' split) <;> simp
@[simp] theorem State.countShotPulse_pending
    (p : Additive) (c : Channel) (ml : Nat) : (s.countShotPulse p c ml).pending = s.pending := by
  unfold State.countShotPulse
  dsimp only
  (repeat' split) <;> simp

@[simp] theorem State.countLeak_condition (c : Channel) (ml : Nat) : (s.countLeak c ml).condition = s.condition := by unfold State.countLeak; simp
@[simp] theorem State.countLeak_lc (c : Channel) (ml : Nat) : (s.countLeak c ml).lc = s.lc := by unfold State.countLeak; simp
@[simp] theorem State.countLeak_ic (c : Channel) (ml : Nat) : (s.countLeak c ml).ic = s.ic := by unfold State.countLeak; simp
@[simp] theorem State.countLeak_wc (c : Channel) (ml : Nat) : (s.countLeak c ml).wc = s.wc := by unfold State.countLeak; simp
@[simp] theorem State.countLeak_pt (c : Channel) (ml : Nat) : (s.countLeak c ml).pt = s.pt := by unfold State.countLeak; simp
@[simp] theorem State.countLeak_ob (c : Channel) (ml : Nat) : (s.countLeak c ml).ob = s.ob := by unfold State.countLeak; simp
@[simp] theorem State.countLeak_bsc (c : Channel) (ml : Nat) : (s.countLeak c ml).bsc = s.bsc := by unfold State.countLeak; simp
@[simp] theorem State.countLeak_me (c : Channel) (ml : Nat) : (s.countLeak c ml).me = s.me := by unfold State.countLeak; simp
@[simp] theorem State.countLeak_fc (c : Channel) (ml : Nat) : (s.countLeak c ml).fc = s.fc := by unfold State.countLeak; simp
@[simp] theorem State.countLeak_running (c : Channel) (ml : Nat) : (s.countLeak c ml).running = s.running := by unfold State.countLeak; simp
@[simp] theorem State.countLeak_ns (c : Channel) (ml : Nat) : (s.countLeak c ml).ns = s.ns := by unfold State.countLeak; simp
@[simp] theorem State.countLeak_nvc (c : Channel) (ml : Nat) : (s.countLeak c ml).nvc = s.nvc := by unfold State.countLeak; simp
@[simp] theorem State.countLeak_pending (c : Channel) (ml : Nat) : (s.countLeak c ml).pending = s.pending := by unfold State.countLeak; simp

@[simp] theorem State.takePulse_condition (c : Channel) : (s.takePulse c).condition = s.condition := by
  unfold State.takePulse
  dsimp only
  (repeat' split) <;> simp
@[simp] theorem State.takePulse_ic (c : Channel) : (s.takePulse c).ic = s.ic := by
  unfold State.takePulse
  dsimp only
  (repeat' split) <;> simp
@[simp] theorem State.takePulse_pt (c : Channel) : (s.takePulse c).pt = s.pt := by
  unfold State.takePulse
  dsimp only
  (repeat' split) <;> simp
@[simp] theorem State.takePulse_ob (c : Channel) : (s.takePulse c).ob = s.ob := by
  unfold State.takePulse
  dsimp only
  (repeat' split) <;> simp
@[simp] theorem State.takePulse_me (c : Channel) : (s.takePulse c).me = s.me := by
  unfold State.takePulse
  dsimp only
  (repeat' split) <;> simp
@[simp] theorem State.takePulse_ns (c : Channel) : (s.takePulse c).ns = s.ns := by
  unfold State.takePulse
  dsimp only
  (repeat' split) <;> simp
@[simp] theorem State.takePulse_nvc (c : Channel) : (s.takePulse c).nvc = s.nvc := by
  unfold State.takePulse
  dsimp only
  (repeat' split) <;> simp
@[simp] theorem State.takePulse_pending (c : Channel) : (s.takePulse c).pending = s.pending := by
  unfold State.takePulse
  dsimp only
  (repeat' split) <;> simp

@[simp] theorem State.shotShort_condition (p : Additive) : (s.shotShort p).condition = s.condition := by
  unfold State.shotShort
  dsimp only
  (repeat' split) <;> simp
@[simp] theorem State.shotShort_ic (p : Additive) : (s.shotShort p).ic = s.ic := by
  unfold State.shotShort
  dsimp only
  (repeat' split) <;> simp
@[simp] theorem State.shotShort_wc (p : Additive) : (s.shotShort p).wc = s.wc := by
  unfold State.shotShort
  dsimp only
  (repeat' split) <;> simp
@[simp] theorem State.shotShort_pt (p : Additive) : (s.shotShort p).pt = s.pt := by
  unfold State.shotShort
  dsimp only
  (repeat' split) <;> simp
@[simp] theorem State.shotShort_ob (p : Additive) : (s.shotShort p).ob = s.ob := by
  unfold State.shotShort
  dsimp only
  (repeat' split) <;> simp
@[simp] theorem State.shotShort_me (p : Additive) : (s.shotShort p).me = s.me := by
  unfold State.shotShort
  dsimp only
  (repeat' split) <;> simp
@[simp] theorem State.shotShort_ns (p : Additive) : (s.shotShort p).ns = s.ns := by
  unfold State.shotShort
  dsimp only
  (repeat' split) <;> simp
@[simp] theorem State.shotShort_nvc (p : Additive) : (s.shotShort p).nvc = s.nvc := by
  unfold State.shotShort
  dsimp only
  (repeat' split) <;> simp
@[simp] theorem State.shotShort_pending (p : Additive) : (s.shotShort p).pending = s.pending := by
  unfold State.shotShort
  dsimp only
  (repeat' split) <;> simp

@[simp] theorem State.serveLines_condition (i : Nat) (xs : List LineRecord) : (s.serveLines i xs).condition = s.condition := by
  induction xs generalizing s i with
  | nil => rfl
  | cons x xs ih => rw [State.serveLines, ih]; simp
@[simp] theorem State.serveLines_lc (i : Nat) (xs : List LineRecord) : (s.serveLines i xs).lc = s.lc := by
  induction xs generalizing s i with
  | nil => rfl
  | cons x xs ih => rw [State.serveLines, ih]; simp
@[simp] theorem State.serveLines_ic (i : Nat) (xs : List LineRecord) : (s.serveLines i xs).ic = s.ic := by
  induction xs generalizing s i with
  | nil => rfl
  | cons x xs ih => rw [State.serveLines, ih]; simp
@[simp] theorem State.serveLines_wc (i : Nat) (xs : List LineRecord) : (s.serveLines i xs).wc = s.wc := by
  induction xs generalizing s i with
  | nil => rfl
  | cons x xs ih => rw [State.serveLines, ih]; simp
@[simp] theorem State.serveLines_pt (i : Nat) (xs : List LineRecord) : (s.serveLines i xs).pt = s.pt := by
  induction xs generalizing s i with
  | nil => rfl
  | cons x xs ih => rw [State.serveLines, ih]; simp
@[simp] theorem State.serveLines_ob (i : Nat) (xs : List LineRecord) : (s.serveLines i xs).ob = s.ob := by
  induction xs generalizing s i with
  | nil => rfl
  | cons x xs ih => rw [State.serveLines, ih]; simp
@[simp] theorem State.serveLines_bsc (i : Nat) (xs : List LineRecord) : (s.serveLines i xs).bsc = s.bsc := by
  induction xs generalizing s i with
  | nil => rfl
  | cons x xs ih => rw [State.serveLines, ih]; simp
@[simp] theorem State.serveLines_me (i : Nat) (xs : List LineRecord) : (s.serveLines i xs).me = s.me := by
  induction xs generalizing s i with
  | nil => rfl
  | cons x xs ih => rw [State.serveLines, ih]; simp
@[simp] theorem State.serveLines_fc (i : Nat) (xs : List LineRecord) : (s.serveLines i xs).fc = s.fc := by
  induction xs generalizing s i with
  | nil => rfl
  | cons x xs ih => rw [State.serveLines, ih]; simp
@[simp] theorem State.serveLines_running (i : Nat) (xs : List LineRecord) : (s.serveLines i xs).running = s.running := by
  induction xs generalizing s i with
  | nil => rfl
  | cons x xs ih => rw [State.serveLines, ih]; simp
@[simp] theorem State.serveLines_ns (i : Nat) (xs : List LineRecord) : (s.serveLines i xs).ns = s.ns := by
  induction xs generalizing s i with
  | nil => rfl
  | cons x xs ih => rw [State.serveLines, ih]; simp
@[simp] theorem State.serveLines_nvc (i : Nat) (xs : List LineRecord) : (s.serveLines i xs).nvc = s.nvc := by
  induction xs generalizing s i with
  | nil => rfl
  | cons x xs ih => rw [State.serveLines, ih]; simp
@[simp] theorem State.serveLines_pending (i : Nat) (xs : List LineRecord) : (s.serveLines i xs).pending = s.pending := by
  induction xs generalizing s i with
  | nil => rfl
  | cons x xs ih => rw [State.serveLines, ih]; simp

@[simp] theorem State.releaseLines_condition (a : Arm) : (s.releaseLines a).condition = s.condition := by unfold State.releaseLines; simp
@[simp] theorem State.releaseLines_lc (a : Arm) : (s.releaseLines a).lc = s.lc := by unfold State.releaseLines; simp
@[simp] theorem State.releaseLines_ic (a : Arm) : (s.releaseLines a).ic = s.ic := by unfold State.releaseLines; simp
@[simp] theorem State.releaseLines_wc (a : Arm) : (s.releaseLines a).wc = s.wc := by unfold State.releaseLines; simp
@[simp] theorem State.releaseLines_pt (a : Arm) : (s.releaseLines a).pt = s.pt := by unfold State.releaseLines; simp
@[simp] theorem State.releaseLines_ob (a : Arm) : (s.releaseLines a).ob = s.ob := by unfold State.releaseLines; simp
@[simp] theorem State.releaseLines_bsc (a : Arm) : (s.releaseLines a).bsc = s.bsc := by unfold State.releaseLines; simp
@[simp] theorem State.releaseLines_me (a : Arm) : (s.releaseLines a).me = s.me := by unfold State.releaseLines; simp
@[simp] theorem State.releaseLines_fc (a : Arm) : (s.releaseLines a).fc = s.fc := by unfold State.releaseLines; simp
@[simp] theorem State.releaseLines_running (a : Arm) : (s.releaseLines a).running = s.running := by unfold State.releaseLines; simp
@[simp] theorem State.releaseLines_ns (a : Arm) : (s.releaseLines a).ns = s.ns := by unfold State.releaseLines; simp
@[simp] theorem State.releaseLines_nvc (a : Arm) : (s.releaseLines a).nvc = s.nvc := by unfold State.releaseLines; simp
@[simp] theorem State.releaseLines_pending (a : Arm) : (s.releaseLines a).pending = s.pending := by unfold State.releaseLines; simp

@[simp] theorem State.modifyOrder_condition (n : Nat) (f : Order → Order) : (s.modifyOrder n f).condition = s.condition := by
  unfold State.modifyOrder
  (repeat' split) <;> simp
@[simp] theorem State.modifyOrder_lc (n : Nat) (f : Order → Order) : (s.modifyOrder n f).lc = s.lc := by
  unfold State.modifyOrder
  (repeat' split) <;> simp
@[simp] theorem State.modifyOrder_ic (n : Nat) (f : Order → Order) : (s.modifyOrder n f).ic = s.ic := by
  unfold State.modifyOrder
  (repeat' split) <;> simp
@[simp] theorem State.modifyOrder_wc (n : Nat) (f : Order → Order) : (s.modifyOrder n f).wc = s.wc := by
  unfold State.modifyOrder
  (repeat' split) <;> simp
@[simp] theorem State.modifyOrder_pt (n : Nat) (f : Order → Order) : (s.modifyOrder n f).pt = s.pt := by
  unfold State.modifyOrder
  (repeat' split) <;> simp
@[simp] theorem State.modifyOrder_bsc (n : Nat) (f : Order → Order) : (s.modifyOrder n f).bsc = s.bsc := by
  unfold State.modifyOrder
  (repeat' split) <;> simp
@[simp] theorem State.modifyOrder_me (n : Nat) (f : Order → Order) : (s.modifyOrder n f).me = s.me := by
  unfold State.modifyOrder
  (repeat' split) <;> simp
@[simp] theorem State.modifyOrder_fc (n : Nat) (f : Order → Order) : (s.modifyOrder n f).fc = s.fc := by
  unfold State.modifyOrder
  (repeat' split) <;> simp
@[simp] theorem State.modifyOrder_running (n : Nat) (f : Order → Order) : (s.modifyOrder n f).running = s.running := by
  unfold State.modifyOrder
  (repeat' split) <;> simp
@[simp] theorem State.modifyOrder_adu (n : Nat) (f : Order → Order) : (s.modifyOrder n f).adu = s.adu := by
  unfold State.modifyOrder
  (repeat' split) <;> simp
@[simp] theorem State.modifyOrder_ns (n : Nat) (f : Order → Order) : (s.modifyOrder n f).ns = s.ns := by
  unfold State.modifyOrder
  (repeat' split) <;> simp
@[simp] theorem State.modifyOrder_nvc (n : Nat) (f : Order → Order) : (s.modifyOrder n f).nvc = s.nvc := by
  unfold State.modifyOrder
  (repeat' split) <;> simp
@[simp] theorem State.modifyOrder_pending (n : Nat) (f : Order → Order) : (s.modifyOrder n f).pending = s.pending := by
  unfold State.modifyOrder
  (repeat' split) <;> simp

@[simp] theorem State.moveBay_condition (b : Bay) (st : BayStatus) : (s.moveBay b st).condition = s.condition := by
  unfold State.moveBay
  (repeat' split) <;> simp
@[simp] theorem State.moveBay_ic (b : Bay) (st : BayStatus) : (s.moveBay b st).ic = s.ic := by
  unfold State.moveBay
  (repeat' split) <;> simp
@[simp] theorem State.moveBay_wc (b : Bay) (st : BayStatus) : (s.moveBay b st).wc = s.wc := by
  unfold State.moveBay
  (repeat' split) <;> simp
@[simp] theorem State.moveBay_pt (b : Bay) (st : BayStatus) : (s.moveBay b st).pt = s.pt := by
  unfold State.moveBay
  (repeat' split) <;> simp
@[simp] theorem State.moveBay_ob (b : Bay) (st : BayStatus) : (s.moveBay b st).ob = s.ob := by
  unfold State.moveBay
  (repeat' split) <;> simp
@[simp] theorem State.moveBay_me (b : Bay) (st : BayStatus) : (s.moveBay b st).me = s.me := by
  unfold State.moveBay
  (repeat' split) <;> simp
@[simp] theorem State.moveBay_fc (b : Bay) (st : BayStatus) : (s.moveBay b st).fc = s.fc := by
  unfold State.moveBay
  (repeat' split) <;> simp
@[simp] theorem State.moveBay_running (b : Bay) (st : BayStatus) : (s.moveBay b st).running = s.running := by
  unfold State.moveBay
  (repeat' split) <;> simp
@[simp] theorem State.moveBay_adu (b : Bay) (st : BayStatus) : (s.moveBay b st).adu = s.adu := by
  unfold State.moveBay
  (repeat' split) <;> simp
@[simp] theorem State.moveBay_ns (b : Bay) (st : BayStatus) : (s.moveBay b st).ns = s.ns := by
  unfold State.moveBay
  (repeat' split) <;> simp
@[simp] theorem State.moveBay_nvc (b : Bay) (st : BayStatus) : (s.moveBay b st).nvc = s.nvc := by
  unfold State.moveBay
  (repeat' split) <;> simp
@[simp] theorem State.moveBay_pending (b : Bay) (st : BayStatus) : (s.moveBay b st).pending = s.pending := by
  unfold State.moveBay
  (repeat' split) <;> simp

@[simp] theorem State.refreshInactivity_condition (b : Bay) : (s.refreshInactivity b).condition = s.condition := by
  unfold State.refreshInactivity
  dsimp only
  (repeat' split) <;> simp
@[simp] theorem State.refreshInactivity_lc (b : Bay) : (s.refreshInactivity b).lc = s.lc := by
  unfold State.refreshInactivity
  dsimp only
  (repeat' split) <;> simp
@[simp] theorem State.refreshInactivity_ic (b : Bay) : (s.refreshInactivity b).ic = s.ic := by
  unfold State.refreshInactivity
  dsimp only
  (repeat' split) <;> simp
@[simp] theorem State.refreshInactivity_wc (b : Bay) : (s.refreshInactivity b).wc = s.wc := by
  unfold State.refreshInactivity
  dsimp only
  (repeat' split) <;> simp
@[simp] theorem State.refreshInactivity_pt (b : Bay) : (s.refreshInactivity b).pt = s.pt := by
  unfold State.refreshInactivity
  dsimp only
  (repeat' split) <;> simp
@[simp] theorem State.refreshInactivity_ob (b : Bay) : (s.refreshInactivity b).ob = s.ob := by
  unfold State.refreshInactivity
  dsimp only
  (repeat' split) <;> simp
@[simp] theorem State.refreshInactivity_me (b : Bay) : (s.refreshInactivity b).me = s.me := by
  unfold State.refreshInactivity
  dsimp only
  (repeat' split) <;> simp
@[simp] theorem State.refreshInactivity_fc (b : Bay) : (s.refreshInactivity b).fc = s.fc := by
  unfold State.refreshInactivity
  dsimp only
  (repeat' split) <;> simp
@[simp] theorem State.refreshInactivity_running (b : Bay) : (s.refreshInactivity b).running = s.running := by
  unfold State.refreshInactivity
  dsimp only
  (repeat' split) <;> simp
@[simp] theorem State.refreshInactivity_adu (b : Bay) : (s.refreshInactivity b).adu = s.adu := by
  unfold State.refreshInactivity
  dsimp only
  (repeat' split) <;> simp
@[simp] theorem State.refreshInactivity_ns (b : Bay) : (s.refreshInactivity b).ns = s.ns := by
  unfold State.refreshInactivity
  dsimp only
  (repeat' split) <;> simp
@[simp] theorem State.refreshInactivity_nvc (b : Bay) : (s.refreshInactivity b).nvc = s.nvc := by
  unfold State.refreshInactivity
  dsimp only
  (repeat' split) <;> simp
@[simp] theorem State.refreshInactivity_pending (b : Bay) : (s.refreshInactivity b).pending = s.pending := by
  unfold State.refreshInactivity
  dsimp only
  (repeat' split) <;> simp

@[simp] theorem State.resetSelection_condition (b : Bay) (l : Link) : (s.resetSelection b l).condition = s.condition := by unfold State.resetSelection; simp
@[simp] theorem State.resetSelection_ic (b : Bay) (l : Link) : (s.resetSelection b l).ic = s.ic := by unfold State.resetSelection; simp
@[simp] theorem State.resetSelection_wc (b : Bay) (l : Link) : (s.resetSelection b l).wc = s.wc := by unfold State.resetSelection; simp
@[simp] theorem State.resetSelection_pt (b : Bay) (l : Link) : (s.resetSelection b l).pt = s.pt := by unfold State.resetSelection; simp
@[simp] theorem State.resetSelection_ob (b : Bay) (l : Link) : (s.resetSelection b l).ob = s.ob := by unfold State.resetSelection; simp
@[simp] theorem State.resetSelection_me (b : Bay) (l : Link) : (s.resetSelection b l).me = s.me := by unfold State.resetSelection; simp
@[simp] theorem State.resetSelection_fc (b : Bay) (l : Link) : (s.resetSelection b l).fc = s.fc := by unfold State.resetSelection; simp
@[simp] theorem State.resetSelection_running (b : Bay) (l : Link) : (s.resetSelection b l).running = s.running := by unfold State.resetSelection; simp
@[simp] theorem State.resetSelection_adu (b : Bay) (l : Link) : (s.resetSelection b l).adu = s.adu := by unfold State.resetSelection; simp
@[simp] theorem State.resetSelection_ns (b : Bay) (l : Link) : (s.resetSelection b l).ns = s.ns := by unfold State.resetSelection; simp
@[simp] theorem State.resetSelection_nvc (b : Bay) (l : Link) : (s.resetSelection b l).nvc = s.nvc := by unfold State.resetSelection; simp
@[simp] theorem State.resetSelection_pending (b : Bay) (l : Link) : (s.resetSelection b l).pending = s.pending := by unfold State.resetSelection; simp

@[simp] theorem State.unbind_condition (b : Bay) : (s.unbind b).condition = s.condition := by
  unfold State.unbind
  (repeat' split) <;> simp
@[simp] theorem State.unbind_lc (b : Bay) : (s.unbind b).lc = s.lc := by
  unfold State.unbind
  (repeat' split) <;> simp
@[simp] theorem State.unbind_ic (b : Bay) : (s.unbind b).ic = s.ic := by
  unfold State.unbind
  (repeat' split) <;> simp
@[simp] theorem State.unbind_wc (b : Bay) : (s.unbind b).wc = s.wc := by
  unfold State.unbind
  (repeat' split) <;> simp
@[simp] theorem State.unbind_ob (b : Bay) : (s.unbind b).ob = s.ob := by
  unfold State.unbind
  (repeat' split) <;> simp
@[simp] theorem State.unbind_me (b : Bay) : (s.unbind b).me = s.me := by
  unfold State.unbind
  (repeat' split) <;> simp
@[simp] theorem State.unbind_fc (b : Bay) : (s.unbind b).fc = s.fc := by
  unfold State.unbind
  (repeat' split) <;> simp
@[simp] theorem State.unbind_running (b : Bay) : (s.unbind b).running = s.running := by
  unfold State.unbind
  (repeat' split) <;> simp
@[simp] theorem State.unbind_adu (b : Bay) : (s.unbind b).adu = s.adu := by
  unfold State.unbind
  (repeat' split) <;> simp
@[simp] theorem State.unbind_ns (b : Bay) : (s.unbind b).ns = s.ns := by
  unfold State.unbind
  (repeat' split) <;> simp
@[simp] theorem State.unbind_nvc (b : Bay) : (s.unbind b).nvc = s.nvc := by
  unfold State.unbind
  (repeat' split) <;> simp
@[simp] theorem State.unbind_pending (b : Bay) : (s.unbind b).pending = s.pending := by
  unfold State.unbind
  (repeat' split) <;> simp

@[simp] theorem State.releaseOrder_condition (b : Bay) : (s.releaseOrder b).condition = s.condition := by
  unfold State.releaseOrder
  (repeat' split) <;> simp
@[simp] theorem State.releaseOrder_lc (b : Bay) : (s.releaseOrder b).lc = s.lc := by
  unfold State.releaseOrder
  (repeat' split) <;> simp
@[simp] theorem State.releaseOrder_ic (b : Bay) : (s.releaseOrder b).ic = s.ic := by
  unfold State.releaseOrder
  (repeat' split) <;> simp
@[simp] theorem State.releaseOrder_wc (b : Bay) : (s.releaseOrder b).wc = s.wc := by
  unfold State.releaseOrder
  (repeat' split) <;> simp
@[simp] theorem State.releaseOrder_pt (b : Bay) : (s.releaseOrder b).pt = s.pt := by
  unfold State.releaseOrder
  (repeat' split) <;> simp
@[simp] theorem State.releaseOrder_me (b : Bay) : (s.releaseOrder b).me = s.me := by
  unfold State.releaseOrder
  (repeat' split) <;> simp
@[simp] theorem State.releaseOrder_fc (b : Bay) : (s.releaseOrder b).fc = s.fc := by
  unfold State.releaseOrder
  (repeat' split) <;> simp
@[simp] theorem State.releaseOrder_running (b : Bay) : (s.releaseOrder b).running = s.running := by
  unfold State.releaseOrder
  (repeat' split) <;> simp
@[simp] theorem State.releaseOrder_adu (b : Bay) : (s.releaseOrder b).adu = s.adu := by
  unfold State.releaseOrder
  (repeat' split) <;> simp
@[simp] theorem State.releaseOrder_ns (b : Bay) : (s.releaseOrder b).ns = s.ns := by
  unfold State.releaseOrder
  (repeat' split) <;> simp
@[simp] theorem State.releaseOrder_nvc (b : Bay) : (s.releaseOrder b).nvc = s.nvc := by
  unfold State.releaseOrder
  (repeat' split) <;> simp
@[simp] theorem State.releaseOrder_pending (b : Bay) : (s.releaseOrder b).pending = s.pending := by
  unfold State.releaseOrder
  (repeat' split) <;> simp

@[simp] theorem State.closeSession_condition
    (b : Bay) (dest : BayStatus) : (s.closeSession b dest).condition = s.condition := by unfold State.closeSession; simp
@[simp] theorem State.closeSession_ic (b : Bay) (dest : BayStatus) : (s.closeSession b dest).ic = s.ic := by unfold State.closeSession; simp
@[simp] theorem State.closeSession_wc (b : Bay) (dest : BayStatus) : (s.closeSession b dest).wc = s.wc := by unfold State.closeSession; simp
@[simp] theorem State.closeSession_me (b : Bay) (dest : BayStatus) : (s.closeSession b dest).me = s.me := by unfold State.closeSession; simp
@[simp] theorem State.closeSession_fc (b : Bay) (dest : BayStatus) : (s.closeSession b dest).fc = s.fc := by unfold State.closeSession; simp
@[simp] theorem State.closeSession_running (b : Bay) (dest : BayStatus) : (s.closeSession b dest).running = s.running := by unfold State.closeSession; simp
@[simp] theorem State.closeSession_adu (b : Bay) (dest : BayStatus) : (s.closeSession b dest).adu = s.adu := by unfold State.closeSession; simp
@[simp] theorem State.closeSession_ns (b : Bay) (dest : BayStatus) : (s.closeSession b dest).ns = s.ns := by unfold State.closeSession; simp
@[simp] theorem State.closeSession_nvc (b : Bay) (dest : BayStatus) : (s.closeSession b dest).nvc = s.nvc := by unfold State.closeSession; simp
@[simp] theorem State.closeSession_pending (b : Bay) (dest : BayStatus) : (s.closeSession b dest).pending = s.pending := by unfold State.closeSession; simp

@[simp] theorem State.dropOrder_condition (b : Bay) : (s.dropOrder b).condition = s.condition := by unfold State.dropOrder; simp
@[simp] theorem State.dropOrder_lc (b : Bay) : (s.dropOrder b).lc = s.lc := by unfold State.dropOrder; simp
@[simp] theorem State.dropOrder_ic (b : Bay) : (s.dropOrder b).ic = s.ic := by unfold State.dropOrder; simp
@[simp] theorem State.dropOrder_wc (b : Bay) : (s.dropOrder b).wc = s.wc := by unfold State.dropOrder; simp
@[simp] theorem State.dropOrder_pt (b : Bay) : (s.dropOrder b).pt = s.pt := by unfold State.dropOrder; simp
@[simp] theorem State.dropOrder_ob (b : Bay) : (s.dropOrder b).ob = s.ob := by unfold State.dropOrder; simp
@[simp] theorem State.dropOrder_me (b : Bay) : (s.dropOrder b).me = s.me := by unfold State.dropOrder; simp
@[simp] theorem State.dropOrder_fc (b : Bay) : (s.dropOrder b).fc = s.fc := by unfold State.dropOrder; simp
@[simp] theorem State.dropOrder_running (b : Bay) : (s.dropOrder b).running = s.running := by unfold State.dropOrder; simp
@[simp] theorem State.dropOrder_adu (b : Bay) : (s.dropOrder b).adu = s.adu := by unfold State.dropOrder; simp
@[simp] theorem State.dropOrder_ns (b : Bay) : (s.dropOrder b).ns = s.ns := by unfold State.dropOrder; simp
@[simp] theorem State.dropOrder_nvc (b : Bay) : (s.dropOrder b).nvc = s.nvc := by unfold State.dropOrder; simp
@[simp] theorem State.dropOrder_pending (b : Bay) : (s.dropOrder b).pending = s.pending := by unfold State.dropOrder; simp

@[simp] theorem State.abandonIdent_condition (b : Bay) : (s.abandonIdent b).condition = s.condition := by unfold State.abandonIdent; simp
@[simp] theorem State.abandonIdent_ic (b : Bay) : (s.abandonIdent b).ic = s.ic := by unfold State.abandonIdent; simp
@[simp] theorem State.abandonIdent_wc (b : Bay) : (s.abandonIdent b).wc = s.wc := by unfold State.abandonIdent; simp
@[simp] theorem State.abandonIdent_ob (b : Bay) : (s.abandonIdent b).ob = s.ob := by unfold State.abandonIdent; simp
@[simp] theorem State.abandonIdent_me (b : Bay) : (s.abandonIdent b).me = s.me := by unfold State.abandonIdent; simp
@[simp] theorem State.abandonIdent_fc (b : Bay) : (s.abandonIdent b).fc = s.fc := by unfold State.abandonIdent; simp
@[simp] theorem State.abandonIdent_running (b : Bay) : (s.abandonIdent b).running = s.running := by unfold State.abandonIdent; simp
@[simp] theorem State.abandonIdent_adu (b : Bay) : (s.abandonIdent b).adu = s.adu := by unfold State.abandonIdent; simp
@[simp] theorem State.abandonIdent_ns (b : Bay) : (s.abandonIdent b).ns = s.ns := by unfold State.abandonIdent; simp
@[simp] theorem State.abandonIdent_nvc (b : Bay) : (s.abandonIdent b).nvc = s.nvc := by unfold State.abandonIdent; simp
@[simp] theorem State.abandonIdent_pending (b : Bay) : (s.abandonIdent b).pending = s.pending := by unfold State.abandonIdent; simp

@[simp] theorem State.addNote_condition (a : Arm) (n : NoteRecord) : (s.addNote a n).condition = s.condition := by
  unfold State.addNote
  dsimp only
  (repeat' split) <;> simp
@[simp] theorem State.addNote_ic (a : Arm) (n : NoteRecord) : (s.addNote a n).ic = s.ic := by
  unfold State.addNote
  dsimp only
  (repeat' split) <;> simp
@[simp] theorem State.addNote_pt (a : Arm) (n : NoteRecord) : (s.addNote a n).pt = s.pt := by
  unfold State.addNote
  dsimp only
  (repeat' split) <;> simp
@[simp] theorem State.addNote_ob (a : Arm) (n : NoteRecord) : (s.addNote a n).ob = s.ob := by
  unfold State.addNote
  dsimp only
  (repeat' split) <;> simp
@[simp] theorem State.addNote_bsc (a : Arm) (n : NoteRecord) : (s.addNote a n).bsc = s.bsc := by
  unfold State.addNote
  dsimp only
  (repeat' split) <;> simp
@[simp] theorem State.addNote_fc (a : Arm) (n : NoteRecord) : (s.addNote a n).fc = s.fc := by
  unfold State.addNote
  dsimp only
  (repeat' split) <;> simp
@[simp] theorem State.addNote_running (a : Arm) (n : NoteRecord) : (s.addNote a n).running = s.running := by
  unfold State.addNote
  dsimp only
  (repeat' split) <;> simp
@[simp] theorem State.addNote_adu (a : Arm) (n : NoteRecord) : (s.addNote a n).adu = s.adu := by
  unfold State.addNote
  dsimp only
  (repeat' split) <;> simp
@[simp] theorem State.addNote_pending (a : Arm) (n : NoteRecord) : (s.addNote a n).pending = s.pending := by
  unfold State.addNote
  dsimp only
  (repeat' split) <;> simp

@[simp] theorem State.takeCompartment_condition (a : Arm) (r : Running) : (s.takeCompartment a r).condition = s.condition := by
  unfold State.takeCompartment
  dsimp only
  (repeat' split) <;> simp
@[simp] theorem State.takeCompartment_ic (a : Arm) (r : Running) : (s.takeCompartment a r).ic = s.ic := by
  unfold State.takeCompartment
  dsimp only
  (repeat' split) <;> simp
@[simp] theorem State.takeCompartment_pt (a : Arm) (r : Running) : (s.takeCompartment a r).pt = s.pt := by
  unfold State.takeCompartment
  dsimp only
  (repeat' split) <;> simp
@[simp] theorem State.takeCompartment_bsc (a : Arm) (r : Running) : (s.takeCompartment a r).bsc = s.bsc := by
  unfold State.takeCompartment
  dsimp only
  (repeat' split) <;> simp
@[simp] theorem State.takeCompartment_fc (a : Arm) (r : Running) : (s.takeCompartment a r).fc = s.fc := by
  unfold State.takeCompartment
  dsimp only
  (repeat' split) <;> simp
@[simp] theorem State.takeCompartment_running (a : Arm) (r : Running) : (s.takeCompartment a r).running = s.running := by
  unfold State.takeCompartment
  dsimp only
  (repeat' split) <;> simp
@[simp] theorem State.takeCompartment_adu (a : Arm) (r : Running) : (s.takeCompartment a r).adu = s.adu := by
  unfold State.takeCompartment
  dsimp only
  (repeat' split) <;> simp
@[simp] theorem State.takeCompartment_pending (a : Arm) (r : Running) : (s.takeCompartment a r).pending = s.pending := by
  unfold State.takeCompartment
  dsimp only
  (repeat' split) <;> simp

@[simp] theorem State.armToIdle_condition (a : Arm) : (s.armToIdle a).condition = s.condition := by unfold State.armToIdle; simp
@[simp] theorem State.armToIdle_lc (a : Arm) : (s.armToIdle a).lc = s.lc := by unfold State.armToIdle; simp
@[simp] theorem State.armToIdle_ic (a : Arm) : (s.armToIdle a).ic = s.ic := by unfold State.armToIdle; simp
@[simp] theorem State.armToIdle_wc (a : Arm) : (s.armToIdle a).wc = s.wc := by unfold State.armToIdle; simp
@[simp] theorem State.armToIdle_pt (a : Arm) : (s.armToIdle a).pt = s.pt := by unfold State.armToIdle; simp
@[simp] theorem State.armToIdle_ob (a : Arm) : (s.armToIdle a).ob = s.ob := by unfold State.armToIdle; simp
@[simp] theorem State.armToIdle_bsc (a : Arm) : (s.armToIdle a).bsc = s.bsc := by unfold State.armToIdle; simp
@[simp] theorem State.armToIdle_me (a : Arm) : (s.armToIdle a).me = s.me := by unfold State.armToIdle; simp
@[simp] theorem State.armToIdle_nvc (a : Arm) : (s.armToIdle a).nvc = s.nvc := by unfold State.armToIdle; simp
@[simp] theorem State.armToIdle_pending (a : Arm) : (s.armToIdle a).pending = s.pending := by unfold State.armToIdle; simp

@[simp] theorem State.completeCancellation_condition (n : Nat) : (s.completeCancellation n).condition = s.condition := by
  unfold State.completeCancellation
  dsimp only
  (repeat' split) <;> simp
@[simp] theorem State.completeCancellation_ic (n : Nat) : (s.completeCancellation n).ic = s.ic := by
  unfold State.completeCancellation
  dsimp only
  (repeat' split) <;> simp
@[simp] theorem State.completeCancellation_wc (n : Nat) : (s.completeCancellation n).wc = s.wc := by
  unfold State.completeCancellation
  dsimp only
  (repeat' split) <;> simp
@[simp] theorem State.completeCancellation_pt (n : Nat) : (s.completeCancellation n).pt = s.pt := by
  unfold State.completeCancellation
  dsimp only
  (repeat' split) <;> simp
@[simp] theorem State.completeCancellation_me (n : Nat) : (s.completeCancellation n).me = s.me := by
  unfold State.completeCancellation
  dsimp only
  (repeat' split) <;> simp
@[simp] theorem State.completeCancellation_fc (n : Nat) : (s.completeCancellation n).fc = s.fc := by
  unfold State.completeCancellation
  dsimp only
  (repeat' split) <;> simp
@[simp] theorem State.completeCancellation_running (n : Nat) : (s.completeCancellation n).running = s.running := by
  unfold State.completeCancellation
  dsimp only
  (repeat' split) <;> simp
@[simp] theorem State.completeCancellation_adu (n : Nat) : (s.completeCancellation n).adu = s.adu := by
  unfold State.completeCancellation
  dsimp only
  (repeat' split) <;> simp
@[simp] theorem State.completeCancellation_ns (n : Nat) : (s.completeCancellation n).ns = s.ns := by
  unfold State.completeCancellation
  dsimp only
  (repeat' split) <;> simp
@[simp] theorem State.completeCancellation_nvc (n : Nat) : (s.completeCancellation n).nvc = s.nvc := by
  unfold State.completeCancellation
  dsimp only
  (repeat' split) <;> simp
@[simp] theorem State.completeCancellation_pending (n : Nat) : (s.completeCancellation n).pending = s.pending := by
  unfold State.completeCancellation
  dsimp only
  (repeat' split) <;> simp

@[simp] theorem State.armReachedIdle_condition (b : Bay) : (s.armReachedIdle b).condition = s.condition := by
  unfold State.armReachedIdle
  (repeat' split) <;> simp
@[simp] theorem State.armReachedIdle_ic (b : Bay) : (s.armReachedIdle b).ic = s.ic := by
  unfold State.armReachedIdle
  (repeat' split) <;> simp
@[simp] theorem State.armReachedIdle_wc (b : Bay) : (s.armReachedIdle b).wc = s.wc := by
  unfold State.armReachedIdle
  (repeat' split) <;> simp
@[simp] theorem State.armReachedIdle_me (b : Bay) : (s.armReachedIdle b).me = s.me := by
  unfold State.armReachedIdle
  (repeat' split) <;> simp
@[simp] theorem State.armReachedIdle_fc (b : Bay) : (s.armReachedIdle b).fc = s.fc := by
  unfold State.armReachedIdle
  (repeat' split) <;> simp
@[simp] theorem State.armReachedIdle_running (b : Bay) : (s.armReachedIdle b).running = s.running := by
  unfold State.armReachedIdle
  (repeat' split) <;> simp
@[simp] theorem State.armReachedIdle_adu (b : Bay) : (s.armReachedIdle b).adu = s.adu := by
  unfold State.armReachedIdle
  (repeat' split) <;> simp
@[simp] theorem State.armReachedIdle_ns (b : Bay) : (s.armReachedIdle b).ns = s.ns := by
  unfold State.armReachedIdle
  (repeat' split) <;> simp
@[simp] theorem State.armReachedIdle_nvc (b : Bay) : (s.armReachedIdle b).nvc = s.nvc := by
  unfold State.armReachedIdle
  (repeat' split) <;> simp
@[simp] theorem State.armReachedIdle_pending (b : Bay) : (s.armReachedIdle b).pending = s.pending := by
  unfold State.armReachedIdle
  (repeat' split) <;> simp

@[simp] theorem State.handOver_condition (a : Arm) : (s.handOver a).condition = s.condition := by
  unfold State.handOver
  dsimp only
  (repeat' split) <;> simp
@[simp] theorem State.handOver_ic (a : Arm) : (s.handOver a).ic = s.ic := by
  unfold State.handOver
  dsimp only
  (repeat' split) <;> simp
@[simp] theorem State.handOver_pending (a : Arm) : (s.handOver a).pending = s.pending := by
  unfold State.handOver
  dsimp only
  (repeat' split) <;> simp

@[simp] theorem State.respond_condition
    (l : Link) (r : Request) (x : ResultCode) (p : List Byte) : (s.respond l r x p).condition = s.condition := by unfold State.respond; simp
@[simp] theorem State.respond_ic (l : Link) (r : Request) (x : ResultCode) (p : List Byte) : (s.respond l r x p).ic = s.ic := by unfold State.respond; simp
@[simp] theorem State.respond_wc (l : Link) (r : Request) (x : ResultCode) (p : List Byte) : (s.respond l r x p).wc = s.wc := by unfold State.respond; simp
@[simp] theorem State.respond_pt (l : Link) (r : Request) (x : ResultCode) (p : List Byte) : (s.respond l r x p).pt = s.pt := by unfold State.respond; simp
@[simp] theorem State.respond_ob (l : Link) (r : Request) (x : ResultCode) (p : List Byte) : (s.respond l r x p).ob = s.ob := by unfold State.respond; simp
@[simp] theorem State.respond_bsc
    (l : Link) (r : Request) (x : ResultCode) (p : List Byte) : (s.respond l r x p).bsc = s.bsc := by unfold State.respond; simp
@[simp] theorem State.respond_me (l : Link) (r : Request) (x : ResultCode) (p : List Byte) : (s.respond l r x p).me = s.me := by unfold State.respond; simp
@[simp] theorem State.respond_fc (l : Link) (r : Request) (x : ResultCode) (p : List Byte) : (s.respond l r x p).fc = s.fc := by unfold State.respond; simp
@[simp] theorem State.respond_running
    (l : Link) (r : Request) (x : ResultCode) (p : List Byte) : (s.respond l r x p).running = s.running := by unfold State.respond; simp
@[simp] theorem State.respond_adu
    (l : Link) (r : Request) (x : ResultCode) (p : List Byte) : (s.respond l r x p).adu = s.adu := by unfold State.respond; simp
@[simp] theorem State.respond_ns (l : Link) (r : Request) (x : ResultCode) (p : List Byte) : (s.respond l r x p).ns = s.ns := by unfold State.respond; simp
@[simp] theorem State.respond_nvc
    (l : Link) (r : Request) (x : ResultCode) (p : List Byte) : (s.respond l r x p).nvc = s.nvc := by unfold State.respond; simp
@[simp] theorem State.respond_pending
    (l : Link) (r : Request) (x : ResultCode) (p : List Byte) : (s.respond l r x p).pending = s.pending := by unfold State.respond; simp

/-- What freeing hand-overs can do: hand over arms that are free to be. A property that such a hand-over keeps holds after it. -/
theorem State.takeFreed_keeps {s : State} (P : State → Prop) (before : State) (hs : P s)
    (hand : ∀ t a, P t → before.handOverReady a = false → t.handOverReady a = true → P (t.handOver a)) :
    P (s.takeFreed before) := by
  unfold State.takeFreed
  generalize Arm.all = arms
  induction arms generalizing s with
  | nil => exact hs
  | cons a rest ih =>
    rw [List.foldl_cons]
    apply ih
    split
    · rename_i h
      simp only [Bool.and_eq_true, Bool.not_eq_true'] at h
      exact hand s a hs h.1 h.2
    · exact hs

@[simp] theorem State.takeFreed_condition (before : State) : (s.takeFreed before).condition = s.condition :=
  State.takeFreed_keeps (fun t => t.condition = s.condition) before rfl fun t a h _ _ => by simpa using h
@[simp] theorem State.takeFreed_ic (before : State) : (s.takeFreed before).ic = s.ic :=
  State.takeFreed_keeps (fun t => t.ic = s.ic) before rfl fun t a h _ _ => by simpa using h
@[simp] theorem State.takeFreed_pending (before : State) : (s.takeFreed before).pending = s.pending :=
  State.takeFreed_keeps (fun t => t.pending = s.pending) before rfl fun t a h _ _ => by simpa using h

end Sys2Proof.Machine
end

