-- ==== Sys2Proof/Laws/Requests.lean ====
section
/-! SUPPORT. What taking a request can do: the owner's answer where the request passes the checks, and how an answer shows
in the Link Controller. -/

namespace Sys2Proof.Machine

variable {α : Type} {s u : State} {l k : Link} {r : Request} {code : Byte} {form : Walk α} {x : α}

/-- Requests are handed on exactly while the part runs and the warning is de-asserted. -/
theorem State.answering_iff : s.answering = true ↔ s.condition = .running ∧ s.ic.warning = false := by
  simp [State.answering, State.isRunning]

/-- A request that passes the checks of R4 gets its owner's answer. -/
theorem State.serveRequest_of_asks {cls : RequestClass} {owner : α → State → Answer} (h : s.asks l r code form x)
    (hrole : cls.mayIssue (s.lc.links.get l).role = true) :
    s.serveRequest l code cls form owner = (owner x s).send l r := by
  obtain ⟨h1, h2, h3, h4, h5⟩ := h
  simp [State.serveRequest, h3, State.answering_iff.mpr ⟨h1, h2⟩, h4, hrole, h5]

/-- A Bay request that passes the checks of R4 gets its bay's answer: with PLAN_RESET cleared, and the inactivity timer
refreshed where the answer is OK. -/
theorem State.serveBay_of_asks {owner : Bay → α → State → Answer} {b : Bay} (h : s.asks l r code form x)
    (hrole : (s.lc.links.get l).role = .panel b) :
    s.serveBay l code form owner =
      (if (owner b x (s.setPlanReset l false)).result = .ok then
        ((owner b x (s.setPlanReset l false)).state.refreshInactivity b).respond l r
          (owner b x (s.setPlanReset l false)).result (owner b x (s.setPlanReset l false)).payload
      else (owner b x (s.setPlanReset l false)).send l r) := by
  rw [State.serveBay, State.serveRequest_of_asks h (by rw [hrole]; rfl)]
  simp only [bayOwner, hrole]
  split <;> rfl

/-- What a request can do, whatever it is: nothing, a refusal by the Link Controller, or its owner's answer. A property that
responses keep, and that the owner's state has, holds after it. -/
theorem State.serveRequest_keeps {cls : RequestClass} {owner : α → State → Answer} (P : State → Prop) (hs : P s)
    (hrespond : ∀ t r' res pl, P t → P (t.respond l r' res pl)) (howner : ∀ y, s.answering = true → P (owner y s).state) :
    P (s.serveRequest l code cls form owner) := by
  unfold State.serveRequest
  split
  · rename_i r' _
    split
    · rename_i hc
      have ha : s.answering = true := by simp_all
      split
      · split
        · exact hrespond _ _ _ _ (howner _ ha)
        · exact hrespond _ _ _ _ hs
      · exact hrespond _ _ _ _ hs
    · exact hs
  · exact hs
  · exact hs

/-- What a Bay request can do, whatever it is. -/
theorem State.serveBay_keeps {owner : Bay → α → State → Answer} (P : State → Prop) (hs : P s)
    (hrespond : ∀ t r' res pl, P t → P (t.respond l r' res pl))
    (howner : ∀ b y, (s.lc.links.get l).role = .panel b → P (owner b y (s.setPlanReset l false)).state)
    (hrefresh : ∀ b y, (s.lc.links.get l).role = .panel b → (owner b y (s.setPlanReset l false)).result = .ok →
      P ((owner b y (s.setPlanReset l false)).state.refreshInactivity b)) :
    P (s.serveBay l code form owner) := by
  unfold State.serveBay
  refine State.serveRequest_keeps P hs hrespond fun y _ => ?_
  unfold bayOwner
  split
  · rename_i b hb
    dsimp only
    split
    · exact hrefresh b y hb (by assumption)
    · exact howner b y hb
  all_goals exact hs

/-! ### The Link Controller of an answered request -/

/-- The last of several events sets its flag where it concerns the link. -/
@[simp] theorem State.marked_append (es : List FlagEvent) (e : FlagEvent) (f : CFlags) :
    s.marked (es ++ [e]) k f =
      if e.concerns k (s.lc.links.get k).role then (s.marked es k f).raise e.flag else s.marked es k f := by
  simp [State.marked]

@[simp] theorem State.marked_nil (f : CFlags) : s.marked [] k f = f := rfl

/-- The Link Controller of `u` is that of `s`, but for PLAN_RESET of link `l` and the flags of some events. -/
def State.linked (s u : State) (l : Link) (planReset : Bool) (events : List FlagEvent) : Prop :=
  u.lc.clock = s.lc.clock ∧ u.lc.baudStrap = s.lc.baudStrap
    ∧ ∀ k, u.lc.links.get k =
      { s.lc.links.get k with
        planReset := if k = l then planReset else (s.lc.links.get k).planReset
        flags := s.flagsAfter events k, raised := s.raisedAfter events k }

theorem State.linked_refl (s : State) (l : Link) : s.linked s l (s.planReset l) [] := by
  refine ⟨rfl, rfl, fun k => ?_⟩
  by_cases h : k = l
  · subst h; simp [State.flagsAfter, State.raisedAfter, State.planReset]
  · simp [State.flagsAfter, State.raisedAfter, h]

theorem State.linked_congr {pr : Bool} {es : List FlagEvent} (h : s.linked u l pr es) {v : State} (hv : v.lc = u.lc) :
    s.linked v l pr es := by
  unfold State.linked at h ⊢
  rw [hv]
  exact h

theorem State.linked_setPlanReset {pr y : Bool} {es : List FlagEvent} (h : s.linked u l pr es) :
    s.linked (u.setPlanReset l y) l y es := by
  obtain ⟨h1, h2, h3⟩ := h
  refine ⟨h1, h2, fun k => ?_⟩
  have := h3 k
  by_cases e : k = l
  · subst e; simp [State.setPlanReset, this]
  · simp [State.setPlanReset, PerLink.get_modify_of_ne _ _ e, this, e]

theorem State.linked_raiseFlag {pr : Bool} {es : List FlagEvent} (h : s.linked u l pr es) (e : FlagEvent) :
    s.linked (u.raiseFlag e) l pr (es ++ [e]) := by
  obtain ⟨h1, h2, h3⟩ := h
  refine ⟨h1, h2, fun k => ?_⟩
  simp only [State.raiseFlag, PerLink.get_tabulate, h3 k, FlagEvent.mark, State.flagsAfter, State.raisedAfter,
    State.marked_append]
  split <;> rfl

/-- The status word does not depend on what a slot holds, nor on what was raised since a capture. -/
@[simp] theorem State.statusWord_respond (r' : Request) (res : ResultCode) (pl : List Byte) :
    (u.respond l r' res pl).statusWord k = u.statusWord k := by
  have h : ∃ x y, (u.respond l r' res pl).lc.links.get k = { u.lc.links.get k with slot := x, raised := y } := by
    by_cases e : k = l
    · subst e; exact ⟨_, _, by simp only [State.respond, State.modifyLink, PerLink.get_modify]; rfl⟩
    · exact ⟨(u.lc.links.get k).slot, (u.lc.links.get k).raised, by simp [State.respond, PerLink.get_modify_of_ne _ _ e]⟩
  obtain ⟨x, y, h⟩ := h
  have hc : (u.respond l r' res pl).lc.clock = u.lc.clock := rfl
  have hn : (u.respond l r' res pl).nvc = u.nvc := rfl
  unfold State.statusWord
  simp only [h, hc, hn]
  rfl

/-- A response over an owner's state is the answer of R5. -/
theorem State.answered_respond {pr : Bool} {es : List FlagEvent} (h : s.linked u l pr es) (r' : Request) (res : ResultCode)
    (pl : List Byte) : s.answered (u.respond l r' res pl) l r' res pl pr es := by
  obtain ⟨h1, h2, h3⟩ := h
  refine ⟨h1, h2, fun k => ?_⟩
  have := h3 k
  by_cases e : k = l
  · subst e
    rw [State.statusWord_respond]
    simp [State.respond, this]
  · simp [State.respond, PerLink.get_modify_of_ne _ _ e, this, e]

/-! ### The whole answer -/

/-- The answer of a request that passes the checks of R4, from what its owner gives back. -/
theorem State.answers_of_request {cls : RequestClass} {owner : α → State → Answer} {ans : Answer} {pr : Bool}
    {es : List FlagEvent} {res : ResultCode} {pl : List Byte} (h : s.asks l r code form x)
    (hrole : cls.mayIssue (s.lc.links.get l).role = true) (ha : owner x s = ans) (hr : ans.result = res)
    (hp : ans.payload = pl) (hl : s.linked ans.state l pr es) (hu : ans.state = { u with lc := ans.state.lc }) :
    s.answers (.next (s.serveRequest l code cls form owner)) l r res pl pr es u := by
  refine ⟨_, rfl, ?_, ?_⟩
  · rw [State.serveRequest_of_asks h hrole, ha, ← hr, ← hp]
    exact State.answered_respond hl r _ _
  · rw [State.serveRequest_of_asks h hrole, ha]
    unfold Answer.send
    rw [hu]
    rfl

theorem State.linked_refreshInactivity {pr : Bool} {es : List FlagEvent} (h : s.linked u l pr es) (b : Bay) :
    s.linked (u.refreshInactivity b) l pr es := State.linked_congr h rfl

/-- The answer of a Bay request that passes the checks of R4, from what its bay gives back. -/
theorem State.answers_of_bay {owner : Bay → α → State → Answer} {b : Bay} {ans : Answer} {pr : Bool}
    {es : List FlagEvent} {res : ResultCode} {pl : List Byte} (h : s.asks l r code form x)
    (hrole : (s.lc.links.get l).role = .panel b) (ha : owner b x (s.setPlanReset l false) = ans) (hr : ans.result = res)
    (hp : ans.payload = pl) (hl : s.linked ans.state l pr es)
    (hu : (if ans.result = .ok then ans.state.refreshInactivity b else ans.state) = { u with lc := ans.state.lc }) :
    s.answers (.next (s.serveBay l code form owner)) l r res pl pr es u := by
  refine State.answers_of_request (ans :=
    if ans.result = .ok then { ans with state := ans.state.refreshInactivity b } else ans) h (by rw [hrole]; rfl) ?_ ?_ ?_ ?_ ?_
  · simp only [bayOwner, hrole, ha]
  · split <;> exact hr
  · split <;> exact hp
  · split
    · exact State.linked_refreshInactivity hl b
    · exact hl
  · split at hu <;> rename_i hc
    · rw [if_pos hc]; rw [hu]
    · rw [if_neg hc]; rw [hu]

/-! ### Setting requests (R165) -/

/-- A setting request past its other checks changes nothing where the record holds the contents already or the queue is full, and
otherwise is the change with its entry; its payload is empty. -/
theorem State.writeSetting_eq (s : State) (held : Bool) (c : NvContents) :
    s.writeSetting held c =
      { result := if !held && s.nvBusy then .busy else .ok, payload := []
        state := if held || s.nvBusy then s else s.commit c .setting } := by
  unfold State.writeSetting State.accept State.refuse
  cases held <;> cases s.nvBusy <;> rfl

end Sys2Proof.Machine
end

