-- ==== Sys2Proof/Laws/Flow.lean ====
section
/-! SUPPORT. What the shared operations of shots, flow and stop causes can do: which parts of the state they read and change, and
the state an arm's moves leave (R90, R117, R121, R137, R139, R140). -/

namespace Sys2Proof.Machine

/-! ### Flags raised -/

theorem State.flagged_raiseFlag {s u : State} {es} (h : s.flagged u es) (e : FlagEvent) : s.flagged (u.raiseFlag e) (es ++ [e]) := by
  obtain ⟨h1, h2, h3⟩ := h
  refine ⟨h1, h2, fun k => ?_⟩
  simp only [State.raiseFlag, PerLink.get_tabulate, h3 k, FlagEvent.mark, State.flagsAfter, State.raisedAfter,
    State.marked_append]
  split <;> rfl
theorem State.flagged_refl (s : State) : s.flagged s [] := ⟨rfl, rfl, fun k => rfl⟩
theorem State.flagged_congr {s u v : State} {es} (h : s.flagged u es) (hv : v.lc = u.lc) : s.flagged v es := by
  unfold State.flagged at h ⊢; rw [hv]; exact h

/-! ### Shots cut off, channels unqueued -/

theorem State.endShot_parts (s : State) (p) : s.endShot p = { s with adu := (s.endShot p).adu } := by
  unfold State.endShot; split <;> rfl
theorem State.cutShot_parts (s : State) (cut p) : s.cutShot cut p = { s with adu := (s.cutShot cut p).adu } := by
  unfold State.cutShot; split
  · split
    · exact State.endShot_parts s p
    · rfl
  · rfl
  · rfl
theorem State.cutShots_parts (s : State) (cut) : s.cutShots cut = { s with adu := (s.cutShots cut).adu } := by
  unfold State.cutShots
  generalize Additive.all = l
  induction l generalizing s with
  | nil => rfl
  | cons p rest ih =>
    rw [List.foldl_cons, ih, State.cutShot_parts]
theorem State.endShot_congr {s u : State} (p) (h : s.adu = u.adu) (hw : s.wc = u.wc) : (s.endShot p).adu = (u.endShot p).adu := by
  unfold State.endShot
  rw [h]
  split <;> simp [hw, h]
theorem State.cutShot_congr {s u : State} (cut p) (h : s.adu = u.adu) (hw : s.wc = u.wc) : (s.cutShot cut p).adu = (u.cutShot cut p).adu := by
  unfold State.cutShot
  rw [h]
  split
  · split
    · exact State.endShot_congr p h hw
    · exact h
  · exact h
  · exact h
theorem State.cutShots_congr {s u : State} (cut) (h : s.adu = u.adu) (hw : s.wc = u.wc) : (s.cutShots cut).adu = (u.cutShots cut).adu := by
  unfold State.cutShots
  generalize Additive.all = l
  induction l generalizing s u with
  | nil => exact h
  | cons p rest ih =>
    rw [List.foldl_cons, List.foldl_cons]
    refine ih (State.cutShot_congr cut p h hw) ?_
    rw [State.cutShot_parts s, State.cutShot_parts u]; exact hw

theorem State.unqueue_parts (s : State) (c : Channel) : s.unqueue c = { s with adu := (s.unqueue c).adu, running := s.running.set c.arm ((s.unqueue c).running.get c.arm) } := by
  unfold State.unqueue State.modifyLine
  split
  · dsimp only
    split <;> simp [State.modifyChannel, State.modifyRunning, PerArm.modify]
  · apply State.eq_of_parts <;> simp
theorem State.unqueue_congr {s u : State} (c) (h : s.adu = u.adu) (hr : s.running = u.running) : (s.unqueue c).adu = (u.unqueue c).adu ∧ (s.unqueue c).running = (u.unqueue c).running := by
  unfold State.unqueue State.modifyLine
  rw [h]
  split
  · dsimp only
    split <;> simp [State.modifyChannel, State.modifyRunning, h, hr]
  · exact ⟨h, hr⟩
theorem Arm.arm_lowerChannel (a : Arm) : a.lowerChannel.arm = a := by cases a <;> rfl
theorem Arm.arm_upperChannel (a : Arm) : a.upperChannel.arm = a := by cases a <;> rfl
theorem State.dosingLeft_congr {s u : State} (a) (h : s.adu = u.adu) (hr : s.running = u.running) : (s.dosingLeft a).adu = (u.dosingLeft a).adu ∧ (s.dosingLeft a).running = (u.dosingLeft a).running := by
  have := State.unqueue_congr a.lowerChannel h hr
  exact State.unqueue_congr a.upperChannel this.1 this.2
theorem State.dosingLeft_parts (s : State) (a : Arm) : s.dosingLeft a = { s with adu := (s.dosingLeft a).adu, running := s.running.set a ((s.dosingLeft a).running.get a) } := by
  have h1 := State.unqueue_parts s a.lowerChannel
  have h2 := State.unqueue_parts (s.unqueue a.lowerChannel) a.upperChannel
  rw [Arm.arm_lowerChannel] at h1
  rw [Arm.arm_upperChannel] at h2
  unfold State.dosingLeft
  rw [h2]
  apply State.eq_of_parts <;> simp
  all_goals (rw [h1])
  simp

theorem Arm.any_bay_arms (a : Arm) (p : Arm → Bool) : (a.bay.arms.any p) = (p a || p a.other) := by
  cases a <;> simp [Arm.bay, Bay.arms, Arm.other, Bool.or_comm]
theorem State.bayFlowing_eq_other {s : State} {a : Arm} (h : s.armFlowing a = false) : s.bayFlowing a.bay = s.armFlowing a.other := by
  simp [State.bayFlowing, Arm.any_bay_arms, h]
theorem Arm.other_ne (a : Arm) : a.other ≠ a := by cases a <;> decide
@[simp] theorem PerArm.get_set_other {α} (v : PerArm α) (a : Arm) (x : α) : (v.set a x).get a.other = v.get a.other := PerArm.get_set_of_ne _ _ (Arm.other_ne a)

/-! ### The Stop-Cause Set -/

theorem mem_joinCause (c d : StopCause) (l : List StopCause) : d ∈ joinCause c l ↔ d = c ∨ d ∈ l := by
  induction l with
  | nil => simp [joinCause]
  | cons e rest ih =>
    unfold joinCause
    split
    · simp
    · split
      · rename_i h; subst h; simp
      · simp [ih]; tauto
theorem StopCause.priority_inj {c d : StopCause} (h : c.priority = d.priority) : c = d := by
  cases c <;> cases d <;> first | rfl | (exact absurd h (by decide))
theorem joinCause_sorted (c : StopCause) (l : List StopCause) (h : (l.map StopCause.priority).Pairwise (· < ·)) :
      ((joinCause c l).map StopCause.priority).Pairwise (· < ·) := by
  induction l with
  | nil => simp [joinCause]
  | cons e rest ih =>
    rw [List.map_cons, List.pairwise_cons] at h
    unfold joinCause
    split
    · rename_i hlt
      rw [List.map_cons, List.pairwise_cons]
      refine ⟨?_, by rw [List.map_cons, List.pairwise_cons]; exact h⟩
      intro x hx
      rw [List.map_cons, List.mem_cons] at hx
      rcases hx with rfl | hx
      · exact hlt
      · exact lt_trans hlt (h.1 x hx)
    · split
      · rw [List.map_cons, List.pairwise_cons]; exact h
      · rename_i h1 h2
        rw [List.map_cons, List.pairwise_cons]
        refine ⟨?_, ih h.2⟩
        intro x hx
        obtain ⟨d, hd, rfl⟩ := List.mem_map.mp hx
        rcases (mem_joinCause _ _ _).mp hd with rfl | hd
        · rcases Nat.lt_trichotomy e.priority d.priority with h | h | h
          · exact h
          · exact absurd (StopCause.priority_inj h).symm h2
          · exact absurd h h1
        · exact h.1 _ (List.mem_map_of_mem hd)

/-! ### Entering CLOSING and PAUSED, and a cause raised -/

/-- the state after the cause has joined -/
theorem State.causeJoined_eq (s : State) (a : Arm) (c : StopCause) :
    (((s.modifyFc a fun y => { y with causes := joinCause c y.causes }).raiseFlag (.causeRaised a)).cutShots fun k => k.arm = a)
    = { s.cutShots fun k => k.arm = a with fc := s.fc.set a { s.fc.get a with causes := joinCause c (s.fc.get a).causes }, lc := (s.raiseFlag (.causeRaised a)).lc } := by
  rw [State.cutShots_parts]
  apply State.eq_of_parts <;> simp
  all_goals first | exact State.cutShots_congr _ (by simp) (by simp) | rfl

theorem State.armFlowing_iff {s : State} {a} : s.armFlowing a = true ↔ (s.fc.get a).state ∈ [ArmState.lowStart, .highFlow, .topOff] := by
  unfold State.armFlowing ArmState.flowing
  cases (s.fc.get a).state <;> simp

theorem State.flowLeft_eq (s0 s : State) (a : Arm) (x : FlowController) (hs : s0.fc = s.fc.set a x) (hx : x.state.flowing = false) (hb : s0.bsc = s.bsc) :
    s0.flowLeft a = { s0.dosingLeft a with bsc := s.deadmanLeft a } := by
  unfold State.flowLeft State.deadmanFlowLeft State.deadmanLeft BayController.noteLeft
  have : (s0.dosingLeft a).bayFlowing a.bay = (s.fc.get a.other).state.flowing := by
    rw [State.bayFlowing_eq_other]
    · simp [State.armFlowing, hs]
    · simp [State.armFlowing, hs, hx]
  rw [this, ← hb]
  apply State.eq_of_parts <;> simp [PerBay.modify]
theorem State.enterClosing_of_flowing (s : State) (a r) (h : s.armFlowing a = true) : s.enterClosing a r =
   { (s.setEndReason a r).dosingLeft a with fc := s.fc.set a { s.fc.get a with
      state := .closing, command := .close, closingCount := 0, closingTimer := some 10000
      noFlowTimer := none, pauseTimer := none }, bsc := s.deadmanLeft a } := by
  unfold State.enterClosing
  dsimp only
  rw [if_pos h]
  refine (State.flowLeft_eq _ s a (x := { s.fc.get a with state := .closing, command := .close, closingCount := 0, closingTimer := some Config.closingTime, noFlowTimer := none, pauseTimer := none }) ?_ ?_ ?_).trans ?_
  · rfl
  · rfl
  · rfl
  rw [State.dosingLeft_parts, State.dosingLeft_parts (s.setEndReason a r)]
  have := State.dosingLeft_congr (s := (s.modifyFc a fun x =>
    { x with
      state := .closing, command := .close, closingCount := 0, closingTimer := some Config.closingTime
      noFlowTimer := none, pauseTimer := none }).setEndReason a r) (u := s.setEndReason a r) a rfl rfl
  rw [this.1, this.2]
  rfl

theorem State.enterClosing_of_not_flowing (s : State) (a r) (h : s.armFlowing a = false) : s.enterClosing a r =
   { s.setEndReason a r with fc := s.fc.set a { s.fc.get a with
      state := .closing, command := .close, closingCount := 0, closingTimer := some 10000
      noFlowTimer := none, pauseTimer := none } } := by
  unfold State.enterClosing
  simp only [h]
  rfl

theorem State.enterPaused_eq (s : State) (a) : s.enterPaused a =
   { s.dosingLeft a with fc := s.fc.set a { s.fc.get a with
      state := .paused, command := .close, noFlowTimer := none
      pauseTimer := some (s.wc.rack.pauseTimeout * 1000) }, bsc := s.deadmanLeft a } := by
  unfold State.enterPaused
  refine (State.flowLeft_eq _ s a (x := { s.fc.get a with state := .paused, command := .close, noFlowTimer := none, pauseTimer := some (s.wc.rack.pauseTimeout * 1000) }) ?_ ?_ ?_).trans ?_
  · rfl
  · rfl
  · rfl
  rw [State.dosingLeft_parts, State.dosingLeft_parts s]
  have := State.dosingLeft_congr (s := (s.modifyFc a fun x =>
    { x with
      state := .paused, command := .close, noFlowTimer := none
      pauseTimer := some (s.wc.rack.pauseTimeout * 1000) })) (u := s) a rfl rfl
  rw [this.1, this.2]
  rfl

theorem State.raiseCause_eq {s : State} {a c} (h1 : (s.fc.get a).state ≠ .idle) (h2 : c ∉ (s.fc.get a).causes) : 
     s.raiseCause a c = (match (s.fc.get a).state, c.endReason with
    | .lowStart, some r | .highFlow, some r | .topOff, some r | .paused, some r => State.enterClosing { s.cutShots fun k => k.arm = a with fc := s.fc.set a { s.fc.get a with causes := joinCause c (s.fc.get a).causes }, lc := (s.raiseFlag (.causeRaised a)).lc } a r
    | .lowStart, none | .highFlow, none | .topOff, none => State.enterPaused { s.cutShots fun k => k.arm = a with fc := s.fc.set a { s.fc.get a with causes := joinCause c (s.fc.get a).causes }, lc := (s.raiseFlag (.causeRaised a)).lc } a
    | _, _ => { s.cutShots fun k => k.arm = a with fc := s.fc.set a { s.fc.get a with causes := joinCause c (s.fc.get a).causes }, lc := (s.raiseFlag (.causeRaised a)).lc }) := by
  unfold State.raiseCause
  rw [if_neg]
  · rw [← State.causeJoined_eq] <;> rfl
  · simp; exact ⟨h1, h2⟩

/-- A cause raised on an IDLE arm, or one its set holds, changes nothing. -/
theorem State.raiseCause_of_held {s : State} {a : Arm} {c : StopCause}
    (h : (s.fc.get a).state = .idle ∨ c ∈ (s.fc.get a).causes) : s.raiseCause a c = s := by
  unfold State.raiseCause
  rw [if_pos (by simpa using h)]

/-- What raising a cause leaves as it was. -/
theorem State.raiseCause_parts (s : State) (a : Arm) (c : StopCause) :
    s.raiseCause a c =
      { s with
        lc := (s.raiseCause a c).lc, fc := (s.raiseCause a c).fc, bsc := (s.raiseCause a c).bsc
        running := (s.raiseCause a c).running, adu := (s.raiseCause a c).adu } := by
  apply State.eq_of_parts <;> simp

/-- Entering CLOSING leaves the other arms. -/
theorem State.enterClosing_other (s : State) {a a' : Arm} (r : EndReason) (h : a' ≠ a) :
    (s.enterClosing a r).fc.get a' = s.fc.get a' ∧ (s.enterClosing a r).running.get a' = s.running.get a' := by
  by_cases hf : s.armFlowing a = true
  · rw [State.enterClosing_of_flowing _ _ _ hf, State.dosingLeft_parts]
    simp [PerArm.get_set_of_ne _ _ h, State.setEndReason, PerArm.modify]
  · rw [State.enterClosing_of_not_flowing _ _ _ (by simpa using hf)]
    simp [PerArm.get_set_of_ne _ _ h, State.setEndReason, PerArm.modify]

/-- A cause raised on one arm leaves the others. -/
theorem State.raiseCause_other (s : State) {a a' : Arm} (c : StopCause) (h : a' ≠ a) :
    (s.raiseCause a c).fc.get a' = s.fc.get a' ∧ (s.raiseCause a c).running.get a' = s.running.get a' := by
  by_cases h0 : (s.fc.get a).state = .idle ∨ c ∈ (s.fc.get a).causes
  · rw [State.raiseCause_of_held h0]; exact ⟨rfl, rfl⟩
  · rw [not_or] at h0
    rw [State.raiseCause_eq h0.1 h0.2, State.cutShots_parts]
    split
    all_goals first
      | (refine ⟨(State.enterClosing_other _ _ h).1.trans ?_, (State.enterClosing_other _ _ h).2.trans ?_⟩ <;>
          simp [PerArm.get_set_of_ne _ _ h])
      | (rw [State.enterPaused_eq, State.dosingLeft_parts]; simp [PerArm.get_set_of_ne _ _ h])
      | simp [PerArm.get_set_of_ne _ _ h]

/-- A cause raised on an arm that is not IDLE is in its set. -/
theorem State.mem_raiseCause (s : State) (a : Arm) (c : StopCause) (hi : (s.fc.get a).state ≠ .idle) :
    c ∈ ((s.raiseCause a c).fc.get a).causes := by
  by_cases hm : c ∈ (s.fc.get a).causes
  · rw [State.raiseCause_of_held (Or.inr hm)]; exact hm
  · have hj : c ∈ joinCause c (s.fc.get a).causes := (mem_joinCause _ _ _).mpr (Or.inl rfl)
    rw [State.raiseCause_eq hi hm]
    split
    all_goals first
      | (rw [State.enterPaused_eq]; simpa using hj)
      | (unfold State.enterClosing; split <;> simpa [State.setEndReason, PerArm.modify] using hj)
      | simpa using hj

/-- A terminal cause that joins the set takes a flowing or PAUSED arm to CLOSING with the valve closed. -/
theorem State.raiseCause_terminal (s : State) (a : Arm) (c : StopCause) (r : EndReason) (hr : c.endReason = some r)
    (hst : (s.fc.get a).state ∈ [ArmState.lowStart, .highFlow, .topOff, .paused]) (hm : c ∉ (s.fc.get a).causes) :
    ((s.raiseCause a c).fc.get a).state = .closing ∧ ((s.raiseCause a c).fc.get a).command = .close := by
  rw [State.raiseCause_eq (by intro h; simp [h] at hst) hm, hr]
  have key : ∀ u : State, ((u.enterClosing a r).fc.get a).state = .closing ∧ ((u.enterClosing a r).fc.get a).command = .close := by
    intro u
    unfold State.enterClosing
    split <;> simp [State.setEndReason, PerArm.modify]
  revert hst
  cases (s.fc.get a).state <;> simp [key]

/-- A resumable cause that joins the set pauses a flowing arm, with the valve closed and the pause timer started. -/
theorem State.raiseCause_resumable (s : State) (a : Arm) (c : StopCause) (hr : c.endReason = none)
    (hst : (s.fc.get a).state ∈ [ArmState.lowStart, .highFlow, .topOff]) (hm : c ∉ (s.fc.get a).causes) :
    ((s.raiseCause a c).fc.get a).state = .paused ∧ ((s.raiseCause a c).fc.get a).command = .close
      ∧ ((s.raiseCause a c).fc.get a).pauseTimer = some (s.wc.rack.pauseTimeout * 1000) := by
  rw [State.raiseCause_eq (by intro h; simp [h] at hst) hm, hr]
  revert hst
  cases (s.fc.get a).state <;> simp [State.enterPaused_eq]

/-! ### One cause raised on several arms -/

/-- An arm not named stays as it was; a named one is as the cause leaves it, raised in a state that held it as it was. -/
theorem State.raiseOn_arms (arms : List Arm) (hnd : arms.Nodup) (c : StopCause) (s : State) :
    (∀ a, a ∉ arms →
      (s.raiseOn arms c).fc.get a = s.fc.get a ∧ (s.raiseOn arms c).running.get a = s.running.get a)
    ∧ (∀ a ∈ arms, ∃ u : State, u.fc.get a = s.fc.get a ∧ u.running.get a = s.running.get a ∧ u.wc = s.wc
      ∧ (s.raiseOn arms c).fc.get a = (u.raiseCause a c).fc.get a
      ∧ (s.raiseOn arms c).running.get a = (u.raiseCause a c).running.get a)
    ∧ s.raiseOn arms c =
      { s with
        lc := (s.raiseOn arms c).lc, fc := (s.raiseOn arms c).fc, bsc := (s.raiseOn arms c).bsc
        running := (s.raiseOn arms c).running, adu := (s.raiseOn arms c).adu } := by
  induction arms generalizing s with
  | nil => exact ⟨fun a _ => ⟨rfl, rfl⟩, fun a h => absurd h (by simp), rfl⟩
  | cons b rest ih =>
    rw [List.nodup_cons] at hnd
    have e : s.raiseOn (b :: rest) c = (s.raiseCause b c).raiseOn rest c := rfl
    rw [e]
    obtain ⟨i1, i2, i3⟩ := ih hnd.2 (s.raiseCause b c)
    refine ⟨fun a ha => ?_, fun a ha => ?_, ?_⟩
    · rw [List.mem_cons, not_or] at ha
      have := i1 a ha.2
      have h2 := State.raiseCause_other s c ha.1
      exact ⟨this.1.trans h2.1, this.2.trans h2.2⟩
    · by_cases hab : a = b
      · subst hab
        have := i1 a hnd.1
        exact ⟨s, rfl, rfl, rfl, this.1, this.2⟩
      · have ha' : a ∈ rest := by rcases List.mem_cons.mp ha with h | h; exact absurd h hab; exact h
        obtain ⟨u, h1, h2, h0, h3, h4⟩ := i2 a ha'
        have h5 := State.raiseCause_other s c hab
        exact ⟨u, h1.trans h5.1, h2.trans h5.2, h0.trans (by simp), h3, h4⟩
    · rw [i3]
      apply State.eq_of_parts <;> simp

/-- Every Shot Queue emptied is what each arm's leaving of flow empties, in arm order (R138, R140). -/
theorem State.emptyQueues_eq (s : State) : s.emptyQueues = [Arm.arm0, .arm1, .arm2, .arm3].foldl State.dosingLeft s := by
  simp only [State.emptyQueues, Channel.all, List.foldl_cons, List.foldl_nil, State.dosingLeft, Arm.lowerChannel, Arm.upperChannel]

end Sys2Proof.Machine
end

