-- ==== Sys2Proof/Laws/Tables.lean ====
section
/-! SUPPORT. What the keyed tables' operations do: each key's record after a write or a removal, the canonical form kept, the
next key above one, and the set of a list's members (R37, R44, R61, R66). -/

namespace Sys2Proof.Machine

/-! ### Look up, write, remove -/

theorem Assoc.find_put_self {α} (t : Assoc α) (k : Nat) (x : α) : (t.put k x).find k = some x := by
  induction t with
  | nil => simp [Assoc.put, Assoc.find]
  | cons e rest ih =>
    obtain ⟨j, y⟩ := e
    unfold Assoc.put
    split
    · simp [Assoc.find]
    · split
      · simp [Assoc.find]
      · rename_i h1 h2
        simp [Assoc.find, ih]
        intro h; omega
theorem Assoc.find_put_ne {α} (t : Assoc α) {k j : Nat} (x : α) (h : j ≠ k) : (t.put k x).find j = t.find j := by
  induction t with
  | nil => simp [Assoc.put, Assoc.find, Ne.symm h]
  | cons e rest ih =>
    obtain ⟨i, y⟩ := e
    unfold Assoc.put
    split
    · simp [Assoc.find, Ne.symm h]
    · split
      · rename_i h1 h2
        simp [Assoc.find, Ne.symm h, ← h2]
      · simp [Assoc.find, ih]
theorem Assoc.put_put {α} (t : Assoc α) (k : Nat) (x y : α) : (t.put k x).put k y = t.put k y := by
  induction t with
  | nil => simp [Assoc.put]
  | cons e rest ih =>
    obtain ⟨i, z⟩ := e
    by_cases h : k < i
    · simp [Assoc.put, h]
    · by_cases h2 : k = i <;> simp [Assoc.put, h, h2, ih]

theorem Assoc.find_remove_self {α} (t : Assoc α) (k : Nat) : (t.remove k).find k = none := by
  induction t with
  | nil => rfl
  | cons e rest ih =>
    obtain ⟨j, y⟩ := e
    by_cases h : j = k <;> simp [Assoc.remove, Assoc.find, h, ih]
theorem Assoc.find_remove_ne {α} (t : Assoc α) {k j : Nat} (h : j ≠ k) : (t.remove k).find j = t.find j := by
  induction t with
  | nil => rfl
  | cons e rest ih =>
    obtain ⟨i, y⟩ := e
    by_cases h2 : i = k
    · subst h2; simp [Assoc.remove, Assoc.find, Ne.symm h, ih]
    · simp [Assoc.remove, Assoc.find, h2, ih]

/-! ### The canonical form -/

theorem Assoc.wf_cons {α} {j : Nat} {y : α} {rest : Assoc α} : Assoc.wf ((j, y) :: rest) = true ↔ (∀ e ∈ rest, j < e.1) ∧ Assoc.wf rest = true := by
  simp [Assoc.wf]
theorem Assoc.mem_put {α} {t : Assoc α} {k : Nat} {x : α} {e : Nat × α} (h : e ∈ t.put k x) : e = (k, x) ∨ e ∈ t := by
  induction t with
  | nil => simpa [Assoc.put] using h
  | cons d rest ih =>
    obtain ⟨j, y⟩ := d
    unfold Assoc.put at h
    split at h
    · simpa using h
    · split at h
      · rcases List.mem_cons.mp h with h | h
        · exact .inl h
        · exact .inr (List.mem_cons_of_mem _ h)
      · rcases List.mem_cons.mp h with h | h
        · exact .inr (by simp [h])
        · exact (ih h).imp_right (List.mem_cons_of_mem _)
theorem Assoc.mem_remove {α} {t : Assoc α} {k : Nat} {e : Nat × α} (h : e ∈ t.remove k) : e ∈ t := by
  induction t with
  | nil => simp [Assoc.remove] at h
  | cons d rest ih =>
    obtain ⟨j, y⟩ := d
    unfold Assoc.remove at h
    split at h
    · exact List.mem_cons_of_mem _ (ih h)
    · rcases List.mem_cons.mp h with h | h
      · simp [h]
      · exact List.mem_cons_of_mem _ (ih h)
/-- A write keeps the keys strictly rising. -/
theorem Assoc.wf_put {α} {t : Assoc α} (h : t.wf = true) (k : Nat) (x : α) : (t.put k x).wf = true := by
  induction t with
  | nil => simp [Assoc.put, Assoc.wf]
  | cons d rest ih =>
    obtain ⟨j, y⟩ := d
    obtain ⟨h1, h2⟩ := Assoc.wf_cons.mp h
    unfold Assoc.put
    split
    · rename_i hk
      refine Assoc.wf_cons.mpr ⟨fun e he => ?_, h⟩
      rcases List.mem_cons.mp he with rfl | he
      · exact hk
      · exact lt_trans hk (h1 e he)
    · split
      · rename_i hk; subst hk; exact Assoc.wf_cons.mpr ⟨h1, h2⟩
      · refine Assoc.wf_cons.mpr ⟨fun e he => ?_, ih h2⟩
        rcases Assoc.mem_put he with rfl | he
        · show j < k; omega
        · exact h1 e he
/-- A removal keeps the keys strictly rising. -/
theorem Assoc.wf_remove {α} {t : Assoc α} (h : t.wf = true) (k : Nat) : (t.remove k).wf = true := by
  induction t with
  | nil => rfl
  | cons d rest ih =>
    obtain ⟨j, y⟩ := d
    obtain ⟨h1, h2⟩ := Assoc.wf_cons.mp h
    unfold Assoc.remove
    split
    · exact ih h2
    · exact Assoc.wf_cons.mpr ⟨fun e he => h1 e (Assoc.mem_remove he), ih h2⟩

/-! ### Members, and the next key -/

theorem Assoc.mem_of_find {α} {t : Assoc α} {k x} (h : t.find k = some x) : (k, x) ∈ t := by
  induction t with
  | nil => simp [Assoc.find] at h
  | cons e rest ih =>
    obtain ⟨j, y⟩ := e
    unfold Assoc.find at h
    split at h
    · rename_i hj; subst hj; simp at h; subst h; simp
    · exact List.mem_cons_of_mem _ (ih h)
theorem Assoc.find_of_mem {α} {t : Assoc α} {k x} (h : (k, x) ∈ t) : t.find k ≠ none := by
  induction t with
  | nil => simp at h
  | cons e rest ih =>
    obtain ⟨j, y⟩ := e
    unfold Assoc.find
    split
    · simp
    · rename_i hj
      rcases List.mem_cons.mp h with h | h
      · simp at h; exact absurd h.1.symm hj
      · exact ih h
theorem Assoc.after_eq_some {α} {t : Assoc α} {n k x} (hw : t.wf = true) (hk : t.find k = some x) (h1 : n < k) (h2 : ∀ j, n < j → j < k → t.find j = none) : t.after n = some (k, x) := by
  induction t with
  | nil => simp [Assoc.find] at hk
  | cons e rest ih =>
    obtain ⟨j, y⟩ := e
    rw [Assoc.wf_cons] at hw
    unfold Assoc.after
    split
    · rename_i hnj
      by_cases hjk : j = k
      · subst hjk; simp [Assoc.find] at hk; subst hk; rfl
      · have hm : (k, x) ∈ rest := by
          have := Assoc.mem_of_find hk
          simp at this
          rcases this with h | h
          · exact absurd h.1.symm hjk
          · exact h
        have := hw.1 _ hm
        have h3 := h2 j hnj this
        simp [Assoc.find] at h3
    · rename_i hnj
      have hjk : j ≠ k := by omega
      refine ih hw.2 ?_ ?_
      · simpa [Assoc.find, hjk] using hk
      · intro i hi1 hi2
        have := h2 i hi1 hi2
        have hji : j ≠ i := by omega
        simpa [Assoc.find, hji] using this
theorem Assoc.after_eq_none {α} {t : Assoc α} {n} (h2 : ∀ j, n < j → t.find j = none) : t.after n = none := by
  induction t with
  | nil => rfl
  | cons e rest ih =>
    obtain ⟨j, y⟩ := e
    unfold Assoc.after
    split
    · rename_i hnj
      have := h2 j hnj
      simp [Assoc.find] at this
    · rename_i hnj
      refine ih fun i hi => ?_
      have := h2 i hi
      have hji : j ≠ i := by omega
      simpa [Assoc.find, hji] using this

/-! ### Tables that agree -/

/-- Each key's record after a write. -/
theorem Assoc.find_put {α} (t : Assoc α) (n k : Nat) (x : α) : (t.put n x).find k = if k = n then some x else t.find k := by
  split
  · subst_vars; exact Assoc.find_put_self _ _ _
  · exact Assoc.find_put_ne _ _ (by assumption)
/-- Tables in canonical form with the same record under every key are the same. -/
theorem Assoc.ext_of_wf {α} {t u : Assoc α} (ht : t.wf = true) (hu : u.wf = true) (h : ∀ k, t.find k = u.find k) : t = u := by
  have below : ∀ {j} {r : Assoc α}, (∀ e ∈ r, j < e.1) → r.find j = none := by
    intro j r hr
    cases hf : r.find j with
    | none => rfl
    | some x => exact absurd (hr _ (Assoc.mem_of_find hf)) (lt_irrefl _)
  induction t generalizing u with
  | nil =>
    cases u with
    | nil => rfl
    | cons e r => have := h e.1; simp [Assoc.find] at this
  | cons d r ih =>
    cases u with
    | nil => have := h d.1; simp [Assoc.find] at this
    | cons e q =>
      obtain ⟨j, x⟩ := d
      obtain ⟨k, y⟩ := e
      obtain ⟨hr, hrw⟩ := Assoc.wf_cons.mp ht
      obtain ⟨hq, hqw⟩ := Assoc.wf_cons.mp hu
      have hjk : j = k := by
        have h1 := h j
        have h2 := h k
        simp only [Assoc.find, if_true] at h1 h2
        by_contra hne
        rw [if_neg (fun h => hne h.symm)] at h1
        rw [if_neg hne] at h2
        have a := hq _ (Assoc.mem_of_find h1.symm)
        have b := hr _ (Assoc.mem_of_find h2)
        simp only at a b
        omega
      subst hjk
      have hxy : x = y := by simpa [Assoc.find] using h j
      subst hxy
      rw [ih hrw hqw]
      intro i
      by_cases hi : j = i
      · subst hi; rw [below hr, below hq]
      · simpa [Assoc.find, hi] using h i
/-- Writes under different keys, in either order. -/
theorem Assoc.put_comm {α} {t : Assoc α} (h : t.wf = true) {j k : Nat} (x y : α) (hjk : j ≠ k) : (t.put j x).put k y = (t.put k y).put j x := by
  refine Assoc.ext_of_wf (Assoc.wf_put (Assoc.wf_put h _ _) _ _) (Assoc.wf_put (Assoc.wf_put h _ _) _ _) fun i => ?_
  simp only [Assoc.find_put]
  split_ifs <;> first | rfl | omega

/-! ### Sets as rising lists -/

theorem mem_insertAscending (n k : Nat) (l : List Nat) : k ∈ insertAscending n l ↔ k = n ∨ k ∈ l := by
  induction l with
  | nil => simp [insertAscending]
  | cons m rest ih =>
    unfold insertAscending
    split
    · simp
    · split
      · rename_i h; subst h; simp
      · simp [ih]; tauto
theorem pairwise_insertAscending (n : Nat) (l : List Nat) (h : l.Pairwise (· < ·)) : (insertAscending n l).Pairwise (· < ·) := by
  induction l with
  | nil => simp [insertAscending]
  | cons m rest ih =>
    rw [List.pairwise_cons] at h
    unfold insertAscending
    split
    · rename_i hlt
      rw [List.pairwise_cons]
      refine ⟨?_, List.pairwise_cons.mpr h⟩
      intro x hx
      rcases List.mem_cons.mp hx with rfl | hx
      · exact hlt
      · exact lt_trans hlt (h.1 x hx)
    · split
      · exact List.pairwise_cons.mpr h
      · rw [List.pairwise_cons]
        refine ⟨?_, ih h.2⟩
        intro x hx
        rcases (mem_insertAscending _ _ _).mp hx with rfl | hx
        · omega
        · exact h.1 x hx
theorem ascendingSet_spec (l : List Nat) : (∀ k, k ∈ ascendingSet l ↔ k ∈ l) ∧ (ascendingSet l).Pairwise (· < ·) := by
  unfold ascendingSet
  suffices ∀ t : List Nat, t.Pairwise (· < ·) → (∀ k, k ∈ l.foldl (fun t n => insertAscending n t) t ↔ k ∈ l ∨ k ∈ t) ∧ (l.foldl (fun t n => insertAscending n t) t).Pairwise (· < ·) by
    simpa using this [] List.Pairwise.nil
  induction l with
  | nil => intro t h; simpa using h
  | cons n rest ih =>
    intro t h
    rw [List.foldl_cons]
    obtain ⟨h1, h2⟩ := ih _ (pairwise_insertAscending n t h)
    refine ⟨fun k => ?_, h2⟩
    rw [h1, mem_insertAscending]; simp; tauto

end Sys2Proof.Machine
end

