-- ==== Sys2Proof/Laws/Nv.lean ====
section
/-! SUPPORT. The NVC: what a commit does, what it depends on, what the NV Write Queue keeps, what a
reset would rebuild after it, and the hand-overs an event frees. -/

namespace Sys2Proof.Machine

variable {s u : State} {c : NvContents} {k : EntryClass}

/-- A commit writes the working copy. -/
@[simp] theorem State.commit_wc : (s.commit c k).wc = s.wc.write c := by
  unfold State.commit
  simp

/-- A commit hands the entry to the queue, and lets the NVC begin its next write while the part runs. -/
theorem State.commit_nvc :
    (s.commit c k).nvc =
      if s.condition = .running then
        NvController.advance { s.nvc with queue := enqueue s.nvc.queue { contents := c, cls := k } } s.armsNotIdle
      else { s.nvc with queue := enqueue s.nvc.queue { contents := c, cls := k } } := by
  unfold State.commit State.advanceNv State.isRunning
  simp only [State.setCopies_condition, State.setNvc_condition, State.setCopies_nvc]
  by_cases h : s.condition = .running
  · simp [h]; rfl
  · simp [h]

/-- What a commit does to the NVC depends on the NVC, the condition and the arms alone. -/
theorem State.commit_nvc_congr (h : s.nvc = u.nvc) (hc : s.condition = u.condition) (hf : s.fc = u.fc) :
    (s.commit c k).nvc = (u.commit c k).nvc := by
  simp only [State.commit_nvc, State.armsNotIdle, State.armIdle, h, hc, hf]

/-! ### The NV Write Queue (R164) -/

@[simp] theorem NvEntry.absorb_key (e o : NvEntry) : (e.absorb o).contents.key = o.contents.key := by
  unfold NvEntry.absorb
  split
  · rename_i h; exact h.symm
  · rfl

/-- The keys of the queue after an entry is handed to it. -/
theorem enqueue_keys (q : List NvEntry) (e : NvEntry) :
    (enqueue q e).map (fun o => o.contents.key) =
      if (dropOlderReleases e q).any (fun o => decide (o.contents.key = e.contents.key)) then
        (dropOlderReleases e q).map fun o => o.contents.key
      else (dropOlderReleases e q).map (fun o => o.contents.key) ++ [e.contents.key] := by
  unfold enqueue
  dsimp only
  split
  · simp [Function.comp_def]
  · simp

/-! ### What a reset would rebuild (R163) -/

/-- The contents that stand for one record of their own: all but notes and releases. -/
def NvContents.keyed : NvContents → Bool
  | .note _ _ | .release _ => false
  | .driver _ _ | .product _ _ | .recipe _ _ | .arm _ _ | .injector _ _ | .pump _ _ | .rack _ | .bayService _ _ => true
  | .audit _ | .stock _ | .totals _ _ => true

/-- A write keeps the keyed tables canonical. -/
theorem NvRecords.tablesLaw_write {r : NvRecords} (h : r.tablesLaw) (c : NvContents) : (r.write c).tablesLaw := by
  obtain ⟨h1, h2, h3⟩ := h
  unfold NvRecords.write
  split
  · exact ⟨Assoc.wf_put h1 _ _, h2, h3⟩
  · exact ⟨Assoc.wf_remove h1 _, h2, h3⟩
  · exact ⟨h1, Assoc.wf_put h2 _ _, h3⟩
  · exact ⟨h1, h2, Assoc.wf_put h3 _ _⟩
  all_goals exact ⟨h1, h2, h3⟩

/-- The driver records after a driver entry, key by key. -/
theorem NvRecords.find_write_driver (r : NvRecords) (n : Nat) (x : Option DriverRecord) (k : Nat) :
    (r.write (.driver n x)).drivers.find k = if k = n then x else r.drivers.find k := by
  cases x <;> simp only [NvRecords.write] <;> split
  · subst_vars; exact Assoc.find_remove_self _ _
  · exact Assoc.find_remove_ne _ (by assumption)
  · subst_vars; exact Assoc.find_put_self _ _ _
  · exact Assoc.find_put_ne _ _ (by assumption)

/-- A driver entry touches the driver records alone. -/
theorem NvRecords.write_driver (r : NvRecords) (n : Nat) (x : Option DriverRecord) :
    r.write (.driver n x) = { r with drivers := (r.write (.driver n x)).drivers } := by cases x <;> rfl

/-- Entries of different keys may be written in either order, where one of them is a record's. -/
theorem NvRecords.write_comm {r : NvRecords} (h : r.tablesLaw) {c d : NvContents} (hc : c.keyed = true) (hk : d.key ≠ c.key) :
    (r.write d).write c = (r.write c).write d := by
  obtain ⟨h1, h2, h3⟩ := h
  have hd : ∀ n x m y, n ≠ m → ((r.write (.driver n x)).write (.driver m y)) = (r.write (.driver m y)).write (.driver n x) := by
    intro n x m y hne
    have law : ∀ n x m y, ((r.write (.driver n x)).write (.driver m y)).drivers.wf = true := fun n x m y =>
      (NvRecords.tablesLaw_write (NvRecords.tablesLaw_write ⟨h1, h2, h3⟩ _) _).1
    have he : ((r.write (.driver n x)).write (.driver m y)).drivers = ((r.write (.driver m y)).write (.driver n x)).drivers := by
      refine Assoc.ext_of_wf (law _ _ _ _) (law _ _ _ _) fun i => ?_
      simp only [NvRecords.find_write_driver]
      split_ifs <;> first | rfl | omega
    rw [NvRecords.write_driver (r.write (.driver n x)), NvRecords.write_driver (r.write (.driver m y)), he, NvRecords.write_driver r n x,
      NvRecords.write_driver r m y]
  cases c <;> cases d <;> first
    | (simp [NvContents.keyed] at hc; done)
    | exact hd _ _ _ _ (fun e => hk (by rw [e]; rfl))
    | (simp only [NvRecords.write]; rw [Assoc.put_comm h2 _ _ (fun e => hk (by rw [e]; rfl))])
    | (simp only [NvRecords.write]; rw [Assoc.put_comm h3 _ _ (fun e => hk (by rw [e]; rfl))])
    | (rename_i a _ b _; cases a <;> cases b <;> first | rfl | exact absurd rfl hk)
    | exact absurd rfl hk
    | rfl
    | (rename_i x; cases x <;> rfl)
    | (rename_i x _; cases x <;> rfl)
    | (rename_i x _ _; cases x <;> rfl)

/-- An entry written over another of its key leaves nothing of it, where the key is a record's. -/
theorem NvRecords.write_over {r : NvRecords} (h : r.tablesLaw) {c d : NvContents} (hc : c.keyed = true) (hk : d.key = c.key) :
    (r.write d).write c = r.write c := by
  have hd : ∀ n x y, (r.write (.driver n y)).write (.driver n x) = r.write (.driver n x) := by
    intro n x y
    have he : ((r.write (.driver n y)).write (.driver n x)).drivers = (r.write (.driver n x)).drivers := by
      refine Assoc.ext_of_wf (NvRecords.tablesLaw_write (NvRecords.tablesLaw_write h _) _).1 (NvRecords.tablesLaw_write h _).1 fun i => ?_
      simp only [NvRecords.find_write_driver]
      split_ifs <;> rfl
    rw [NvRecords.write_driver (r.write (.driver n y)), he, NvRecords.write_driver r n y, NvRecords.write_driver r n x]
  cases c <;> cases d <;> simp only [NvContents.key, NvKey.driver.injEq, NvKey.product.injEq, NvKey.recipe.injEq, NvKey.arm.injEq,
    NvKey.injector.injEq, NvKey.pump.injEq, NvKey.bayService.injEq, NvKey.totals.injEq, reduceCtorEq] at hk <;> first
    | (simp [NvContents.keyed] at hc; done)
    | (subst hk; exact hd _ _ _)
    | (subst hk; simp only [NvRecords.write, Assoc.put_put]; done)
    | (subst hk; simp only [NvRecords.write, PerArm.set_set, PerChannel.set_set, PerAdditive.set_set, PerBay.set_set])
    | rfl

/-- The records with the entries of a list written over them, in order. -/
abbrev NvRecords.writeAll (r : NvRecords) (q : List NvEntry) : NvRecords := q.foldl (fun w e => w.write e.contents) r

theorem NvRecords.tablesLaw_writeAll {r : NvRecords} (h : r.tablesLaw) (q : List NvEntry) : (r.writeAll q).tablesLaw := by
  induction q generalizing r with
  | nil => exact h
  | cons e q ih => exact ih (NvRecords.tablesLaw_write h e.contents)

/-- An entry written before others of other keys, or after them. -/
theorem NvRecords.writeAll_write {r : NvRecords} (h : r.tablesLaw) {c : NvContents} (hc : c.keyed = true) {q : List NvEntry}
    (hq : ∀ e ∈ q, e.contents.key ≠ c.key) : (r.write c).writeAll q = (r.writeAll q).write c := by
  induction q generalizing r with
  | nil => rfl
  | cons e q ih =>
    simp only [NvRecords.writeAll, List.foldl_cons]
    rw [← NvRecords.write_comm h hc (hq e (List.mem_cons_self ..))]
    exact ih (NvRecords.tablesLaw_write h _) fun x hx => hq x (List.mem_cons_of_mem _ hx)

/-- What a record's entry, joined to the queue or put in the place of its key, comes to once all is written: its own write last. -/
theorem NvRecords.writeAll_enqueue {r : NvRecords} (h : r.tablesLaw) {e : NvEntry} (hc : e.contents.keyed = true) {q : List NvEntry}
    (hq : (q.map fun o => o.contents.key).Nodup) : r.writeAll (enqueue q e) = (r.writeAll q).write e.contents := by
  have hrel : dropOlderReleases e q = q := by
    unfold dropOlderReleases
    rw [if_neg]
    cases hce : e.contents <;> simp_all [NvContents.keyed, NvContents.isRelease]
  unfold enqueue
  simp only [hrel]
  split
  · rename_i hany
    induction q generalizing r with
    | nil => simp at hany
    | cons o q ih =>
      rw [List.map_cons, List.nodup_cons] at hq
      by_cases ho : o.contents.key = e.contents.key
      · have hne : ∀ x ∈ q, x.contents.key ≠ e.contents.key := fun x hx hk =>
          hq.1 (by rw [ho, ← hk]; exact List.mem_map_of_mem (f := fun o : NvEntry => o.contents.key) hx)
        have hid : q.map e.absorb = q := by
          conv_rhs => rw [← List.map_id q]
          refine List.map_congr_left fun x hx => ?_
          unfold NvEntry.absorb
          rw [if_neg (hne x hx)]
          rfl
        have habs : (e.absorb o).contents = e.contents := by unfold NvEntry.absorb; rw [if_pos ho]
        simp only [NvRecords.writeAll, List.map_cons, List.foldl_cons, hid, habs]
        rw [← NvRecords.write_over h hc ho]
        exact NvRecords.writeAll_write (NvRecords.tablesLaw_write h _) hc hne
      · have habs : e.absorb o = o := by unfold NvEntry.absorb; rw [if_neg ho]
        simp only [NvRecords.writeAll, List.map_cons, List.foldl_cons, habs]
        refine ih (NvRecords.tablesLaw_write h _) hq.2 ?_ ?_
        · unfold dropOlderReleases
          rw [if_neg]
          cases hce : e.contents <;> simp_all [NvContents.keyed, NvContents.isRelease]
        · simpa [ho] using hany
  · simp [NvRecords.writeAll, List.foldl_append]

/-- The choice of the next write changes nothing of what a reset would rebuild. -/
theorem NvController.rebuilt_advance (n : NvController) (arms : List Arm) : (n.advance arms).rebuilt = n.rebuilt := by
  have hb : n.buffer.isSome = true ∨ n.buffer = none := by cases n.buffer <;> simp
  have hcp : ∀ l, (n.checkpointNext l).rebuilt = n.rebuilt := fun l => by cases l <;> rfl
  unfold NvController.advance
  split
  · rfl
  · rename_i hn
    have hnone : n.buffer = none := by
      rcases hb with hb | hb
      · exact absurd (by simp [hb]) hn
      · exact hb
    split
    · rfl
    · split <;> first
        | rfl
        | exact hcp _
        | (rename_i hq; simp [NvController.rebuilt, hnone, hq])

/-- What a reset would rebuild after a record's change is what it would have rebuilt, with that change made last (R163). -/
theorem State.commit_rebuilt {s : State} {c : NvContents} {k : EntryClass} (hc : c.keyed = true) (hs : s.nvc.store.tablesLaw)
    (hq : s.nvc.queueLaw) : (s.commit c k).nvc.rebuilt = s.nvc.rebuilt.write c := by
  have he : NvController.rebuilt { s.nvc with queue := enqueue s.nvc.queue { contents := c, cls := k } } = s.nvc.rebuilt.write c := by
    simp only [NvController.rebuilt, List.foldl_append]
    exact NvRecords.writeAll_enqueue (NvRecords.tablesLaw_writeAll hs _) hc hq.1
  rw [State.commit_nvc]
  split
  · rw [NvController.rebuilt_advance, he]
  · exact he

/-- The same for contents whose key is not queued, a new note's for one. -/
theorem State.commit_rebuilt_of_new {s : State} {c : NvContents} {k : EntryClass} (hr : c.isRelease = false)
    (h : ∀ e ∈ s.nvc.queue, e.contents.key ≠ c.key) : (s.commit c k).nvc.rebuilt = s.nvc.rebuilt.write c := by
  have hq : enqueue s.nvc.queue { contents := c, cls := k } = s.nvc.queue ++ [{ contents := c, cls := k }] := by
    unfold enqueue dropOlderReleases
    simp only [hr, Bool.false_eq_true, if_false]
    rw [if_neg]
    simpa using h
  rw [State.commit_nvc, hq]
  split <;> (try rw [NvController.rebuilt_advance]) <;> simp [NvController.rebuilt]

/-! ### Hand-overs that an event frees (R160, R166) -/

/-- What an event frees, as HAND_OVER commands in arm order: the next state is that of `State.takeFreed`. -/
theorem State.freed_eq (s u : State) : s.freed u = .next (u.takeFreed s) := by
  have h : ∀ (l : List Arm) (t : State),
      execAll ((l.filter fun a => !s.handOverReady a).map Instr.handOver) t =
        .next (l.foldl (fun t a => if !s.handOverReady a && t.handOverReady a then t.handOver a else t) t) := by
    intro l
    induction l with
    | nil => intro t; rfl
    | cons a rest ih =>
      intro t
      cases hs : s.handOverReady a with
      | true => simpa [hs] using ih t
      | false =>
        simp only [hs, List.filter_cons, Bool.not_false, if_true, List.map_cons, List.foldl_cons, Bool.true_and]
        exact ih _
  exact h _ _

end Sys2Proof.Machine
end

