-- ==== Sys2Proof/Laws/Walk.lean ====
section
/-! SUPPORT. The walk of a request's form over its payload: that a form takes a payload of its length, and no other
(R4, R175). -/

namespace Sys2Proof.Machine

variable {α β : Type} {form : Walk α} {f : Walk α} {g : α → Walk β} {m n : Nat}

/-- The form takes `n` bytes of every payload that has them. -/
def Walk.Runs (form : Walk α) (n : Nat) : Prop := ∀ bs : List Byte, n ≤ bs.length → ∃ x, form bs = some (x, bs.drop n)
theorem Walk.runs_byte : Walk.Runs takeByte 1 := by
  intro bs h
  cases bs with
  | nil => simp at h
  | cons b rest => exact ⟨_, rfl⟩
theorem Walk.runs_bytes (n) : Walk.Runs (takeBytes n) n := by
  induction n with
  | zero => intro bs h; exact ⟨[], rfl⟩
  | succ n ih =>
    intro bs h
    cases bs with
    | nil => simp at h
    | cons b rest =>
      obtain ⟨x, hx⟩ := ih rest (by simpa using h)
      exact ⟨b :: x, by simp [takeBytes, hx]⟩
theorem Walk.runs_pure (x : α) : Walk.Runs (pure x : Walk α) 0 := fun bs _ => ⟨x, rfl⟩
theorem Walk.runs_bind (hf : Walk.Runs f m) (hg : ∀ x, Walk.Runs (g x) n) : Walk.Runs (f >>= g) (m + n) := by
  intro bs h
  obtain ⟨x, hx⟩ := hf bs (by omega)
  obtain ⟨y, hy⟩ := hg x (bs.drop m) (by simp; omega)
  exact ⟨y, by simp [bind, StateT.bind, hx, hy]⟩
theorem Walk.runs_nat (w) : Walk.Runs (takeNat w) w := Walk.runs_bind (Walk.runs_bytes w) fun _ => Walk.runs_pure _
theorem Walk.runs_many (hf : Walk.Runs f m) (n : Nat) : Walk.Runs (takeMany f n) (n * m) := by
  induction n with
  | zero => simpa [takeMany] using Walk.runs_pure _
  | succ n ih => 
    unfold takeMany
    have := Walk.runs_bind hf fun x => Walk.runs_bind ih fun rest => Walk.runs_pure (x :: rest)
    rwa [show m + (n * m + 0) = (n+1) * m by ring] at this
theorem Walk.runs_pin : Walk.Runs takePin 9 := 
  Walk.runs_bind Walk.runs_byte fun _ => Walk.runs_bind (Walk.runs_many Walk.runs_byte 8) fun _ => Walk.runs_pure _

/-- A form that takes `n` bytes answers on a payload of that length. -/
theorem Walk.walkPayload_of_length {bs : List Byte} (hl : bs.length = n) (hf : Walk.Runs form n) : ∃ x, walkPayload form bs = some x := by
  obtain ⟨x, hx⟩ := hf bs (by omega)
  refine ⟨x, ?_⟩
  unfold walkPayload
  have : bs.drop n = [] := by rw [List.drop_eq_nil_iff]; omega
  simp [hx, this]

/-- Where the form answers, it has taken `n` bytes. -/
def Walk.Fixed (form : Walk α) (n : Nat) : Prop := ∀ bs x rest, form bs = some (x, rest) → bs.length = n + rest.length
theorem Walk.fixed_byte : Walk.Fixed takeByte 1 := by
  intro bs x rest h
  unfold takeByte at h
  split at h <;> simp_all
  omega
theorem Walk.fixed_bytes (n) : Walk.Fixed (takeBytes n) n := by
  induction n with
  | zero => intro bs x rest h; simp [takeBytes, pure, StateT.pure] at h; simp [h]
  | succ n ih =>
    intro bs x rest h
    simp only [takeBytes] at h
    split at h
    · simp at h
    · simp at h
      obtain ⟨a, h, -⟩ := h
      have := ih _ _ _ h
      simp; omega
theorem Walk.fixed_pure (x : α) : Walk.Fixed (pure x) 0 := by
  intro bs x rest h; simp [pure, StateT.pure] at h; simp [h]
theorem Walk.fixed_bind (hf : Walk.Fixed f m) (hg : ∀ x, Walk.Fixed (g x) n) : Walk.Fixed (f >>= g) (m + n) := by
  intro bs x rest h
  simp only [bind, StateT.bind] at h
  cases hh : f bs with
  | none => simp [hh] at h
  | some p => 
    simp [hh] at h
    have := hf _ _ _ hh
    have := hg _ _ _ _ h
    omega
theorem Walk.fixed_nat (w) : Walk.Fixed (takeNat w) w := by
  unfold takeNat
  exact Walk.fixed_bind (Walk.fixed_bytes w) fun _ => Walk.fixed_pure _
theorem Walk.fixed_many (hf : Walk.Fixed f m) (n : Nat) : Walk.Fixed (takeMany f n) (n * m) := by
  induction n with
  | zero => simpa [takeMany] using Walk.fixed_pure _
  | succ n ih => 
    unfold takeMany
    have := Walk.fixed_bind hf fun x => Walk.fixed_bind ih fun rest => Walk.fixed_pure (x :: rest)
    rwa [show m + (n * m + 0) = (n+1) * m by ring] at this
theorem Walk.fixed_pin : Walk.Fixed takePin 9 := 
  Walk.fixed_bind Walk.fixed_byte fun _ => Walk.fixed_bind (Walk.fixed_many Walk.fixed_byte 8) fun _ => Walk.fixed_pure _
theorem Walk.fixed_int16 : Walk.Fixed takeInt16 2 := 
  Walk.fixed_bind (Walk.fixed_nat 2) fun _ => Walk.fixed_pure _

end Sys2Proof.Machine
end

