-- ==== Sys2Proof/WellFormed.lean ====
section
/-! DEFINITION. Which commands the outside can send: a converter count fits 16 bits (R32), strap values fit their three
lines (R1, R7). Every other operand is of a type with no value to shut out. -/

namespace Sys2Proof

/-- Three strap lines give a value 0 to 7 (R1, R7). -/
def ResetLines.wellFormed (r : ResetLines) : Bool :=
  Link.all.all (fun l => r.roleStraps.get l ≤ 7) && r.baudStrap ≤ 7

/-- The command is one that the part's lines and converter can give. -/
def Instr.wellFormed : Instr → Bool
  | .meteringIntervalEnd _ raw _ => raw ≤ 65535
  | .externalReset lines => lines.wellFormed
  | .powerOnReset lines => lines.wellFormed
  | .identify _ | .readStatus _ | .readBay _ | .readArm _ | .readClock _ | .unknownRequest _ => true
  | .card _ | .pin _ | .selectOrder _ | .markFirst _ | .markLast _ | .exclude _ | .commitPlan _ | .newPlan _ => true
  | .start _ | .stop _ | .resume _ | .ackCause _ | .finish _ | .signOff _ => true
  | .writeDriver _ | .deleteDriver _ | .resetPin _ | .readDriver _ | .writeOrder _ | .deleteOrder _ => true
  | .readOrder _ | .cancelOrder _ | .writeRecipe _ | .setBayService _ | .officeStop _ | .officeRelease _ => true
  | .setStock _ | .readStock _ | .readNote _ | .releaseNote _ | .setClock _ => true
  | .writeProduct _ | .writeArm _ | .writeInjector _ | .writePump _ | .writeRack _ | .readAudit _ => true
  | .characterReceived _ _ _ | .gapTimeout _ | .responseSent _ => true
  | .discreteLineChange _ _ | .debounceExpiry _ | .stuckTimerExpiry _ | .productMeterEdge _ _ _ | .additivePulse _ => true
  | .shotTimerExpiry _ | .restTimerExpiry _ | .closingTimerExpiry _ | .noFlowTimerExpiry _ | .pauseTimerExpiry _ => true
  | .pinTimerExpiry _ | .inactivityTimerExpiry _ | .deadmanTimerExpiry _ => true
  | .handOver _ | .nvWriteComplete | .checkpointWriteComplete | .checkpointAreaCleared => true
  | .powerFailWarningAssert _ | .powerFailWarningDeassert | .rackClockTick | .resetAsserted => true
  | .restorationComplete | .mainPowerLoss | .backupSupplyRanFlat => true

end Sys2Proof
end

