-- ==== Sys2Proof/Tests/Slice0.lean ====
section
/-! SUPPORT. Tests: the checks of WellFormed refuse what they must; the worked examples of the manual; and for each obligation
with hypotheses a state and operands that meet them all (`witness_…`, one for each of its clauses). -/

open Sys2Proof Sys2Proof.Machine

namespace Sys2Proof.Tests

-- Each proof is checked before the next is read: proofs by evaluation side by side would each hold a thread of their own.
set_option Elab.async false

/-! ### The states of the tests -/

/-- Straps OFFICE, bay A panel, bay B panel, SERVICE. -/
def lines : ResetLines := { ResetLines.allLow with roleStraps := { sl0 := 1, sl1 := 2, sl2 := 3, sl3 := 4 } }

/-- The part as it runs after a power-on reset with those straps and a blank store. -/
def base : State :=
  match exec (.powerOnReset lines) State.reset with
  | .next s => { s with condition := .running, ic := { s.ic with warning := false } }
  | .fault _ => State.reset
  | .refused _ => State.reset

/-- A request pending on a link. -/
def ask (s : State) (l : Link) (code : Byte) (payload : List Byte) : State :=
  s.modifyLink l fun k => { k with slot := .pending { tag := 7, code := code, payload := payload } }

/-- That request. -/
def req (code : Byte) (payload : List Byte) : Request := { tag := 7, code := code, payload := payload }

/-- A driver record. -/
def driver : DriverRecord := { pin := [1, 2, 3, 4], status := .active, failed := 0, classes := [1], expiry := none }

/-- A compartment of the order of the tests. -/
def compartment : Compartment :=
  { number := 1, product := 1, planned := 100, basis := .gross, recipe := some 3, status := .pending, deliveredGross := 0
    deliveredNet := 0, loadingArm := none, statusBefore := none }

/-- An order with that compartment. -/
def order (state : OrderState) (holding : Option Bay) : Order :=
  { driver := none, vehicle := [65], bay := none, compartments := [compartment], state := state, holding := holding
    cancelPending := false }

/-- The level each input has accepted in the tests: every one energized but the buttons, whose lines have just risen. -/
def settledLevel : DiscreteInput → LineLevel
  | .deadman _ => .deenergized
  | .permissive _ _ | .parked _ | .emergencyStop | .sealSwitch => .energized

/-- A rack set up: driver 5, product 1, recipe 3, arm 0 commissioned, channel 0 and stock for additive type 1, every
permissive present, the seal open, the clock set. -/
def setup : State :=
  { base with
    lc := { base.lc with clock := { count := 1000, isSet := true } }
    ic :=
      { base.ic with
        inputs := .tabulate fun i =>
          { line := .energized, accepted := settledLevel i
            settled := true, timing := false } }
    wc :=
      { base.wc with
        drivers := [(1, driver), (5, driver), (99999999, driver)], products := [(1, { cls := 1, alpha := 9500, fallback := 1500 })]
        recipes := [(3, { product := 1, lines := [{ additive := .type1, dose := 250 }], tolerance := 50 })]
        arms := base.wc.arms.set .arm0
          { ArmRecord.blank with
            product := 1, kMilli := some 100000, offset := -5000, span := 15000
            mf := { first := { rate := 600, mf := 100120 }, rest := [{ rate := 1200, mf := 100040 }] } }
        injectors := base.wc.injectors.set .ch0 { InjectorRecord.blank with additive := some .type1 }
        stock := base.wc.stock.set .type1 { stock := 1000, capacity := 2000, reserve := 100 } } }

/-- Bay A in a state of its session, driver 5 bound to it. -/
def session (status : BayStatus) : State :=
  { setup with
    pt := { bound := [(5, .bayA)] }
    bsc := setup.bsc.set .bayA { setup.bsc.bayA with status := status, driver := some 5 } }

/-- Bay A in PLANNING or LOADING with order 9 held and compartment 1 on its Plan List. -/
def holding (status : BayStatus) : State :=
  { session status with
    ob := { orders := [(9, order .held (some .bayA))] }
    bsc := (session status).bsc.set .bayA { (session status).bsc.bayA with order := some 9, plan := [1] } }

/-- A running compartment record of arm 0 with a running gross. -/
def record (gross : Nat) : Running :=
  { metering :=
      { openGross := 0, openNet := 0, gross := gross, net := gross, weighted := 0, pulseErrors := 0, reverse := 0
        phase := .sampling, tempSubstituted := false, probeFault := false, vcfClamped := false, pulseErrorsSeen := false }
    flow :=
      { bay := .bayA, order := 9, compartment := 1, preset := 1000000, basis := .gross, endReason := none, overrun := false }
    lines := [{ additive := .type1, dose := 250, channel := .ch0, requested := 0, injected := 0 }]
    note :=
      { bay := .bayA, driver := 5, order := 9, vehicle := [65], compartment := 1, product := 1, recipe := some 3
        preset := 1000, startTime := none } }

/-- Arm 0 of a LOADING bay A in a state, with its record. -/
def loading (state : ArmState) (gross : Nat) : State :=
  { holding .loading with
    fc := (holding .loading).fc.set .arm0 { (holding .loading).fc.arm0 with state := state }
    running := (holding .loading).running.set .arm0 (some (record gross))
    me := (holding .loading).me.set .arm0 { (holding .loading).me.arm0 with gross := gross, net := gross }
    ns := { reserved := (PerArm.const false).set .arm0 true, held := .const false }
    bsc :=
      if state.flowing then
        (holding .loading).bsc.set .bayA { (holding .loading).bsc.bayA with deadmanTimer := some 120000 }
      else (holding .loading).bsc
    adu :=
      { (holding .loading).adu with
        channels := (holding .loading).adu.channels.set .ch0 { ChannelState.fresh 0 with serving := some 0 } } }

/-! ### WellFormed refuses -/

theorem test_raw_count_above_16_bits_is_refused :
    (Instr.meteringIntervalEnd .arm0 65536 .flowFirst).wellFormed = false ∧
      (Instr.meteringIntervalEnd .arm0 65535 .flowFirst).wellFormed = true := by decide
theorem test_role_strap_above_7_is_refused :
    (Instr.powerOnReset { lines with roleStraps := .const 8 }).wellFormed = false ∧
      (Instr.powerOnReset lines).wellFormed = true := by decide
theorem test_baud_strap_above_7_is_refused :
    (Instr.externalReset { lines with baudStrap := 8 }).wellFormed = false := by decide

/-! ### The manual's own numbers -/

/-- The parameters of the worked interval (06, One interval at full rate). -/
def workedParameters : MeterParameters :=
  { kMilli := some 100000, mf := { first := { rate := 600, mf := 100120 }, rest := [{ rate := 1200, mf := 100040 }] }
    offset := -5000, span := 15000, atcRequired := true, alpha := 9500, fallback := 1500 }
/-- The channel before the worked interval. -/
def workedChannel : MeteringChannel :=
  { MeteringChannel.blank with rateWindow := [4170, 4170, 4170, 0], temperatures := [2450, 2450, 2450] }
/-- What the Input Conditioner hands over in it. -/
def workedHandover : Handover := { nA := 417, nB := 417, reverse := 0, mark := false, raw := 32550 }
/-- The worked interval. -/
def workedInterval (m : MeteringChannel) : MeteringChannel :=
  (meterInterval workedParameters m (some { (record 0).metering with phase := .sampling }) workedHandover).channel

/-- 06, the table of stages: raw, rate, gross, temperature and net. -/
theorem test_worked_interval :
    let m := workedInterval workedChannel
    m.rateWindow.head? = some 4170 ∧ m.rate = 1000 ∧ m.gross = 4172 ∧ m.grossResidue = 79390
      ∧ m.shownTemperature = some 2450 ∧ m.net = 4134 ∧ m.netResidue = 7652 := by decide +kernel
/-- 06, The next interval: residues at work. -/
theorem test_next_worked_interval :
    let m := workedInterval (workedInterval workedChannel)
    m.gross = 8345 ∧ m.grossResidue = 58780 ∧ m.net = 8269 ∧ m.netResidue = 14395 := by decide +kernel
/-- 06, stage 4 and stage 6 of the worked interval. -/
theorem test_worked_factor_and_temperature :
    workedParameters.mfAt 1000 = 100067 ∧ workedParameters.temperature 32550 = 2450 := by decide +kernel
/-- 06, stage 7, and Corrections at the edges: the cold product and the clamp. -/
theorem test_correction_factors :
    vcf 9500 2450 = 99091 ∧ vcf 9500 (-1000) = 102330 ∧ vcf 20000 6900 = 90000 ∧ vcfIsClamped 20000 6900 = true := by
  decide +kernel
/-- 06, Closing figures of a short compartment. -/
theorem test_whole_litres : litres 9542 = 10 ∧ litres 3412499 = 3412 ∧ litres 3412500 = 3413 := by decide
/-- 06, Product on an idle arm: the counter passes 5,000 mL once. -/
theorem test_unauthorized_flow_is_raised_once :
    let h : Handover := { workedHandover with nA := 26, nB := 26 }
    let r := meterInterval { workedParameters with kMilli := none } { MeteringChannel.blank with unauthorized := 4800 } none h
    let r' := meterInterval { workedParameters with kMilli := none } { MeteringChannel.blank with unauthorized := 5060 } none h
    r.channel.unauthorized = 5060 ∧ r.unauthorized = true ∧ r'.unauthorized = false := by decide +kernel
/-- 07, the example after R113: OPEN below 1,760, CLOSE above 1,840, HOLD between. -/
theorem test_regulate :
    regulate 1800 40 1759 = .openValve ∧ regulate 1800 40 1760 = .hold ∧ regulate 1800 40 1840 = .hold
      ∧ regulate 1800 40 1841 = .close := by decide
/-- 07, Closing and learning the lead: 20,000 to 11,050 to 7,100. -/
theorem test_learned_lead :
    learnedLead 20000 50000 (-17900) = 11050 ∧ learnedLead 11050 50000 (-7900) = 7100 ∧ learnedLead 0 50000 12000 = 6000 := by
  decide
/-- 07, the thresholds of the same sequence. -/
theorem test_implied_stage :
    let r : ArmRecord := { ArmRecord.blank with startVolume := 300, topOffVolume := 400 }
    impliedStage r 20000 5000000 299999 = .lowStart ∧ impliedStage r 20000 5000000 300000 = .highFlow
      ∧ impliedStage r 20000 5000000 4600000 = .topOff ∧ impliedStage r 20000 5000000 4980000 = .closing := by decide
/-- 08, The deviation check: due shots, −8 permille, and −133 permille past the tolerance. -/
theorem test_deviation :
    let x : NoteLine := { additive := .type2, required := 2250, injected := 2231, shots := 45 }
    dueShots 9003400 250 50 = 45 ∧ x.deviation = -8 ∧ x.deviates 50 = false
      ∧ ({ x with injected := 1950 } : NoteLine).deviation = -133 ∧ ({ x with injected := 1950 } : NoteLine).deviates 50 = true := by
  decide
/-- R12's table, four corners. -/
theorem test_whom_events_concern :
    FlagEvent.stockLow.concerns .sl1 (.panel .bayA) = false ∧ (FlagEvent.bayChanged .bayA).concerns .sl1 (.panel .bayA) = true
      ∧ (FlagEvent.bayChanged .bayB).concerns .sl1 (.panel .bayA) = false
      ∧ (FlagEvent.inputChanged .sealSwitch).concerns .sl3 .service = true := by decide
/-- The characters 1 to 9 under R1's generator, start and lack of inversion give 0x29B1, the value published for that CRC. -/
theorem test_crc : crcOf [0x31, 0x32, 0x33, 0x34, 0x35, 0x36, 0x37, 0x38, 0x39] = 0x29B1#16 := by
  decide +kernel
/-- After note 999,999 comes note 1 (R153). -/
theorem test_note_number_wraps : noteNumberAfter 999999 = 1 ∧ noteNumberAfter 999998 = 999999 := by decide
/-- The forms of R176 with a fixed length have the sum of their fields. -/
theorem test_rack_form : (walkPayload formWriteRack (List.replicate 33 0)).isSome = true ∧ walkPayload formWriteRack (List.replicate 32 0) = none := by
  decide

/-! ### Single commands -/

/-- The state a command leaves. -/
def after (o : Host.Outcome State Fault Refusal) : Option State :=
  match o with
  | .next t => some t
  | .fault _ => none
  | .refused _ => none

/-- A power-on reset of a new device with every line low is the model's reset state (R173, log 5). -/
theorem test_new_device_is_reset :
    after (exec (.powerOnReset .allLow)
      { State.reset with condition := .unpowered, nvc := { State.reset.nvc with formatMark := false } }) = some State.reset := by
  decide +kernel
/-- The command at the front runs, and the rest waits. -/
theorem test_step :
    (after (step { base with pending := [.rackClockTick, .mainPowerLoss] })).map (fun t => (t.lc.clock.count, t.pending)) =
      some (1, [.mainPowerLoss]) := by decide +kernel
/-- Two links strapped for one panel: the lower-numbered takes it, the other is UNUSED with ROLE_CONFLICT (R7). -/
theorem test_role_conflict :
    (after (exec (.powerOnReset { lines with roleStraps := { sl0 := 2, sl1 := 2, sl2 := 3, sl3 := 4 } }) State.reset)).map
      (fun t => (t.lc.links.sl0.role, t.lc.links.sl1.role, t.lc.links.sl1.flags.roleConflict)) =
        some (.panel .bayA, .unused, true) := by decide +kernel
/-- DUAL mode: a rising A with B high counts in reverse (R27). -/
theorem test_reverse_edge :
    let s : State := { setup with wc := { setup.wc with arms := setup.wc.arms.set .arm0 { setup.wc.arms.arm0 with mode := .dual } } }
    (after (exec (.productMeterEdge .arm0 .lineA .energized) s)).map (fun t => t.ic.meters.arm0.counts) =
      some { nA := 0, nB := 0, reverse := 1 } := by decide +kernel
/-- PERMISSIVE_LOST pauses a flowing arm of the bay and closes its valve (R112, R117, R122). -/
theorem test_permissive_lost :
    let s := (loading .highFlow 500000).setInput (.permissive .ground .bayA)
      { line := .deenergized, accepted := .energized, settled := true, timing := true }
    (after (exec (.debounceExpiry (.permissive .ground .bayA)) s)).map
      (fun t => (t.fc.arm0.state, t.fc.arm0.command, t.fc.arm0.causes, t.lc.links.sl1.flags.causeRaised)) =
        some (.paused, .close, [.permissiveLost], true) := by decide +kernel

/-! ### Witnesses: a state and operands that meet the hypotheses of each statement

Named `witness_<statement>`, with a letter for each of its clauses; the statement's boundary values stand in the lists. -/

theorem witness_StepTakesTheFrontCommand : State.reset.pending = [] := rfl
theorem witness_RequestWithoutItsFrameChangesNothing_a :
    (Instr.identify .sl0).request = some (.sl0, 0x01#8, .basic) ∧
      ¬(base.condition = .running ∧ base.ic.warning = false ∧
        ∃ r, (base.lc.links.get .sl0).slot = .pending r ∧ r.code = 0x01#8) :=
  ⟨rfl, fun h => by
    obtain ⟨-, -, r, h, -⟩ := h
    rw [show (base.lc.links.get .sl0).slot = .empty by decide +kernel] at h
    cases h⟩
theorem witness_RequestWithoutItsFrameChangesNothing_b :
    ¬((ask base .sl0 0x01#8 []).condition = .running ∧ (ask base .sl0 0x01#8 []).ic.warning = false ∧
        ∃ r, ((ask base .sl0 0x01#8 []).lc.links.get .sl0).slot = .pending r ∧ knownCode r.code = false) := fun h => by
  obtain ⟨-, -, r, h, hk⟩ := h
  rw [show ((ask base .sl0 0x01#8 []).lc.links.get .sl0).slot = .pending (req 0x01#8 []) by decide +kernel] at h
  cases h
  revert hk
  decide
theorem witness_LinkControllerRefusals_code :
    ∀ code ∈ [0x00#8, 0x06#8, 0x1F#8, 0x2E#8, 0x3F#8, 0x51#8, 0x5F#8, 0x66#8, 0xFF#8],
      (ask base .sl0 code []).condition = .running ∧ (ask base .sl0 code []).ic.warning = false
        ∧ ((ask base .sl0 code []).lc.links.get .sl0).slot = .pending (req code [])
        ∧ ((req code []).code.toNat = 0x00 ∨ (0x05 < (req code []).code.toNat ∧ (req code []).code.toNat < 0x20)
          ∨ (0x2D < (req code []).code.toNat ∧ (req code []).code.toNat < 0x40)
          ∨ (0x50 < (req code []).code.toNat ∧ (req code []).code.toNat < 0x60) ∨ 0x65 < (req code []).code.toNat) := by
  decide +kernel
theorem witness_LinkControllerRefusals_role :
    (∀ b, ((ask base .sl0 0x20#8 []).lc.links.get .sl0).role ≠ .panel b)
      ∧ ((ask base .sl0 0x20#8 []).lc.links.get .sl0).slot = .pending (req 0x20#8 [])
      ∧ (Instr.card .sl0).request = some (.sl0, 0x20#8, .bay)
      ∧ ((ask base .sl3 0x40#8 []).lc.links.get .sl3).role ≠ .office
      ∧ (Instr.writeDriver .sl3).request = some (.sl3, 0x40#8, .office)
      ∧ ((ask base .sl0 0x60#8 []).lc.links.get .sl0).role ≠ .service
      ∧ (Instr.writeProduct .sl0).request = some (.sl0, 0x60#8, .service)
      ∧ base.condition = .running ∧ base.ic.warning = false :=
  ⟨fun b => by cases b <;> decide +kernel, by decide +kernel⟩
theorem witness_LinkControllerRefusals_format :
    ∀ p ∈ [[], [0, 0, 0], [0, 0, 0, 0, 0]],
      (Instr.card .sl1).request = some (.sl1, 0x20#8, .bay) ∧ (Instr.card .sl1).fixedLength = some 4
        ∧ (ask base .sl1 0x20#8 p).condition = .running ∧ (ask base .sl1 0x20#8 p).ic.warning = false
        ∧ ((ask base .sl1 0x20#8 p).lc.links.get .sl1).slot = .pending (req 0x20#8 p)
        ∧ RequestClass.bay.mayIssue ((ask base .sl1 0x20#8 p).lc.links.get .sl1).role = true
        ∧ (req 0x20#8 p).payload.length ≠ 4 := by decide +kernel
theorem witness_BasicRequestsRead_a :
    (ask base .sl3 0x01#8 []).asks .sl3 (req 0x01#8 []) 0x01#8 formEmpty ()
      ∧ (ask base .sl3 0x02#8 []).asks .sl3 (req 0x02#8 []) 0x02#8 formEmpty ()
      ∧ (ask base .sl3 0x05#8 []).asks .sl3 (req 0x05#8 []) 0x05#8 formEmpty () := by
  unfold State.asks; decide +kernel
theorem witness_BasicRequestsRead_b :
    (∀ n ∈ [0, 1], (ask base .sl0 0x03#8 (natBytes 1 n)).asks .sl0 (req 0x03#8 (natBytes 1 n)) 0x03#8 formByte n)
      ∧ Bay.ofNat? 0 = some .bayA ∧ Bay.ofNat? 1 = some .bayB
      ∧ (ask base .sl0 0x03#8 [2]).asks .sl0 (req 0x03#8 [2]) 0x03#8 formByte 2
      ∧ (∀ n ∈ [0, 3], (ask base .sl0 0x04#8 (natBytes 1 n)).asks .sl0 (req 0x04#8 (natBytes 1 n)) 0x04#8 formByte n)
      ∧ Arm.ofNat? 0 = some .arm0 ∧ Arm.ofNat? 3 = some .arm3
      ∧ (ask base .sl0 0x04#8 [4]).asks .sl0 (req 0x04#8 [4]) 0x04#8 formByte 4 := by
  unfold State.asks; decide +kernel
/-- Notes of these numbers, oldest first. -/
def noted (numbers : List Nat) : State :=
  { setup with
    wc :=
      { setup.wc with
        notes := numbers.map fun n => (record 1000).toNote { setup.wc with nextNote := n } .arm0 .complete none { gross := 0, net := 0 } false } }
theorem witness_StatusWordAndOutputs :
    (noted (List.range 64)).wc.notes.length ≤ 64 ∧ base.condition = .running ∧ State.reset.condition = .restoring
      ∧ ({ base with condition := .heldInReset } : State).condition = .heldInReset
      ∧ ({ base with condition := .unpowered } : State).condition = .unpowered := by decide +kernel
/-- A state whose driver 1 expires on a day, with the Rack Clock on day 1. -/
def expiring (day : Nat) : State :=
  { setup with
    lc := { setup.lc with clock := { count := 86400, isSet := true } }
    wc := { setup.wc with drivers := [(1, { driver with expiry := some day })] } }
theorem witness_CardBindsOrIsRefused_a :
    ∀ n ∈ [1, 99999999],
      (ask setup .sl1 0x20#8 (natBytes 4 n)).asksAs (.panel .bayA) .sl1 (req 0x20#8 (natBytes 4 n)) 0x20#8 formLong n
        ∧ ((ask setup .sl1 0x20#8 (natBytes 4 n)).bsc.get .bayA).status = .locked
        ∧ (ask setup .sl1 0x20#8 (natBytes 4 n)).wc.drivers.find n = some driver ∧ driver.status = .active
        ∧ driver.expiry = none ∧ (ask setup .sl1 0x20#8 (natBytes 4 n)).boundBay n = none := by
  unfold State.asksAs State.asks; decide +kernel
/-- The last day a driver may enter, and the first he may not. -/
theorem witness_CardBindsOrIsRefused_b :
    (∀ d ∈ [0, 1], (ask (expiring d) .sl1 0x20#8 [0, 0, 0, 1]).asksAs (.panel .bayA) .sl1 (req 0x20#8 [0, 0, 0, 1]) 0x20#8 formLong 1
        ∧ ((expiring d).bsc.get .bayA).status = .locked
        ∧ (expiring d).wc.drivers.find 1 = some { driver with expiry := some d } ∧ (expiring d).lc.clock.isSet = true)
      ∧ (expiring 1).lc.clock.count / 86400 ≤ 1 ∧ 0 < (expiring 0).lc.clock.count / 86400 := by
  unfold State.asksAs State.asks; decide +kernel
theorem witness_CardBindsOrIsRefused_c :
    (∀ n ∈ [0, 100000000, 2],
      (ask setup .sl1 0x20#8 (natBytes 4 n)).asksAs (.panel .bayA) .sl1 (req 0x20#8 (natBytes 4 n)) 0x20#8 formLong n
        ∧ ((ask setup .sl1 0x20#8 (natBytes 4 n)).bsc.get .bayA).status = .locked)
      ∧ setup.wc.drivers.find 2 = none
      ∧ (let s : State := { setup with wc := { setup.wc with drivers := [(1, { driver with status := .blocked })] } }
        (ask s .sl1 0x20#8 [0, 0, 0, 1]).asksAs (.panel .bayA) .sl1 (req 0x20#8 [0, 0, 0, 1]) 0x20#8 formLong 1
          ∧ s.wc.drivers.find 1 = some { driver with status := .blocked })
      ∧ (let s : State := { setup with pt := { bound := [(1, .bayB)] } }
        (ask s .sl1 0x20#8 [0, 0, 0, 1]).asksAs (.panel .bayA) .sl1 (req 0x20#8 [0, 0, 0, 1]) 0x20#8 formLong 1
          ∧ s.wc.drivers.find 1 = some driver ∧ driver.expiry = none ∧ s.boundBay 1 ≠ none) := by
  unfold State.asksAs State.asks; decide +kernel
/-- A bay request of an empty payload, with the bay's state. -/
theorem witness_BayRequestOutOfStateIsRefused :
    (∀ st ∈ [BayStatus.ident, .planning, .outOfService],
      ((ask (session st) .sl1 0x20#8 [0, 0, 0, 1]).lc.links.get .sl1).slot = .pending (req 0x20#8 [0, 0, 0, 1])
        ∧ (Instr.card .sl1).request = some (.sl1, 0x20#8, .bay) ∧ (Instr.card .sl1).fixedLength = some 4
        ∧ ((session st).lc.links.get .sl1).role = .panel .bayA ∧ ((session st).bsc.get .bayA).status ≠ .locked)
      ∧ (∀ st ∈ [BayStatus.signed, .planning],
        ((ask (session st) .sl1 0x27#8 []).lc.links.get .sl1).slot = .pending (req 0x27#8 [])
        ∧ (Instr.newPlan .sl1).request = some (.sl1, 0x27#8, .bay) ∧ (Instr.newPlan .sl1).fixedLength = some 0
        ∧ Instr.newPlan .sl1 ∈ [Instr.newPlan .sl1, .start .sl1, .stop .sl1, .resume .sl1, .ackCause .sl1, .finish .sl1]
        ∧ ((session st).bsc.get .bayA).status ≠ .loading)
      ∧ (Instr.markFirst .sl1).request = some (.sl1, 0x23#8, .bay) ∧ (Instr.markFirst .sl1).fixedLength = some 1
      ∧ ((ask (session .loading) .sl1 0x23#8 [1]).lc.links.get .sl1).slot = .pending (req 0x23#8 [1])
      ∧ ((ask (session .loading) .sl1 0x22#8 [0, 0, 0, 9]).lc.links.get .sl1).slot = .pending (req 0x22#8 [0, 0, 0, 9])
      ∧ (Instr.selectOrder .sl1).request = some (.sl1, 0x22#8, .bay) ∧ (Instr.selectOrder .sl1).fixedLength = some 4
      ∧ (session .loading).condition = .running ∧ (session .loading).ic.warning = false :=
  ⟨by decide +kernel, by decide +kernel, by decide +kernel⟩
/-- Bay A in IDENT with a failed-attempt count. -/
def failing (failed : Nat) : State :=
  { session .ident with wc := { setup.wc with drivers := [(5, { driver with failed := failed })] } }
theorem witness_PinSignsInOrCounts_a :
    ∀ k ∈ [0, 2],
      (ask (failing k) .sl1 0x21#8 [4, 1, 2, 3, 4, 0, 0, 0, 0]).asksAs (.panel .bayA) .sl1
        (req 0x21#8 [4, 1, 2, 3, 4, 0, 0, 0, 0]) 0x21#8 takePin { count := 4, digits := [1, 2, 3, 4, 0, 0, 0, 0] }
        ∧ ((failing k).bsc.get .bayA).status = .ident ∧ (∀ x ∈ [1, 2, 3, 4, 0, 0, 0, 0].take 4, x ≤ 9)
        ∧ ((failing k).bsc.get .bayA).driver = some 5
        ∧ (failing k).wc.drivers.find 5 = some { driver with failed := k } ∧ (failing k).nvc.queue.length < 8
        ∧ 4 = driver.pin.length ∧ [1, 2, 3, 4, 0, 0, 0, 0].take 4 = driver.pin := by
  unfold State.asksAs State.asks; decide +kernel
theorem witness_PinSignsInOrCounts_b :
    (∀ p ∈ [[1, 9, 2, 3, 4, 0, 0, 0, 0], [8, 1, 2, 3, 4, 0, 0, 0, 0], [4, 1, 2, 3, 5, 0, 0, 0, 0]],
      (ask (failing 1) .sl1 0x21#8 p).asksAs (.panel .bayA) .sl1 (req 0x21#8 p) 0x21#8 takePin
        { count := (p.headD 0).toNat, digits := p.tail.map BitVec.toNat }
        ∧ ((p.headD 0).toNat ≠ driver.pin.length ∨ (p.tail.map BitVec.toNat).take (p.headD 0).toNat ≠ driver.pin)
        ∧ ∀ x ∈ (p.tail.map BitVec.toNat).take (p.headD 0).toNat, x ≤ 9)
      ∧ (failing 1).wc.rack.attemptLimit = 3 ∧ 1 + 1 < (failing 1).wc.rack.attemptLimit
      ∧ (failing 2).wc.rack.attemptLimit ≤ 2 + 1 ∧ (failing 2).wc.drivers.find 5 = some { driver with failed := 2 } := by
  unfold State.asksAs State.asks; decide +kernel
/-- Bay A in a state of its session, with an order table. -/
def selecting (status : BayStatus) (held : Option Nat) (orders : Assoc Order) : State :=
  { session status with
    ob := { orders := orders }
    bsc := (session status).bsc.set .bayA { (session status).bsc.bayA with order := held } }
theorem witness_OrderIsSelectedOrRefused_a :
    ∀ n ∈ [1, 9999999],
      (ask (selecting .signed none [(n, order .opened none)]) .sl1 0x22#8 (natBytes 4 n)).asksAs (.panel .bayA) .sl1
        (req 0x22#8 (natBytes 4 n)) 0x22#8 formLong n
        ∧ (selecting .signed none [(n, order .opened none)]).ob.orders.find n = some (order .opened none)
        ∧ (order .opened none).state = .opened ∧ (order .opened none).driver = none ∧ (order .opened none).bay = none
        ∧ ((selecting .signed none [(n, order .opened none)]).bsc.get .bayA).status = .signed
        ∧ ((selecting .signed none [(n, order .opened none)]).bsc.get .bayA).order = none := by
  unfold State.asksAs State.asks; decide +kernel
theorem witness_OrderIsSelectedOrRefused_b :
    let s := selecting .planning (some 9) [(8, order .opened none), (9, order .held (some .bayA))]
    (∀ n ∈ [8, 9], (ask s .sl1 0x22#8 (natBytes 4 n)).asksAs (.panel .bayA) .sl1 (req 0x22#8 (natBytes 4 n)) 0x22#8 formLong n)
      ∧ (s.bsc.get .bayA).status = .planning ∧ (s.bsc.get .bayA).order = some 9
      ∧ s.ob.orders.find 9 = some (order .held (some .bayA)) ∧ s.ob.orders.find 8 = some (order .opened none) := by
  unfold State.asksAs State.asks; decide +kernel
theorem witness_OrderIsSelectedOrRefused_checks :
    let s := selecting .signed none [(1, order .held (some .bayB)), (2, order .cancelled none), (3, order .complete none),
      (4, { order .opened none with driver := some 6 }), (5, { order .opened none with bay := some .bayB })]
    (∀ n ∈ [0, 10000000, 6, 1, 2, 3, 4, 5],
      (ask s .sl1 0x22#8 (natBytes 4 n)).asksAs (.panel .bayA) .sl1 (req 0x22#8 (natBytes 4 n)) 0x22#8 formLong n)
      ∧ (s.bsc.get .bayA).status = .signed ∧ (s.bsc.get .bayA).driver = some 5 ∧ s.ob.orders.find 6 = none := by
  unfold State.asksAs State.asks; decide +kernel
/-- Bay A in PLANNING with a selection. -/
def marking (first last : Option Nat) (excluded : List Nat) : State :=
  { holding .planning with
    bsc := (holding .planning).bsc.set .bayA
      { (holding .planning).bsc.bayA with plan := [], selection := { first := first, last := last, excluded := excluded } } }
theorem witness_SelectionIsMarkedOrReset_a :
    (∀ c ∈ [1, 8],
      (ask (marking none none []) .sl1 0x23#8 (natBytes 1 c)).asksAs (.panel .bayA) .sl1 (req 0x23#8 (natBytes 1 c)) 0x23#8 formByte c
      ∧ (ask (marking (some 1) none []) .sl1 0x24#8 (natBytes 1 c)).asksAs (.panel .bayA) .sl1 (req 0x24#8 (natBytes 1 c)) 0x24#8
        formByte c
      ∧ (ask (marking (some 1) (some 8) [2, 3, 4, 5, 6]) .sl1 0x25#8 (natBytes 1 c)).asksAs (.panel .bayA) .sl1
        (req 0x25#8 (natBytes 1 c)) 0x25#8 formByte c)
      ∧ ((marking none none []).bsc.get .bayA).status = .planning ∧ [2, 3, 4, 5, 6].length < 6 := by
  unfold State.asksAs State.asks; decide +kernel
theorem witness_SelectionIsMarkedOrReset_b :
    (∀ c ∈ [0, 9, 1, 8],
      (ask (marking (some 2) none []) .sl1 0x23#8 (natBytes 1 c)).asksAs (.panel .bayA) .sl1 (req 0x23#8 (natBytes 1 c)) 0x23#8
        formByte c
      ∧ (ask (marking (some 2) none []) .sl1 0x24#8 (natBytes 1 c)).asksAs (.panel .bayA) .sl1 (req 0x24#8 (natBytes 1 c)) 0x24#8
        formByte c
      ∧ (ask (marking (some 2) (some 7) [2, 3, 4, 5, 6, 7]) .sl1 0x25#8 (natBytes 1 c)).asksAs (.panel .bayA) .sl1
        (req 0x25#8 (natBytes 1 c)) 0x25#8 formByte c)
      ∧ (ask (marking (some 2) none []) .sl1 0x26#8 []).asksAs (.panel .bayA) .sl1 (req 0x26#8 []) 0x26#8 formEmpty ()
      ∧ ((marking (some 2) none []).bsc.get .bayA).status = .planning := by
  unfold State.asksAs State.asks; decide +kernel
/-- COMMIT_PLAN with something to load, and with the only compartment excluded. -/
theorem witness_PlansAreCommittedAndCleared_a :
    (∀ e ∈ [[], [1]],
      (ask (marking (some 1) (some 1) e) .sl1 0x26#8 []).asksAs (.panel .bayA) .sl1 (req 0x26#8 []) 0x26#8 formEmpty ()
      ∧ ((marking (some 1) (some 1) e).bsc.get .bayA).status = .planning
      ∧ ((marking (some 1) (some 1) e).bsc.get .bayA).order = some 9)
      ∧ (marking (some 1) (some 1) []).ob.orders.find 9 = some (order .held (some .bayA))
      ∧ (marking (some 1) (some 1) []).skipped .bayA compartment = false := by
  unfold State.asksAs State.asks; decide +kernel
theorem witness_PlansAreCommittedAndCleared_b :
    (ask (holding .loading) .sl1 0x27#8 []).asksAs (.panel .bayA) .sl1 (req 0x27#8 []) 0x27#8 formEmpty ()
      ∧ (ask (loading .paused 0) .sl1 0x27#8 []).asksAs (.panel .bayA) .sl1 (req 0x27#8 []) 0x27#8 formEmpty ()
      ∧ ((holding .loading).bsc.get .bayA).status = .loading ∧ ((loading .paused 0).bsc.get .bayA).status = .loading
      ∧ (∀ a ∈ Bay.bayA.arms, ((holding .loading).fc.get a).state = .idle)
      ∧ Arm.arm0 ∈ Bay.bayA.arms ∧ ((loading .paused 0).fc.get .arm0).state ≠ .idle := by
  unfold State.asksAs State.asks; decide +kernel
theorem witness_SignOffClosesTheSession_a :
    (∀ st ∈ [BayStatus.ident, .signed, .planning, .loading],
      (ask (session st) .sl1 0x2D#8 []).asksAs (.panel .bayA) .sl1 (req 0x2D#8 []) 0x2D#8 formEmpty ()
        ∧ ((session st).bsc.get .bayA).status = st ∧ ((session st).bsc.get .bayA).driver = some 5
        ∧ ((session st).bsc.get .bayA).order = none ∧ ∀ a ∈ Bay.bayA.arms, ((session st).fc.get a).state = .idle)
      ∧ (ask (holding .loading) .sl1 0x2D#8 []).asksAs (.panel .bayA) .sl1 (req 0x2D#8 []) 0x2D#8 formEmpty ()
      ∧ ((holding .loading).bsc.get .bayA).order = some 9
      ∧ (holding .loading).ob.orders.find 9 = some (order .held (some .bayA)) := by
  unfold State.asksAs State.asks; decide +kernel
theorem witness_SignOffClosesTheSession_b :
    (∀ st ∈ [BayStatus.locked, .outOfService],
      (ask (session st) .sl1 0x2D#8 []).asksAs (.panel .bayA) .sl1 (req 0x2D#8 []) 0x2D#8 formEmpty ()
        ∧ ((session st).bsc.get .bayA).status = st)
      ∧ (ask (loading .ending 0) .sl1 0x2D#8 []).asksAs (.panel .bayA) .sl1 (req 0x2D#8 []) 0x2D#8 formEmpty ()
      ∧ ((loading .ending 0).bsc.get .bayA).status = .loading ∧ ((loading .ending 0).fc.get .arm0).state ≠ .idle := by
  unfold State.asksAs State.asks; decide +kernel
theorem witness_CauseStopsTheArm :
    (∀ st ∈ [ArmState.lowStart, .highFlow, .topOff, .paused, .closing, .ending],
      ((loading st 5000).fc.get .arm0).state = st ∧ ((loading st 5000).fc.get .arm0).causes = [])
      ∧ ((loading .idle 0).fc.get .arm0).state = .idle
      ∧ (StopCause.emergencyStop, EndReason.emergencyStop) ∈ [(StopCause.emergencyStop, EndReason.emergencyStop),
        (.powerFail, .powerFail), (.bayOutOfService, .bayOutOfService), (.orderCancelled, .orderCancelled),
        (.pulseFault, .pulseFault), (.probeFault, .probeFault)]
      ∧ ([StopCause.powerFail, .driverStop].map StopCause.priority).Pairwise (· < ·) := by decide +kernel
/-- Channel 0 of arm 0 in shot on pump 1, channel 1 queued there. -/
def dosing : State :=
  { loading .highFlow 5000 with
    adu :=
      { channels := ((loading .highFlow 5000).adu.channels.modify .ch0 fun c => { c with place := .inShot }).modify .ch1
          fun c => { c with place := .queued }
        pumps := (loading .highFlow 5000).adu.pumps.set .type1
          { PumpState.fresh with status := .shot .ch0, queue := [.ch1], shotTimer := some 1000, target := 5 } } }
theorem witness_ShotsAreCutAndUnqueued :
    (dosing.adu.pumps.get .type1).status = .shot .ch0 ∧ (fun k : Channel => decide (k.arm = .arm0)) .ch0 = true
      ∧ (dosing.adu.pumps.get .type2).status = .idle ∧ (dosing.adu.channels.get .ch1).place = .queued := by decide +kernel
/-- Bay A in LOADING with arm 0 IDLE under a learned lead. -/
def starting (lead : Nat) : State :=
  { holding .loading with fc := (holding .loading).fc.modify .arm0 fun x => { x with lead := lead } }
/-- 100 L remain: leads of 99,999 mL and of 100,000 mL stand on either side. -/
theorem witness_AcceptedStartOpensTheCompartment_a :
    ∀ lead ∈ [0, 99999, 100000],
      (ask (starting lead) .sl1 0x28#8 [0, 1]).asksAs (.panel .bayA) .sl1 (req 0x28#8 [0, 1]) 0x28#8 formTwoBytes
        (Arm.arm0.toNat, compartment.number)
      ∧ ((starting lead).bsc.get .bayA).status = .loading ∧ ((starting lead).bsc.get .bayA).closePending = false
      ∧ Arm.arm0.bay = .bayA ∧ ((starting lead).fc.get .arm0).state = .idle
      ∧ ((starting lead).wc.arms.get .arm0).kMilli = some 100000 ∧ ((starting lead).bsc.get .bayA).order = some 9
      ∧ (starting lead).ob.orders.find 9 = some (order .held (some .bayA))
      ∧ ((order .held (some .bayA)).compartments.find? fun x => x.number = compartment.number) = some compartment
      ∧ compartment.number ∈ ((starting lead).bsc.get .bayA).plan ∧ compartment.status = .pending := by
  unfold State.asksAs State.asks; decide +kernel
theorem witness_AcceptedStartOpensTheCompartment_b :
    ∀ lead ∈ [0, 99999, 100000],
      (order .held (some .bayA)).cancelPending = false ∧ ((starting lead).wc.arms.get .arm0).product = compartment.product
      ∧ ((starting lead).bsc.get .bayA).driver = some 5 ∧ (starting lead).wc.drivers.find 5 = some driver
      ∧ driver.status = .active ∧ (starting lead).recipeLines compartment = some [{ additive := .type1, dose := 250 }]
      ∧ (∀ x ∈ [({ additive := .type1, dose := 250 } : RecipeLine)], (starting lead).servingChannel .arm0 x.additive ≠ none
        ∧ ((starting lead).wc.stock.get x.additive).reserve < ((starting lead).wc.stock.get x.additive).stock)
      ∧ (starting lead).loadingPermissive .arm0 = true ∧ (starting lead).notesHeld + (starting lead).reservations < 64
      ∧ compartment.delivered < compartment.planned := by decide +kernel
/-- Each check of START with all before it passed. -/
theorem witness_StartChecksInOrder_a :
    (∀ p ∈ [[4, 1], [0, 0], [0, 9], [3, 1], [1, 1], [0, 8]],
      (ask (starting 0) .sl1 0x28#8 p).asksAs (.panel .bayA) .sl1 (req 0x28#8 p) 0x28#8 formTwoBytes
        ((p.headD 0).toNat, (p.tail.headD 0).toNat))
      ∧ ((starting 0).bsc.get .bayA).status = .loading ∧ Arm.arm3.bay ≠ .bayA
      ∧ ((starting 0).wc.arms.get .arm1).kMilli = none ∧ (starting 0).startCompartment .bayA 8 = none
      ∧ (starting 0).startCompartment .bayA 1 = some (9, order .held (some .bayA), compartment)
      ∧ (starting 0).driverActive .bayA = true ∧ (starting 0).loadingPermissive .arm0 = true := by
  unfold State.asksAs State.asks; decide +kernel
theorem witness_StartChecksInOrder_b :
    let wc (r : NvRecords) : State := { starting 0 with wc := r }
    let r := (starting 0).wc
    ((wc { r with arms := r.arms.modify .arm0 fun x => { x with product := 2 } }).wc.arms.get .arm0).product ≠ compartment.product
      ∧ (wc { r with drivers := [(5, { driver with status := .blocked })] }).driverActive .bayA = false
      ∧ (wc { r with recipes := [] }).recipeLines compartment = none
      ∧ (wc { r with injectors := .const .blank }).servingChannel .arm0 .type1 = none
      ∧ ((wc { r with stock := r.stock.modify .type1 fun x => { x with stock := 100 } }).wc.stock.get .type1).stock ≤ 100
      ∧ ((starting 0).setInput .emergencyStop { line := .deenergized, accepted := .deenergized, settled := true, timing := false }).loadingPermissive
        .arm0 = false
      ∧ 64 ≤ (wc { r with notes := List.replicate 64 ((record 1).toNote r .arm0 .complete none { gross := 0, net := 0 } false) }).notesHeld
      ∧ ({ compartment with deliveredGross := 100 } : Compartment).planned ≤ ({ compartment with deliveredGross := 100 } : Compartment).delivered := by
  decide +kernel
theorem witness_StopAndFinish :
    (∀ st ∈ [ArmState.lowStart, .highFlow, .topOff, .paused, .closing, .ending],
      (ask (loading st 5000) .sl1 0x29#8 [0]).asksAs (.panel .bayA) .sl1 (req 0x29#8 [0]) 0x29#8 formByte Arm.arm0.toNat
      ∧ (ask (loading st 5000) .sl1 0x2C#8 [0]).asksAs (.panel .bayA) .sl1 (req 0x2C#8 [0]) 0x2C#8 formByte Arm.arm0.toNat
      ∧ ((loading st 5000).fc.get .arm0).state = st ∧ ((loading st 5000).fc.get .arm0).causes = []
      ∧ ((loading st 5000).bsc.get .bayA).status = .loading) ∧ Arm.arm0.bay = .bayA := by
  unfold State.asksAs State.asks; decide +kernel
/-- Arm 0 PAUSED with 5 L in; the lead of the tests is short of what remains, or just reaches it. -/
theorem witness_ResumeEntersTheImpliedStage :
    (∀ g ∈ [5000, 1000000],
      (ask (loading .paused g) .sl1 0x2A#8 [0]).asksAs (.panel .bayA) .sl1 (req 0x2A#8 [0]) 0x2A#8 formByte Arm.arm0.toNat
      ∧ ((loading .paused g).fc.get .arm0).state = .paused ∧ ((loading .paused g).fc.get .arm0).causes = []
      ∧ (loading .paused g).loadingPermissive .arm0 = true ∧ (loading .paused g).running.get .arm0 = some (record g)
      ∧ ((loading .paused g).bsc.get .bayA).status = .loading)
      ∧ 5000 + ((loading .paused 5000).fc.get .arm0).lead < (record 5000).flow.preset
      ∧ (record 1000000).flow.preset ≤ 1000000 + ((loading .paused 1000000).fc.get .arm0).lead
      ∧ (ask (loading .closing 5000) .sl1 0x2A#8 [0]).asksAs (.panel .bayA) .sl1 (req 0x2A#8 [0]) 0x2A#8 formByte Arm.arm0.toNat
      ∧ ((loading .closing 5000).fc.get .arm0).state ≠ .paused := by
  unfold State.asksAs State.asks; decide +kernel
/-- Arm 0 PAUSED with two causes. -/
def stopped (c : StopCause) : State :=
  { loading .paused 5000 with
    fc := (loading .paused 5000).fc.modify .arm0 fun x => { x with causes := [c, .driverStop] } }
theorem witness_AcknowledgedCauseIsRemoved :
    (∀ c ∈ [StopCause.emergencyStop, .officeStop],
      (ask (stopped c) .sl1 0x2B#8 (natBytes 1 0 ++ natBytes 1 c.priority)).asksAs (.panel .bayA) .sl1
        (req 0x2B#8 (natBytes 1 0 ++ natBytes 1 c.priority)) 0x2B#8 formTwoBytes (Arm.arm0.toNat, c.priority)
      ∧ ((stopped c).bsc.get .bayA).status = .loading ∧ ((stopped c).fc.get .arm0).causes = [c, .driverStop]
      ∧ c ∉ [StopCause.driverStop])
      ∧ (stopped .emergencyStop).accepts .emergencyStop = true ∧ ((stopped .officeStop).fc.get .arm0).releaseMark = false
      ∧ (ask (stopped .noFlow) .sl1 0x2B#8 [0, 13]).asksAs (.panel .bayA) .sl1 (req 0x2B#8 [0, 13]) 0x2B#8 formTwoBytes
        (Arm.arm0.toNat, StopCause.driverStop.priority)
      ∧ ((stopped .noFlow).fc.get .arm0).causes.head? ≠ some .driverStop := by
  unfold State.asksAs State.asks; decide +kernel
/-- A WRITE_DRIVER payload with a PIN of `count` digits. -/
def driverPayload (number count : Nat) : List Byte :=
  natBytes 4 number ++ [BitVec.ofNat 8 count, 9, 8, 7, 6, 5, 4, 3, 2] ++ [0, 2, 8, 1, 1] ++ natBytes 2 49710
/-- Its fields. -/
def driverFields (number count : Nat) : DriverFields :=
  { number := number, pin := { count := count, digits := [9, 8, 7, 6, 5, 4, 3, 2] }, status := 0, classes := [8, 1]
    expiry := some 49710 }
theorem witness_DriversAreWritten :
    (∀ x ∈ [(1, 4), (99999999, 8)],
      (ask setup .sl0 0x40#8 (driverPayload x.1 x.2)).asksAs .office .sl0 (req 0x40#8 (driverPayload x.1 x.2)) 0x40#8 formWriteDriver
        (driverFields x.1 x.2)
      ∧ (∀ k ∈ (driverFields x.1 x.2).pin.digits.take x.2, k ≤ 9)
      ∧ (ask setup .sl0 0x41#8 (natBytes 4 x.1)).asksAs .office .sl0 (req 0x41#8 (natBytes 4 x.1)) 0x41#8 formLong x.1
      ∧ setup.wc.drivers.find x.1 = some driver ∧ setup.boundBay x.1 = none
      ∧ (ask setup .sl0 0x42#8 (natBytes 4 x.1 ++ [4, 1, 1, 1, 1, 0, 0, 0, 0])).asksAs .office .sl0
        (req 0x42#8 (natBytes 4 x.1 ++ [4, 1, 1, 1, 1, 0, 0, 0, 0])) 0x42#8 formResetPin
        (x.1, { count := 4, digits := [1, 1, 1, 1, 0, 0, 0, 0] }))
      ∧ setup.nvc.queue.length < 8 ∧ (∀ k ∈ [8, 1], 1 ≤ k ∧ k ≤ 8) := by
  unfold State.asksAs State.asks; decide +kernel
/-- The day of the record written is the greatest one. -/
theorem witness_DriversAreWritten_expiry : ∀ day, (driverFields 1 4).expiry = some day → day ≤ 49710 :=
  fun day h => by cases h; decide
/-- One order, number 5, in the Order Table. -/
def oneOrder : State := { setup with ob := { orders := [(5, order .opened none)] } }
theorem witness_DriversAndOrdersAreRead_asked :
    (∀ x ∈ [[0, 0, 0, 1, 0], [0, 0, 0, 2, 0], [0, 0, 0, 0, 1], [0, 0, 0, 1, 1], natBytes 4 99999999 ++ [1]],
      ((ask setup .sl0 0x43#8 x).asksAs .office .sl0 (req 0x43#8 x) 0x43#8 formSelect
        (bytesToNat (x.take 4), bytesToNat (x.drop 4))))
      ∧ setup.wc.drivers.wf = true ∧ oneOrder.ob.orders.wf = true
      ∧ (∀ x ∈ [[0, 0, 0, 5, 0], [0, 0, 0, 1, 0], [0, 0, 0, 0, 1], [0, 0, 0, 5, 1]],
        ((ask oneOrder .sl0 0x46#8 x).asksAs .office .sl0 (req 0x46#8 x) 0x46#8 formSelect
          (bytesToNat (x.take 4), bytesToNat (x.drop 4)))) := by
  unfold State.asksAs State.asks; decide +kernel
/-- EXACT names driver 1 and NEXT after 1 driver 5; EXACT of 2 and NEXT after 99,999,999 name none; of the orders, EXACT 5 and NEXT
after 0 name order 5, EXACT of 1 and NEXT after 5 none. -/
theorem witness_DriversAndOrdersAreRead_named :
    (setup.wc.drivers.find 1).isSome = true ∧ (setup.wc.drivers.find 2).isSome = false
      ∧ ((setup.wc.drivers.find 5).isSome = true ∧ ∀ j, 1 < j → j < 5 → (setup.wc.drivers.find j).isSome = false)
      ∧ (∀ j, 99999999 < j → (setup.wc.drivers.find j).isSome = false)
      ∧ ((oneOrder.ob.orders.find 5).isSome = true ∧ ∀ j, 0 < j → j < 5 → (oneOrder.ob.orders.find j).isSome = false)
      ∧ (oneOrder.ob.orders.find 1).isSome = false ∧ ∀ j, 5 < j → (oneOrder.ob.orders.find j).isSome = false := by
  have hd : setup.wc.drivers = [(1, driver), (5, driver), (99999999, driver)] := rfl
  have ho : oneOrder.ob.orders = [(5, order .opened none)] := rfl
  rw [hd, ho]
  refine ⟨rfl, by decide, ⟨rfl, ?_⟩, ?_, ⟨rfl, ?_⟩, by decide, ?_⟩
  · intro j h1 h2
    simp only [Assoc.find]
    rw [if_neg (by omega), if_neg (by omega), if_neg (by omega)]
    rfl
  · intro j h
    simp only [Assoc.find]
    rw [if_neg (by omega), if_neg (by omega), if_neg (by omega)]
    rfl
  · intro j h1 h2
    simp only [Assoc.find]
    rw [if_neg (by omega)]
    rfl
  · intro j h
    simp only [Assoc.find]
    rw [if_neg (by omega)]
    rfl
/-- A WRITE_ORDER payload: one compartment, number 8, of product 1 with recipe 3. -/
def orderPayload (n planned : Nat) : List Byte :=
  natBytes 4 n ++ [1] ++ natBytes 4 99999999 ++ [2, 32, 126] ++ [1, 1] ++ [1, 8, 1] ++ natBytes 2 planned ++ [1, 1, 3]
/-- Its fields. -/
def orderFields (n planned : Nat) : OrderFields :=
  { number := n, driver := some 99999999, vehicle := [32, 126], bay := some 1
    compartments := [{ number := 8, product := 1, planned := planned, basis := 1, recipe := some 3 }] }
theorem witness_OrdersAreWrittenAndDeleted_a :
    (∀ x ∈ [(1, 100), (9999999, 40000)],
      (ask setup .sl0 0x44#8 (orderPayload x.1 x.2)).asksAs .office .sl0 (req 0x44#8 (orderPayload x.1 x.2)) 0x44#8 formWriteOrder
        (orderFields x.1 x.2)
      ∧ (∀ ch ∈ (orderFields x.1 x.2).vehicle, 32 ≤ ch.toNat ∧ ch.toNat ≤ 126)
      ∧ ((orderFields x.1 x.2).compartments.map CompartmentFields.number).Nodup ∧ setup.ob.orders.find x.1 = none)
      ∧ setup.ob.orders.length < 48 ∧ setup.wc.products.find 1 ≠ none
      ∧ (setup.wc.recipes.find 3).map RecipeRecord.product = some 1 := by
  unfold State.asksAs State.asks; decide +kernel
theorem witness_OrdersAreWrittenAndDeleted_b :
    (∀ n ∈ [0, 10000000, 6, 5],
      (ask oneOrder .sl0 0x45#8 (natBytes 4 n)).asksAs .office .sl0 (req 0x45#8 (natBytes 4 n)) 0x45#8 formLong n)
      ∧ oneOrder.ob.orders.find 6 = none ∧ oneOrder.ob.orders.find 5 = some (order .opened none)
      ∧ (order .opened none).state ≠ .held
      ∧ (ask (holding .loading) .sl0 0x45#8 [0, 0, 0, 9]).asksAs .office .sl0 (req 0x45#8 [0, 0, 0, 9]) 0x45#8 formLong 9
      ∧ (holding .loading).ob.orders.find 9 = some (order .held (some .bayA)) := by
  unfold State.asksAs State.asks; decide +kernel
theorem witness_IdleOrderIsCancelled_a :
    ∀ o ∈ [order .opened none, order .complete none, order .cancelled none], ∀ n ∈ [1, 9999999],
      (ask { setup with ob := { orders := [(n, o)] } } .sl0 0x47#8 (natBytes 4 n)).asksAs .office .sl0
        (req 0x47#8 (natBytes 4 n)) 0x47#8 formLong n
      ∧ ({ setup with ob := { orders := [(n, o)] } } : State).ob.orders.find n = some o := by
  unfold State.asksAs State.asks; decide +kernel
theorem witness_IdleOrderIsCancelled_b :
    (∀ st ∈ [BayStatus.planning, .loading],
      (ask (holding st) .sl0 0x47#8 [0, 0, 0, 9]).asksAs .office .sl0 (req 0x47#8 [0, 0, 0, 9]) 0x47#8 formLong 9
      ∧ (holding st).ob.orders.find 9 = some (order .held (some .bayA)) ∧ ((holding st).bsc.get .bayA).status = st)
      ∧ ∀ a y, ((holding .loading).fc.get a).state ≠ .idle → (holding .loading).running.get a = some y → y.flow.order ≠ 9 :=
  ⟨by unfold State.asksAs State.asks; decide +kernel, fun a y h => absurd (by cases a <;> decide +kernel) h⟩
theorem witness_LoadingOrderIsToBeCancelled :
    (∀ st ∈ [ArmState.highFlow, .paused, .ending],
      (ask (loading st 5000) .sl0 0x47#8 [0, 0, 0, 9]).asksAs .office .sl0 (req 0x47#8 [0, 0, 0, 9]) 0x47#8 formLong 9
      ∧ (loading st 5000).ob.orders.find 9 = some (order .held (some .bayA))
      ∧ ((loading st 5000).fc.get .arm0).state ≠ .idle ∧ (loading st 5000).running.get .arm0 = some (record 5000))
      ∧ (order .held (some .bayA)).state = .held ∧ (order .held (some .bayA)).cancelPending = false
      ∧ (record 5000).flow.order = 9 := by
  unfold State.asksAs State.asks; decide +kernel
theorem witness_RecipeIsWritten :
    (∀ x ∈ [(1, 10), (24, 200)],
      (ask setup .sl0 0x48#8 ([BitVec.ofNat 8 x.1, 1, 2, 1] ++ natBytes 2 10 ++ [6] ++ natBytes 2 10000 ++ [1, BitVec.ofNat 8 x.2])).asksAs
        .office .sl0 (req 0x48#8 ([BitVec.ofNat 8 x.1, 1, 2, 1] ++ natBytes 2 10 ++ [6] ++ natBytes 2 10000 ++ [1, BitVec.ofNat 8 x.2]))
        0x48#8 formWriteRecipe { code := x.1, product := 1, lines := [(1, 10), (6, 10000)], tolerance := some x.2 }
      ∧ setup.wc.recipes.find x.1 = none)
      ∧ setup.wc.products.find 1 ≠ none ∧ setup.nvc.queue.length < 8 ∧ Additive.type1.toNat = 1 ∧ Additive.type6.toNat = 6 := by
  unfold State.asksAs State.asks; decide +kernel
/-- Bay A to be closed when its arms are done. -/
def closing : State :=
  { holding .loading with bsc := (holding .loading).bsc.modify .bayA fun x => { x with closePending := true } }
theorem witness_BayServiceIsSet :
    (∀ x ∈ [[0, 0], [0, 1]], ∀ st ∈ [BayStatus.locked, .outOfService],
      (ask (session st) .sl0 0x49#8 x).asksAs .office .sl0 (req 0x49#8 x) 0x49#8 formTwoBytes
        (Bay.bayA.toNat, (x.tail.headD 0).toNat) ∧ ((session st).bsc.get .bayA).status = st)
      ∧ (∀ x ∈ [[0, 0], [0, 1]], (ask closing .sl0 0x49#8 x).asksAs .office .sl0 (req 0x49#8 x) 0x49#8 formTwoBytes
        (Bay.bayA.toNat, (x.tail.headD 0).toNat))
      ∧ (closing.bsc.get .bayA).status = .loading ∧ (closing.bsc.get .bayA).closePending = true
      ∧ closing.nvc.queue.length < 8 := by
  unfold State.asksAs State.asks; decide +kernel
theorem witness_OfficeStopsAndReleases :
    (∀ b ∈ Bay.all,
      (ask (stopped .officeStop) .sl0 0x4A#8 (natBytes 1 b.toNat)).asksAs .office .sl0 (req 0x4A#8 (natBytes 1 b.toNat)) 0x4A#8
        formByte b.toNat
      ∧ (ask (stopped .officeStop) .sl0 0x4B#8 (natBytes 1 b.toNat)).asksAs .office .sl0 (req 0x4B#8 (natBytes 1 b.toNat)) 0x4B#8
        formByte b.toNat
      ∧ (ask (loading .lowStart 0) .sl0 0x4A#8 (natBytes 1 b.toNat)).asksAs .office .sl0 (req 0x4A#8 (natBytes 1 b.toNat)) 0x4A#8
        formByte b.toNat)
      ∧ StopCause.officeStop ∈ ((stopped .officeStop).fc.get .arm0).causes
      ∧ ((loading .lowStart 0).fc.get .arm0).state = .lowStart ∧ ((loading .lowStart 0).fc.get .arm1).state = .idle := by
  unfold State.asksAs State.asks; decide +kernel
theorem witness_StockIsSetAndRead :
    (∀ x ∈ [(0, 0, 0), (30000000, 20000000, 20000000), (99, 1000, 100)],
      (ask setup .sl0 0x4C#8 ([1] ++ natBytes 4 x.1 ++ natBytes 4 x.2.1 ++ natBytes 4 x.2.2)).asksAs .office .sl0
        (req 0x4C#8 ([1] ++ natBytes 4 x.1 ++ natBytes 4 x.2.1 ++ natBytes 4 x.2.2)) 0x4C#8 formSetStock
        { additive := Additive.type1.toNat, stock := x.1, capacity := x.2.1, reserve := x.2.2 }
      ∧ x.2.1 ≤ 20000000 ∧ x.2.2 ≤ x.2.1)
      ∧ setup.nvc.queue.length < 8
      ∧ (ask setup .sl0 0x4D#8 []).asksAs .office .sl0 (req 0x4D#8 []) 0x4D#8 formEmpty () := by
  unfold State.asksAs State.asks; decide +kernel
/-- The Rack Clock at a count. -/
def clockAt (n : Nat) : State := { setup with lc := { setup.lc with clock := { count := n, isSet := true } } }
theorem witness_ClockIsSetAndTicks :
    (∀ n ∈ [0, 4294967295], (ask setup .sl0 0x50#8 (natBytes 4 n)).asksAs .office .sl0 (req 0x50#8 (natBytes 4 n)) 0x50#8 formLong n)
      ∧ (clockAt 4294967294).lc.clock.count < 4294967295 ∧ (clockAt 4294967295).lc.clock.count = 4294967295 := by
  unfold State.asksAs State.asks; decide +kernel
theorem witness_NoteIsRead :
    (∀ k ∈ [0, 1, 2], (ask (noted [7, 8]) .sl0 0x4E#8 (natBytes 1 k)).asksAs .office .sl0 (req 0x4E#8 (natBytes 1 k)) 0x4E#8 formByte k)
      ∧ (noted [7, 8]).wc.notes.length = 2 := by
  unfold State.asksAs State.asks; decide +kernel
theorem witness_OldestNoteIsReleased :
    (∀ n ∈ [0, 1000000, 999999, 1, 2],
      (ask (noted [999999, 1]) .sl0 0x4F#8 (natBytes 4 n)).asksAs .office .sl0 (req 0x4F#8 (natBytes 4 n)) 0x4F#8 formLong n)
      ∧ (noted [999999, 1]).wc.notes.map NoteRecord.number = [999999, 1] := by
  unfold State.asksAs State.asks; decide +kernel
/-- A WRITE_PRODUCT payload. -/
def productPayload (code alpha : Nat) : List Byte := natBytes 1 code ++ [8] ++ natBytes 2 alpha ++ natBytes 2 7000
/-- Its fields. -/
def productFields (code alpha : Nat) : ProductFields := { code := code, cls := 8, alpha := alpha, fallback := 7000 }
/-- A state with that many entries in the NV Write Queue. -/
def queued (s : State) (n : Nat) : State :=
  { s with
    nvc := { s.nvc with queue := (List.range n).map fun k => { contents := .driver (100 + k) none, cls := .setting } } }
/-- The seal closed. -/
def sealedShut (s : State) : State :=
  s.setInput .sealSwitch { line := .deenergized, accepted := .deenergized, settled := true, timing := false }
/-- The calibration change counter at a value, with that many audit entries. -/
def audited (counter n : Nat) : State :=
  { setup with
    wc :=
      { setup.wc with
        audit :=
          { counter := counter
            entries := (List.range n).map fun k => { counter := k + 1, time := none, subject := .arm .arm0, changes := [] } } } }
theorem witness_ProductIsWritten :
    (∀ x ∈ [(0, 0), (16, 0), (1, 20001), (1, 20000), (15, 0), (1, 9500)],
      (ask setup .sl3 0x60#8 (productPayload x.1 x.2)).asksAs .service .sl3 (req 0x60#8 (productPayload x.1 x.2)) 0x60#8
        formWriteProduct (productFields x.1 x.2))
      ∧ (setup.wc.products.find 1).map ProductRecord.alpha = some 9500 ∧ setup.wc.products.find 15 = none
      ∧ setup.accepts .sealSwitch = true ∧ (sealedShut setup).accepts .sealSwitch = false
      ∧ (audited 4294967295 32).wc.audit.counter = 4294967295 ∧ (audited 4294967294 32).wc.audit.entries.length = 32
      ∧ ((loading .ending 0).wc.arms.get .arm0).product = 1 ∧ ((loading .ending 0).fc.get .arm0).state ≠ .idle
      ∧ (queued setup 7).nvc.queue.length < 8 ∧ 8 ≤ (queued setup 8).nvc.queue.length := by
  unfold State.asksAs State.asks; decide +kernel
theorem witness_ProductIsWritten_idle :
    ∀ a, (setup.wc.arms.get a).product = 1 → (setup.fc.get a).state = .idle := fun a _ => by cases a <;> decide +kernel
/-- A WRITE_ARM payload for arm 0 with one MF point. -/
def armPayload (product k : Nat) : List Byte :=
  [0] ++ natBytes 1 product ++ [1] ++ natBytes 4 k ++ [1] ++ natBytes 2 9999 ++ natBytes 4 110000 ++ natBytes 2 10000
    ++ natBytes 2 30000 ++ [1, 10] ++ natBytes 2 9000 ++ natBytes 2 0 ++ natBytes 2 9000 ++ [10] ++ natBytes 2 50
    ++ natBytes 2 2000 ++ natBytes 2 50000 ++ natBytes 2 50000 ++ [200, 60, 1]
/-- Its fields. -/
def armFields (product k : Nat) : ArmFields :=
  { arm := 0, product := product, kMilli := some k, mf := [(9999, 110000)], offset := 10000, span := 30000, mode := 1
    fidelity := 10, maxRate := 9000, lowRate := 0, highRate := 9000, deadband := 10, startVolume := 50, topOffVolume := 2000
    initialLead := 50000, leadMaximum := 50000, overrunLimit := 200, noFlowTime := 60, atcRequired := 1 }
theorem witness_ArmIsWritten :
    ∀ x ∈ [(1, 999), (1, 1000000), (16, 1000), (0, 1000), (15, 999999)],
      (ask setup .sl3 0x61#8 (armPayload x.1 x.2)).asksAs .service .sl3 (req 0x61#8 (armPayload x.1 x.2)) 0x61#8 formWriteArm
        (armFields x.1 x.2)
      ∧ ((armFields x.1 x.2).mf.map Prod.fst).Pairwise (· < ·)
      ∧ (∀ p ∈ (armFields x.1 x.2).mf, p.1 ≤ 9999 ∧ 90000 ≤ p.2 ∧ p.2 ≤ 110000)
      ∧ (setup.wc.arms.get .arm0).sealedPart ≠ { (setup.wc.arms.get .arm0).sealedPart with kMilli := some x.2 } := by
  unfold State.asksAs State.asks; decide +kernel
/-- The greatest K-factor is within its range. -/
theorem witness_ArmIsWritten_k : ∀ k, (armFields 15 999999).kMilli = some k → 1000 ≤ k ∧ k ≤ 999999 :=
  fun k h => by cases h; decide
/-- A WRITE_ARM payload that keeps every sealed field of arm 0 of the tests, with another product. -/
def unsealedPayload (product : Nat) : List Byte :=
  [0] ++ natBytes 1 product ++ [1] ++ natBytes 4 100000 ++ [2] ++ natBytes 2 600 ++ natBytes 4 100120 ++ natBytes 2 1200
    ++ natBytes 4 100040 ++ natBytes 2 60536 ++ natBytes 2 15000 ++ [1, 1] ++ natBytes 2 2000 ++ natBytes 2 300 ++ natBytes 2 1800
    ++ [40] ++ natBytes 2 300 ++ natBytes 2 400 ++ natBytes 2 20000 ++ natBytes 2 40000 ++ [10, 10, 0]
theorem witness_ArmIsWritten_unsealed :
    ∀ s ∈ [setup, loading .ending 0], ∀ product ∈ [1, 2],
      (ask s .sl3 0x61#8 (unsealedPayload product)).asksAs .service .sl3 (req 0x61#8 (unsealedPayload product)) 0x61#8 formWriteArm
        { arm := 0, product := product, kMilli := some 100000, mf := [(600, 100120), (1200, 100040)], offset := -5000
          span := 15000, mode := 1, fidelity := 1, maxRate := 2000, lowRate := 300, highRate := 1800, deadband := 40
          startVolume := 300, topOffVolume := 400, initialLead := 20000, leadMaximum := 40000, overrunLimit := 10
          noFlowTime := 10, atcRequired := 0 }
      ∧ (s.wc.arms.get .arm0).sealedPart =
        { kMilli := some 100000, mode := .dual, fidelity := 1
          mf := { first := { rate := 600, mf := 100120 }, rest := [{ rate := 1200, mf := 100040 }] }, offset := -5000
          span := 15000 }
      ∧ (s.wc.arms.get .arm0).product = 1 := by
  unfold State.asksAs State.asks; decide +kernel
/-- A WRITE_INJECTOR payload. -/
def injectorPayload (channel shot : Nat) : List Byte :=
  natBytes 1 channel ++ [6] ++ natBytes 2 shot ++ natBytes 4 9999999 ++ natBytes 2 5000
theorem witness_InjectorsPumpsAndRackAreWritten_a :
    (∀ x ∈ [(8, 10), (0, 9), (0, 501), (0, 10), (7, 500)], ∀ s ∈ [setup, loading .closing 0],
      (ask s .sl3 0x62#8 (injectorPayload x.1 x.2)).asksAs .service .sl3 (req 0x62#8 (injectorPayload x.1 x.2)) 0x62#8
        formWriteInjector { channel := x.1, additive := 6, shotVolume := x.2, kMilli := 9999999, timeLimit := 5000 })
      ∧ Channel.ch0.toNat = 0 ∧ Channel.ch7.toNat = 7 ∧ ((loading .closing 0).fc.get Channel.ch0.arm).state ≠ .idle
      ∧ (setup.fc.get Channel.ch0.arm).state = .idle
      ∧ (∀ x ∈ [(0, 100), (7, 100), (1, 99), (1, 2001), (1, 100), (6, 2000)],
        (ask setup .sl3 0x63#8 (natBytes 1 x.1 ++ natBytes 2 x.2)).asksAs .service .sl3
          (req 0x63#8 (natBytes 1 x.1 ++ natBytes 2 x.2)) 0x63#8 formWritePump (x.1, x.2))
      ∧ Additive.type1.toNat = 1 ∧ Additive.type6.toNat = 6 := by
  unfold State.asksAs State.asks; decide +kernel
/-- A WRITE_RACK payload with one debounce choice throughout. -/
def rackPayload (choice limit : Nat) : List Byte :=
  (List.replicate 14 (natBytes 2 choice)).flatten ++ natBytes 1 limit ++ natBytes 2 29 ++ natBytes 2 3601
theorem witness_InjectorsPumpsAndRackAreWritten_b :
    (∀ x ∈ [(9, 3), (8, 1), (1000, 9)],
      (ask (failing 1) .sl3 0x64#8 (rackPayload x.1 x.2)).asksAs .service .sl3 (req 0x64#8 (rackPayload x.1 x.2)) 0x64#8 formWriteRack
        { debounce := List.replicate 14 x.1, attemptLimit := x.2, deadmanInterval := 29, pauseTimeout := 3601 })
      ∧ (∀ d ∈ List.replicate 14 8, d ∈ [8, 64, 250, 1000]) ∧ ¬(∀ d ∈ List.replicate 14 9, d ∈ [8, 64, 250, 1000])
      ∧ ¬(∀ e ∈ (failing 1).wc.drivers, (e.2.status = .active → e.2.failed < max 1 (min 9 1)) ∧ (e.2.status = .blocked → e.2.failed ≤ 1))
      ∧ (∀ e ∈ (failing 1).wc.drivers, (e.2.status = .active → e.2.failed < max 1 (min 9 9)) ∧ (e.2.status = .blocked → e.2.failed ≤ 9)) := by
  unfold State.asksAs State.asks; decide +kernel
theorem witness_AuditIsRead :
    (∀ k ∈ [0, 31, 32], (ask (audited 40 32) .sl3 0x65#8 (natBytes 1 k)).asksAs .service .sl3 (req 0x65#8 (natBytes 1 k)) 0x65#8 formByte k)
      ∧ (audited 40 32).wc.audit.entries.length = 32 := by
  unfold State.asksAs State.asks; decide +kernel
theorem witness_FullQueueStopsSettings :
    (Instr.writePump .sl3).needsSetting = true ∧ 8 ≤ (queued setup 8).nvc.queue.length
      ∧ 8 ≤ (queued setup 30).nvc.queue.length := by decide +kernel
theorem witness_ClosedSealKeepsTheSealed :
    (Instr.writeArm .sl3).isReset = false ∧ (sealedShut setup).accepts .sealSwitch = false
      ∧ (after (exec (.writeArm .sl3) (ask (sealedShut setup) .sl3 0x61#8 (unsealedPayload 2)))).isSome = true := by decide +kernel
theorem witness_FrameIsReceived :
    (base.condition = .running ∨ base.condition = .restoring) ∧ base.ic.warning = false
      ∧ (base.lc.links.get .sl0).receiver = .hunting ∧ (base.lc.links.get .sl0).slot = .empty
      ∧ (req 0x20#8 []).payload.length ≤ 200 ∧ (req 0x4F#8 (List.replicate 200 0x7E#8)).payload.length ≤ 200
      ∧ (req 0x20#8 []).bytes.getLast? ≠ some 0x00#8 := by decide +kernel
/-- A link in the middle of a frame. -/
def collecting (bytes : List Byte) : State := base.modifyLink .sl0 fun k => { k with receiver := .collecting bytes }
theorem witness_LinkEventsMoveTheReceiver :
    (base.lc.links.get .sl0).receiver = .hunting
      ∧ ((collecting [7, 1]).lc.links.get .sl0).receiver = .collecting [7, 1] ∧ 200 < (0xC9#8).toNat
      ∧ (req 0x01#8 []).bytes = [0x7E#8] ++ [] ++ [7] ++ (req 0x01#8 []).bytes.drop 2
      ∧ (req 0x01#8 []).bytes =
        [0x7E#8] ++ ((req 0x01#8 []).bytes.drop 1).dropLast ++ [(req 0x01#8 []).bytes.getLastD 0] ++ []
      ∧ (req 0x01#8 []).bytes.drop 2 ≠ []
      ∧ ({ collecting [] with ic := { base.ic with warning := true } } : State).ic.warning = true
      ∧ ((ask base .sl0 0x01#8 []).lc.links.get .sl0).slot ≠ .empty
      ∧ ((base.modifyLink .sl0 fun k =>
        { k with slot := .responding { tag := 7, code := 1, result := .ok, status := 0, payload := [] } }).lc.links.get .sl0).slot =
          .responding { tag := 7, code := 1, result := .ok, status := 0, payload := [] } := by decide +kernel
/-- An input of the rack of the tests in a given state. -/
def inputAt (s : State) (d : DiscreteInput) (line accepted : LineLevel) (settled : Bool) : State :=
  s.setInput d { line := line, accepted := accepted, settled := settled, timing := true }
theorem witness_InputsAreAccepted :
    (∀ d ∈ [DiscreteInput.permissive .ground .bayA, .parked .arm0, .emergencyStop, .deadman .bayA, .sealSwitch],
      ∀ line ∈ [LineLevel.energized, .deenergized], ∀ accepted ∈ [LineLevel.energized, .deenergized], ∀ settled ∈ [true, false],
        (inputAt (loading .highFlow 5000) d line accepted settled).condition = .running
        ∧ ((inputAt (loading .highFlow 5000) d line accepted settled).ic.inputs.get d).timing = true
        ∧ ((inputAt (loading .highFlow 5000) d line accepted settled).ic.inputs.get d).line = line
        ∧ ((inputAt (loading .highFlow 5000) d line accepted settled).ic.inputs.get d).accepted = accepted
        ∧ ((inputAt (loading .highFlow 5000) d line accepted settled).ic.inputs.get d).settled = settled)
      ∧ ((loading .highFlow 5000).fc.get .arm0).state = .highFlow ∧ ((loading .highFlow 5000).fc.get .arm0).causes = []
      ∧ (((loading .highFlow 5000).setButton .bayA { state := .pressed, stuckTimer := some 10000 }).ic.buttons.get .bayA).stuckTimer ≠ none := by
  decide +kernel
/-- Arm 0 of the tests with a pulse mode and interval counts. -/
def metered (mode : PulseMode) (n : Nat) : State :=
  { setup with
    wc := { setup.wc with arms := setup.wc.arms.modify .arm0 fun r => { r with mode := mode } }
    ic := { setup.ic with meters := setup.ic.meters.modify .arm0 fun m => { m with counts := { nA := n, nB := n, reverse := n } } } }
theorem witness_MeterEdgesAreCounted :
    State.reset.condition = .restoring
      ∧ ∀ n ∈ [0, 65534, 65535], (metered .dual n).condition = .running ∧ ((metered .dual n).wc.arms.get .arm0).mode = .dual
        ∧ ((metered .single n).wc.arms.get .arm0).mode = .single ∧ ((metered .dual n).ic.meters.get .arm0).counts.nA = n := by
  decide +kernel
/-- The shot of the tests with a number of pulses counted, and a stock left. -/
def dosingAt (count stock : Nat) : State :=
  { dosing with
    adu :=
      { channels := dosing.adu.channels.modify .ch0 fun c => { c with serving := some 0 }
        pumps := dosing.adu.pumps.modify .type1 fun p => { p with pulseCount := count } }
    wc :=
      { dosing.wc with
        injectors := dosing.wc.injectors.modify .ch0 fun r => { r with kMilli := 100000 }
        stock := dosing.wc.stock.modify .type1 fun r => { r with stock := stock } } }
theorem witness_AdditivePulseIsMeasured_pump :
    (∀ q, ((dosingAt 3 11).adu.pumps.get q).status = .shot .ch0 ↔ q = .type1)
      ∧ ∀ q, ((dosingAt 4 109).adu.pumps.get q).status = .shot .ch0 ↔ q = .type1 :=
  ⟨fun q => by cases q <;> decide +kernel, fun q => by cases q <;> decide +kernel⟩
/-- A pulse of 10 mL: it leaves 0 of 10 mL of stock and 1 of 11, and takes 109 of stock across the reserve of 100. -/
theorem witness_AdditivePulseIsMeasured :
    (∀ x ∈ [(3, 11), (4, 109), (0, 10)],
      (dosingAt x.1 x.2).condition = .running ∧ ((dosingAt x.1 x.2).wc.injectors.get .ch0).additive = some .type1
        ∧ ((dosingAt x.1 x.2).adu.channels.get .ch0).serving = some 0 ∧ ((dosingAt x.1 x.2).wc.stock.get .type1).stock = x.2
        ∧ (1000000 + ((dosingAt x.1 x.2).adu.channels.get .ch0).residue) / ((dosingAt x.1 x.2).wc.injectors.get .ch0).kMilli = 10
        ∧ ((dosingAt x.1 x.2).adu.pumps.get .type1).pulseCount = x.1 ∧ ((dosingAt x.1 x.2).adu.pumps.get .type1).target = 5)
      ∧ ((dosingAt 0 10).fc.get .arm0).state = .highFlow ∧ (dosingAt 0 10).running.get .arm0 = some (record 5000)
      ∧ (record 5000).lines.map LineRecord.additive = [.type1] ∧ ((dosingAt 0 10).fc.get .arm0).causes = [] := by decide +kernel
/-- Outside a shot: channel 7 of a rack at rest. -/
theorem witness_AdditivePulseIsMeasured_leak :
    setup.condition = .running ∧ (setup.wc.injectors.get .ch7).additive = none
      ∧ ∀ p, (setup.adu.pumps.get p).status ≠ .shot .ch7 :=
  ⟨by decide +kernel, by decide +kernel, fun p => by cases p <;> decide +kernel⟩
/-- A shot of 50 mL with 24 or 25 mL in, on a channel with a failed-shot count. -/
def shooting (volume failed : Nat) : State :=
  { dosing with
    adu :=
      { channels := dosing.adu.channels.modify .ch0 fun c => { c with failed := failed }
        pumps := dosing.adu.pumps.modify .type1 fun p => { p with volume := volume } } }
/-- Pump 1 at rest with a queue. -/
def resting (q : List Channel) : State :=
  { dosing with adu := { dosing.adu with pumps := dosing.adu.pumps.set .type1 { PumpState.fresh with status := .rest, queue := q, restTimer := some 400 } } }
theorem witness_PumpTimersExpire :
    (∀ v ∈ [24, 25], ∀ k ∈ [0, 1],
      (shooting v k).condition = .running ∧ ((shooting v k).adu.pumps.get .type1).shotTimer ≠ none
        ∧ ((shooting v k).adu.pumps.get .type1).status = .shot .ch0 ∧ ((shooting v k).adu.channels.get .ch0).failed = k
        ∧ ((shooting v k).adu.pumps.get .type1).volume = v ∧ ((shooting v k).wc.injectors.get .ch0).shotVolume = 50)
      ∧ (∀ q ∈ [[], [Channel.ch1]], ((resting q).adu.pumps.get .type1).restTimer ≠ none ∧ ((resting q).adu.pumps.get .type1).queue = q)
      ∧ (resting [.ch1]).accepts .emergencyStop = true ∧ (resting [.ch1]).ic.warning = false := by decide +kernel
theorem witness_IntervalIsComputed :
    setup.condition = .running ∧ (loading .highFlow 5000).condition = .running ∧ (setup.fc.get .arm0).state = .idle
      ∧ ((loading .highFlow 5000).fc.get .arm0).state ≠ .idle
      ∧ (loading .highFlow 5000).running.get .arm0 = some (record 5000) := by decide +kernel
theorem witness_GrossAndNetAreCorrected :
    (({ workedHandover with nA := 0 } : Handover).nA * 1000000 + workedChannel.rawResidue) / workedParameters.kMilli.getD 100000 = 0
      ∧ workedChannel.grossResidue < 100000
      ∧ ((workedParameters.mf.first :: workedParameters.mf.rest).map MfPoint.rate).Pairwise (· < ·)
      ∧ (∀ q ∈ workedParameters.mf.first :: workedParameters.mf.rest, 90000 ≤ q.mf ∧ q.mf ≤ 110000)
      ∧ workedParameters.kMilli ≠ none ∧ ({ workedParameters with kMilli := none } : MeterParameters).kMilli = none := by
  decide +kernel
/-- Arm 0 with a start volume of 50 L and a top-off volume of 400 L: 1,000 L are to come, less the lead of 20 L. -/
def pacing (state : ArmState) (gross : Nat) : State :=
  { loading state gross with
    wc := { setup.wc with arms := setup.wc.arms.modify .arm0 fun r => { r with startVolume := 50 } } }
theorem witness_IntervalStagesAndPaces_a :
    (∀ g ∈ [49999, 50000, 599999, 600000, 979999, 980000], ∀ st ∈ [ArmState.lowStart, .highFlow, .topOff],
      ((pacing st g).fc.get .arm0).state = st ∧ (pacing st g).running.get .arm0 = some (record g)
        ∧ (record g).flow.basis = .gross ∧ (record g).metering.gross = g ∧ (record g).flow.preset = 1000000
        ∧ ((pacing st g).fc.get .arm0).lead = 20000 ∧ ((pacing st g).wc.arms.get .arm0).topOffVolume = 400)
      ∧ ∀ n ∈ [1, 2], (((pacing .closing 0).fc.modify .arm0 fun x => { x with closingCount := n }).get .arm0).closingCount = n
        ∧ ((pacing .closing 0).fc.get .arm0).state = .closing := by decide +kernel
/-- A line of 250 mL per 1000 L and 50 mL shots: 199,999 mL are short of a shot, 200,000 make the first and 1,000,000 the fifth. -/
theorem witness_IntervalStagesAndPaces_b :
    (∀ x ∈ [(199999, 0), (200000, 1), (800000, 4), (1000000, 5)],
      x.1 * 250 / (((dosingAt 0 109).wc.injectors.get .ch0).shotVolume * 1000000) = x.2)
      ∧ ((dosingAt 0 0).wc.stock.get .type1).stock = 0 ∧ 0 < ((dosingAt 0 1).wc.stock.get .type1).stock
      ∧ ((loading .highFlow 5000).adu.channels.get .ch0).place = .none
      ∧ ((loading .highFlow 5000).adu.channels.get .ch0).serving = some 0
      ∧ ((loading .highFlow 5000).wc.injectors.get .ch0).additive = some .type1
      ∧ ((resting []).adu.pumps.get .type1).status ≠ .idle := by decide +kernel
/-- A load whose quantity is at the overrun limit, or 1 mL past it. -/
def ending (gross : Nat) (reason : Option EndReason) : State :=
  { loading .closing gross with
    fc := (loading .closing gross).fc.modify .arm0 fun x => { x with closingTimer := some 10000 }
    running := (loading .closing gross).running.set .arm0 (some { record gross with flow := { (record gross).flow with endReason := reason } }) }
theorem witness_ArmTimersExpire :
    (∀ g ∈ [0, 1010000, 1010001], ∀ r ∈ [none, some EndReason.complete, some EndReason.driverFinished],
      (ending g r).condition = .running ∧ ((ending g r).fc.get .arm0).closingTimer ≠ none
        ∧ ((ending g r).fc.get .arm0).state = .closing
        ∧ (ending g r).running.get .arm0 = some { record g with flow := { (record g).flow with endReason := r } }
        ∧ ((ending g r).wc.arms.get .arm0).overrunLimit = 10)
      ∧ ({ (loading .topOff 5).fc.arm0 with noFlowTimer := some 10000 } : FlowController).noFlowTimer ≠ none
      ∧ ((loading .topOff 5).fc.get .arm0).state = .topOff ∧ ((loading .topOff 5).fc.get .arm0).causes = []
      ∧ ({ (loading .paused 5).fc.arm0 with pauseTimer := some 900000 } : FlowController).pauseTimer ≠ none
      ∧ ((loading .paused 5).fc.get .arm0).state = .paused := by decide +kernel
/-- Bay A with its timers running and a dead-man stage. -/
def ticking (s : State) (stage : DeadmanStage) : State :=
  { s with
    bsc := s.bsc.modify .bayA fun x =>
      { x with pinTimer := some 30000, inactivityTimer := some 300000, deadmanTimer := some 120000, stage := stage } }
theorem witness_BayTimersExpire :
    (∀ st ∈ [BayStatus.ident, .signed, .planning, .loading],
      (ticking (session st) .quiet).condition = .running ∧ ((ticking (session st) .quiet).bsc.get .bayA).status = st
        ∧ ((ticking (session st) .quiet).bsc.get .bayA).pinTimer ≠ none
        ∧ ((ticking (session st) .quiet).bsc.get .bayA).inactivityTimer ≠ none
        ∧ ((ticking (session st) .quiet).bsc.get .bayA).driver = some 5
        ∧ ((ticking (session st) .quiet).bsc.get .bayA).order = none)
      ∧ ((ticking (holding .loading) .quiet).bsc.get .bayA).order = some 9
      ∧ (ticking (holding .loading) .quiet).ob.orders.find 9 = some (order .held (some .bayA))
      ∧ (∀ g ∈ [DeadmanStage.quiet, .warning],
        ((ticking (loading .highFlow 5) g).bsc.get .bayA).deadmanTimer ≠ none
          ∧ ((ticking (loading .highFlow 5) g).bsc.get .bayA).stage = g)
      ∧ ((ticking (loading .highFlow 5) .warning).fc.get .arm0).state = .highFlow
      ∧ ((ticking (loading .highFlow 5) .warning).fc.get .arm0).causes = [] := by decide +kernel
/-- Arm 0 in ENDING with an end reason and a running gross. -/
def handing (gross : Nat) : State :=
  { loading .ending gross with
    running := (loading .ending gross).running.set .arm0
      (some { record gross with flow := { (record gross).flow with endReason := some .complete } }) }
theorem witness_HandOverEndsTheCompartment :
    (∀ g ∈ [0, 1],
      (handing g).condition = .running ∧ ((handing g).fc.get .arm0).state = .ending ∧ (handing g).ic.warning = false
        ∧ (handing g).nvc.queue = [] ∧ (handing g).ns.held.get .arm0 = false
        ∧ (handing g).running.get .arm0 = some { record g with flow := { (record g).flow with endReason := some .complete } }
        ∧ (handing g).ob.orders.find 9 = some (order .held (some .bayA)) ∧ (order .held (some .bayA)).cancelPending = false
        ∧ StopCause.deadman ∉ ((handing g).fc.get .arm0).causes ∧ ((handing g).bsc.get .bayA).status = .loading
        ∧ ((handing g).bsc.get .bayA).closePending = false)
      ∧ ∀ c : Channel, c.arm = .arm0 → ((handing 1).adu.channels.get c).place ≠ .inShot :=
  ⟨by decide +kernel, fun c _ => by cases c <;> decide +kernel⟩
/-- The NVC of the tests in the middle of a write. -/
def storing (phase : NvPhase) (queue : List NvEntry) (buffer : Option NvEntry) (area : Option AreaWrite) : State :=
  { loading .highFlow 5 with
    nvc := { setup.nvc with queue := queue, phase := phase, buffer := buffer, areaWrite := area } }
/-- An entry of the queue. -/
def entry : NvEntry := { contents := .driver 6 (some driver), cls := .setting }
theorem witness_StoreWritesComplete :
    (∀ q ∈ [[], [entry]], ∀ p ∈ [NvPhase.normal, .draining],
      (storing p q (some entry) none).condition = .running ∧ (storing p q (some entry) none).nvc.clearDue = false
        ∧ (storing p q (some entry) none).nvc.buffer = some entry ∧ (storing p q (some entry) none).nvc.areaWrite = none
        ∧ (storing p q (some entry) none).nvc.phase = p ∧ (storing p q (some entry) none).nvc.queue = q
        ∧ (storing .normal q none (some .clearing)).nvc.areaWrite = some .clearing)
      ∧ (∀ todo ∈ [[], [Arm.arm3]],
        (storing (.checkpointing todo) [] none (some (.checkpoint .arm0))).nvc.areaWrite = some (.checkpoint .arm0)
        ∧ (storing (.checkpointing todo) [] none (some (.checkpoint .arm0))).running.get .arm0 = some (record 5))
      ∧ ([Arm.arm0, .arm1, .arm2, .arm3].filter fun k => ((loading .highFlow 5).fc.get k).state ≠ .idle) = [.arm0] := by
  decide +kernel
theorem witness_StoreWritesComplete_idle : ∀ a, (setup.fc.get a).state = .idle := fun a => by cases a <;> decide +kernel
theorem witness_WarningIsAssertedAndReleased :
    (loading .highFlow 5).condition = .running ∧ (loading .highFlow 5).ic.warning = false
      ∧ ((loading .highFlow 5).fc.get .arm0).state = .highFlow ∧ ((loading .highFlow 5).fc.get .arm0).causes = []
      ∧ (let s := (storing .drained [] none none).setWarning true
        s.condition = .running ∧ s.ic.warning = true ∧ s.nvc.buffer = none ∧ s.nvc.areaWrite = none
          ∧ ({ s.nvc with area := s.nvc.area.set .arm0 (some { running := record 5, gross := 5, net := 5 }) } : NvController).area.get .arm0 ≠ none)
      := by decide +kernel
/-- A part on the backup supply, with a format mark, its retained memory valid or lost. -/
def unpowered (valid : Bool) : State :=
  { loading .highFlow 5 with condition := .unpowered, nvc := { (loading .highFlow 5).nvc with retainedValid := valid } }
theorem witness_PowerAndResets :
    State.reset.condition = .restoring ∧ State.reset.nvc.buffer = none ∧ State.reset.nvc.areaWrite = none
      ∧ State.reset.nvc.clearDue = false ∧ State.reset.nvc.phase = .normal ∧ State.reset.nvc.queue = []
      ∧ (queued State.reset 1).nvc.queue = [{ contents := .driver 100 none, cls := .setting }]
      ∧ (unpowered true).condition = .unpowered ∧ (loading .highFlow 5).condition ≠ .unpowered
      ∧ (unpowered true).nvc.retainedValid = true ∧ (unpowered false).nvc.retainedValid = false
      ∧ lines.blankStrap = false ∧ (unpowered true).nvc.formatMark = true
      ∧ ({ State.reset with nvc := { State.reset.nvc with formatMark := false } } : State).nvc.formatMark = false := by decide +kernel
/-- Reset meets the hypotheses of every invariant, as it stands and with a command waiting, and takes a step. -/
theorem witness_laws_step :
    step State.reset = .next State.reset ∧ (after (step { State.reset with pending := [.restorationComplete] })).map State.condition = some .running :=
  ⟨rfl, by decide +kernel⟩
theorem witness_FlowAndDeadmanLawsAreKept : State.reset.flowLaw ∧ State.reset.deadmanLaw :=
  ⟨fun a => by cases a <;> decide +kernel, fun b => by cases b <;> decide +kernel⟩
theorem witness_SessionLawIsKept : State.reset.sessionLaw :=
  ⟨fun a h => absurd h (by cases a <;> decide +kernel), fun b _ _ => (by cases b <;> rfl), fun n o b h => (by cases h)⟩
theorem witness_TotalsLawIsKept : State.reset.totalsLaw :=
  fun a => by cases a <;> exact ⟨by decide +kernel, fun r h => by cases h⟩
theorem witness_TablesAndBindingAreKept : State.reset.tablesLaw ∧ State.reset.bindingLaw :=
  ⟨by unfold State.tablesLaw NvRecords.tablesLaw; decide +kernel,
    fun d b => by cases b <;> exact ⟨fun h => (by cases h), fun h => (by cases h)⟩, fun b _ => by cases b <;> rfl⟩
theorem witness_QueueLawIsKept : State.reset.nvc.queueLaw := by unfold NvController.queueLaw; decide +kernel
theorem witness_NotesAndAttemptLawsAreKept :
    (∀ c rest, ({ State.reset with pending := [.restorationComplete] } : State).pending = c :: rest → c.isReset = false)
      ∧ State.reset.notesLaw ∧ State.reset.attemptLaw :=
  ⟨fun c rest h => by cases h; rfl, ⟨by decide +kernel, fun a => by cases a <;> decide +kernel⟩,
    by unfold State.attemptLaw; decide +kernel⟩

/-! ### Witnesses for the further clauses: the refusals of the owners, and cases at the edges -/

/-- Bay A in IDENT, its driver written BLOCKED since, or a full queue. -/
theorem witness_PinSignsInOrCounts_c :
    (∀ p ∈ [[0, 0, 0, 0, 0, 0, 0, 0, 0], [9, 1, 2, 3, 4, 0, 0, 0, 0], [4, 1, 2, 3, 10, 0, 0, 0, 0]],
      (ask (failing 1) .sl1 0x21#8 p).asksAs (.panel .bayA) .sl1 (req 0x21#8 p) 0x21#8 takePin
        { count := (p.headD 0).toNat, digits := p.tail.map BitVec.toNat })
      ∧ (∃ x ∈ [1, 2, 3, 10, 0, 0, 0, 0].take 4, 9 < x)
      ∧ ∀ s ∈ [{ failing 1 with wc := { (failing 1).wc with drivers := [(5, { driver with status := .blocked })] } },
          queued (failing 1) 8],
        (ask s .sl1 0x21#8 [4, 1, 2, 3, 4, 0, 0, 0, 0]).asksAs (.panel .bayA) .sl1 (req 0x21#8 [4, 1, 2, 3, 4, 0, 0, 0, 0]) 0x21#8
            takePin { count := 4, digits := [1, 2, 3, 4, 0, 0, 0, 0] }
          ∧ (s.bsc.get .bayA).status = .ident ∧ (s.bsc.get .bayA).driver = some 5
          ∧ ((s.wc.drivers.find 5).map DriverRecord.status = some .blocked ∨ 8 ≤ s.nvc.queue.length) := by
  unfold State.asksAs State.asks; decide +kernel
/-- The same refused SELECT_ORDERs as in SIGNED, from PLANNING with order 9 held. -/
theorem witness_OrderIsSelectedOrRefused_planning :
    let s := selecting .planning (some 9) [(1, order .held (some .bayB)), (2, order .cancelled none), (3, order .complete none),
      (4, { order .opened none with driver := some 6 }), (5, { order .opened none with bay := some .bayB }),
      (9, order .held (some .bayA))]
    (∀ n ∈ [0, 10000000, 6, 1, 2, 3, 4, 5],
      (ask s .sl1 0x22#8 (natBytes 4 n)).asksAs (.panel .bayA) .sl1 (req 0x22#8 (natBytes 4 n)) 0x22#8 formLong n)
      ∧ (s.bsc.get .bayA).status = .planning ∧ (s.bsc.get .bayA).driver = some 5 ∧ s.ob.orders.find 6 = none := by
  unfold State.asksAs State.asks; decide +kernel
/-- Which compartments the tests' bay A skips: those LOADED, of a product other than 1, or with a recipe other than 3. -/
def skips (c : Compartment) : Bool :=
  decide (c.status = .loaded) || decide (c.product ≠ 1) || (c.recipe.isSome && decide (c.recipe ≠ some 3))
theorem witness_PlansAreCommittedAndCleared_skips (c : Compartment) :
    skips c = true ↔
      (c.status = .loaded
        ∨ (∀ k d p, ((marking (some 1) (some 1) []).bsc.get .bayA).driver = some k →
            (marking (some 1) (some 1) []).wc.drivers.find k = some d →
            (marking (some 1) (some 1) []).wc.products.find c.product = some p → p.cls ∉ d.classes)
        ∨ (∀ a : Arm, a.bay = .bayA → ((marking (some 1) (some 1) []).wc.arms.get a).product ≠ c.product)
        ∨ ∃ code, c.recipe = some code
          ∧ ∀ x, (marking (some 1) (some 1) []).wc.recipes.find code = some x → x.product = c.product → ∀ a : Arm, a.bay = .bayA →
            ((marking (some 1) (some 1) []).wc.arms.get a).product = c.product →
            ∃ y ∈ x.lines, ∀ k : Channel, k.arm = a →
              ((marking (some 1) (some 1) []).wc.injectors.get k).additive ≠ some y.additive) := by
  obtain ⟨number, product, planned, basis, recipe, status, dg, dn, arm, before⟩ := c
  have hp : (marking (some 1) (some 1) []).wc.products = [(1, { cls := 1, alpha := 9500, fallback := 1500 })] := rfl
  have hr : (marking (some 1) (some 1) []).wc.recipes =
    [(3, { product := 1, lines := [{ additive := .type1, dose := 250 }], tolerance := 50 })] := rfl
  rw [hp, hr]
  simp only [skips, Bool.or_eq_true, decide_eq_true_eq, Bool.and_eq_true, or_assoc]
  by_cases h1 : product = 1
  · subst h1
    have hc : ¬∀ k d p, ((marking (some 1) (some 1) []).bsc.get .bayA).driver = some k →
        (marking (some 1) (some 1) []).wc.drivers.find k = some d →
        Assoc.find [(1, ({ cls := 1, alpha := 9500, fallback := 1500 } : ProductRecord))] 1 = some p → p.cls ∉ d.classes :=
      fun h => h 5 driver { cls := 1, alpha := 9500, fallback := 1500 } rfl rfl rfl (by decide)
    have ha : ¬∀ a : Arm, a.bay = .bayA → ((marking (some 1) (some 1) []).wc.arms.get a).product ≠ 1 :=
      fun h => h .arm0 rfl rfl
    simp only [hc, ha, ne_eq, not_true_eq_false, false_or]
    refine or_congr_right ⟨fun ⟨hs, hn⟩ => ?_, fun ⟨code, hs, h⟩ => ?_⟩
    · obtain ⟨code, rfl⟩ := Option.isSome_iff_exists.mp hs
      refine ⟨code, rfl, fun x hx => ?_⟩
      have : code ≠ 3 := fun h => hn (by rw [h])
      simp only [Assoc.find] at hx
      rw [if_neg (by omega)] at hx
      cases hx
    · subst hs
      refine ⟨rfl, fun h3 => ?_⟩
      cases h3
      obtain ⟨y, hy, hk⟩ := h _ rfl rfl .arm0 rfl rfl
      simp only [List.mem_singleton] at hy
      subst hy
      exact hk .ch0 rfl rfl
  · refine ⟨fun _ => .inr (.inl fun k d p _ _ hf => ?_), fun _ => .inr (.inl h1)⟩
    simp only [Assoc.find] at hf
    rw [if_neg (by omega)] at hf
    cases hf
/-- STOP, RESUME, FINISH and ACK_CAUSE of an arm that does not exist and of one of bay B, and codes of no cause. -/
theorem witness_StopAndFinish_refused :
    ∀ n ∈ [2, 3, 4], ∀ code ∈ [0x29#8, 0x2A#8, 0x2C#8],
      (ask (loading .paused 5000) .sl1 code (natBytes 1 n)).asksAs (.panel .bayA) .sl1 (req code (natBytes 1 n)) code formByte n
        ∧ ((loading .paused 5000).bsc.get .bayA).status = .loading ∧ Arm.arm2.toNat = 2 ∧ Arm.arm2.bay ≠ .bayA := by
  unfold State.asksAs State.asks; decide +kernel
theorem witness_AcknowledgedCauseIsRemoved_refused :
    ∀ x ∈ [(4, 1), (0, 0), (0, 14), (2, 1), (3, 13)],
      (ask (loading .paused 5000) .sl1 0x2B#8 (natBytes 1 x.1 ++ natBytes 1 x.2)).asksAs (.panel .bayA) .sl1
        (req 0x2B#8 (natBytes 1 x.1 ++ natBytes 1 x.2)) 0x2B#8 formTwoBytes x := by
  unfold State.asksAs State.asks; decide +kernel
/-- A Driver Table of 128 records, 1 to 128. -/
def crowded : State :=
  { setup with wc := { setup.wc with drivers := (List.range 128).map fun k => (k + 1, driver) } }
theorem witness_DriversAreWritten_refused :
    (∀ x ∈ [(0, 4), (100000000, 4), (1, 3), (1, 9)],
      (ask setup .sl0 0x40#8 (driverPayload x.1 x.2)).asksAs .office .sl0 (req 0x40#8 (driverPayload x.1 x.2)) 0x40#8 formWriteDriver
        (driverFields x.1 x.2))
      ∧ (ask crowded .sl0 0x40#8 (driverPayload 129 4)).asksAs .office .sl0 (req 0x40#8 (driverPayload 129 4)) 0x40#8 formWriteDriver
        (driverFields 129 4)
      ∧ crowded.wc.drivers.length = 128 ∧ crowded.wc.drivers.find 129 = none
      ∧ (∀ n ∈ [0, 100000000, 2, 5],
        (ask (session .signed) .sl0 0x41#8 (natBytes 4 n)).asksAs .office .sl0 (req 0x41#8 (natBytes 4 n)) 0x41#8 formLong n)
      ∧ (session .signed).wc.drivers.find 2 = none ∧ (session .signed).boundBay 5 = some .bayA
      ∧ (∀ x ∈ [(0, 4), (100000000, 4), (1, 3), (1, 9), (2, 4)],
        let p := natBytes 4 x.1 ++ natBytes 1 x.2 ++ [1, 1, 1, 1, 0, 0, 0, 0]
        (ask setup .sl0 0x42#8 p).asksAs .office .sl0 (req 0x42#8 p) 0x42#8 formResetPin
          (x.1, { count := x.2, digits := [1, 1, 1, 1, 0, 0, 0, 0] }))
      ∧ (∀ s ∈ [queued setup 8], 8 ≤ s.nvc.queue.length
        ∧ (ask s .sl0 0x40#8 (driverPayload 1 4)).asksAs .office .sl0 (req 0x40#8 (driverPayload 1 4)) 0x40#8 formWriteDriver
          (driverFields 1 4)
        ∧ (ask s .sl0 0x41#8 [0, 0, 0, 1]).asksAs .office .sl0 (req 0x41#8 [0, 0, 0, 1]) 0x41#8 formLong 1
        ∧ s.wc.drivers.find 1 = some driver ∧ s.boundBay 1 = none) := by
  unfold State.asksAs State.asks; decide +kernel
/-- WRITE_ORDERs refused: numbers and quantities out of range; with no products; with no recipe; with a recipe of another product;
with the table full; over orders HELD, CANCELLED and part loaded. -/
theorem witness_OrdersAreWrittenAndDeleted_refused :
    let wc (r : NvRecords) : State := { setup with wc := r }
    let ob (orders : Assoc Order) : State := { setup with ob := { orders := orders } }
    let part := { order .opened none with compartments := [{ compartment with status := .partLoaded }] }
    let full := ob ((List.range 48).map fun k => (k + 2, order .opened none))
    (∀ x ∈ [(0, 100), (10000000, 100), (1, 99), (1, 40001)],
      (ask setup .sl0 0x44#8 (orderPayload x.1 x.2)).asksAs .office .sl0 (req 0x44#8 (orderPayload x.1 x.2)) 0x44#8 formWriteOrder
        (orderFields x.1 x.2))
      ∧ (∀ s ∈ [wc { setup.wc with products := [] }, wc { setup.wc with recipes := [] },
          wc { setup.wc with recipes := [(3, { product := 2, lines := [], tolerance := 50 })] }, full,
          ob [(1, order .held (some .bayA))], ob [(1, order .cancelled none)], ob [(1, part)], ob [(1, order .complete none)]],
        (ask s .sl0 0x44#8 (orderPayload 1 100)).asksAs .office .sl0 (req 0x44#8 (orderPayload 1 100)) 0x44#8 formWriteOrder
          (orderFields 1 100))
      ∧ full.ob.orders.length = 48 ∧ full.ob.orders.find 1 = none ∧ part.compartments.map Compartment.status = [.partLoaded] := by
  unfold State.asksAs State.asks; decide +kernel
theorem witness_IdleOrderIsCancelled_refused :
    ∀ n ∈ [0, 10000000, 1],
      (ask oneOrder .sl0 0x47#8 (natBytes 4 n)).asksAs .office .sl0 (req 0x47#8 (natBytes 4 n)) 0x47#8 formLong n
        ∧ oneOrder.ob.orders.find 1 = none := by
  unfold State.asksAs State.asks; decide +kernel
/-- WRITE_RECIPEs refused: out of range, for a product that does not exist, of a recipe under load, and with the queue full. -/
theorem witness_RecipeIsWritten_refused :
    (∀ x ∈ [(0, 1, 9, 50), (25, 1, 10, 50), (1, 0, 10, 50), (1, 16, 10, 50), (1, 1, 9, 50), (1, 1, 10001, 50), (1, 1, 10, 9),
        (1, 1, 10, 201), (1, 2, 10, 50), (3, 1, 10, 50)], ∀ s ∈ [setup, queued setup 8, loading .paused 5],
      let p := natBytes 1 x.1 ++ natBytes 1 x.2.1 ++ [1, 1] ++ natBytes 2 x.2.2.1 ++ [1] ++ natBytes 1 x.2.2.2
      (ask s .sl0 0x48#8 p).asksAs .office .sl0 (req 0x48#8 p) 0x48#8 formWriteRecipe
        { code := x.1, product := x.2.1, lines := [(1, x.2.2.1)], tolerance := some x.2.2.2 })
      ∧ setup.wc.products.find 2 = none ∧ (loading .paused 5).wc.recipes.find 3 ≠ none
      ∧ ((loading .paused 5).fc.get .arm0).state ≠ .idle ∧ (loading .paused 5).running.get .arm0 = some (record 5)
      ∧ (record 5).note.recipe = some 3 := by
  unfold State.asksAs State.asks; decide +kernel
/-- SET_BAY_SERVICE out of range; OUT of a bay in every state of its session, with and without an order, with an arm loading, and with
the queue full. -/
theorem witness_BayServiceIsSet_sessions :
    (∀ x ∈ [(2, 0), (0, 2), (1, 1)],
      (ask setup .sl0 0x49#8 (natBytes 1 x.1 ++ natBytes 1 x.2)).asksAs .office .sl0 (req 0x49#8 (natBytes 1 x.1 ++ natBytes 1 x.2))
        0x49#8 formTwoBytes x)
      ∧ (∀ s ∈ [session .ident, session .signed, session .planning, session .loading, holding .loading, loading .highFlow 5,
          queued (session .signed) 8], ∀ k ∈ [0, 1],
        (ask s .sl0 0x49#8 (natBytes 1 0 ++ natBytes 1 k)).asksAs .office .sl0 (req 0x49#8 (natBytes 1 0 ++ natBytes 1 k)) 0x49#8
            formTwoBytes (Bay.bayA.toNat, k)
          ∧ (s.bsc.get .bayA).status ≠ .outOfService ∧ (s.bsc.get .bayA).closePending = false ∧ (s.bsc.get .bayA).driver = some 5)
      ∧ ((session .loading).bsc.get .bayA).order = none ∧ ((holding .loading).bsc.get .bayA).order = some 9
      ∧ (holding .loading).ob.orders.find 9 = some (order .held (some .bayA))
      ∧ (∀ a ∈ Bay.bayA.arms, ((holding .loading).fc.get a).state = .idle)
      ∧ ¬(∀ a ∈ Bay.bayA.arms, ((loading .highFlow 5).fc.get a).state = .idle) := by
  unfold State.asksAs State.asks; decide +kernel
theorem witness_OfficeStopsAndReleases_refused :
    ∀ code ∈ [0x4A#8, 0x4B#8], (ask setup .sl0 code [2]).asksAs .office .sl0 (req code [2]) code formByte 2 := by
  unfold State.asksAs State.asks; decide +kernel
theorem witness_StockIsSetAndRead_refused :
    ∀ x ∈ [(0, 1, 1), (7, 1, 1), (1, 20000001, 1), (1, 1, 2), (6, 20000000, 20000000)],
      let p := natBytes 1 x.1 ++ natBytes 4 0 ++ natBytes 4 x.2.1 ++ natBytes 4 x.2.2
      (ask (queued setup 8) .sl0 0x4C#8 p).asksAs .office .sl0 (req 0x4C#8 p) 0x4C#8 formSetStock
        { additive := x.1, stock := 0, capacity := x.2.1, reserve := x.2.2 } := by
  unfold State.asksAs State.asks; decide +kernel
/-- A note whose own entry is still queued holds the hand-over of the arm it is of, and its release frees it. -/
def heldUp : State :=
  let s := handing 1
  let n := (record 1).toNote { s.wc with nextNote := 1 } .arm0 .complete none { gross := 0, net := 0 } false
  { s with wc := { s.wc with notes := [n], nextNote := 2 }
           nvc := { s.nvc with buffer := some entry, queue := [{ contents := .note n 2, cls := .endClass }] } }
theorem witness_OldestNoteIsReleased_frees :
    let s := ask heldUp .sl0 0x4F#8 [0, 0, 0, 1]
    s.asksAs .office .sl0 (req 0x4F#8 [0, 0, 0, 1]) 0x4F#8 formLong 1 ∧ s.handOverReady .arm0 = false
      ∧ (after (exec (.releaseNote .sl0) s)).map (fun t => (t.wc.notes.map NoteRecord.number, (t.fc.get .arm0).state)) =
        some ([2], .idle) := by
  unfold State.asksAs State.asks; decide +kernel
/-- The hand-over is taken in the completion of the write that brings the note's entry into the buffer (R166). -/
theorem test_write_complete_takes_the_held_hand_over :
    (heldUp.fc.get .arm0).state = .ending
      ∧ (after (exec .nvWriteComplete heldUp)).map (fun t => (t.wc.notes.map NoteRecord.number, (t.fc.get .arm0).state)) =
        some ([1, 2], .idle) := by decide +kernel
/-- Each baud strap's rate, 5 to 7 with that of 0 (R1). -/
theorem test_baud_rates :
    ((List.range 8).map fun n => (after (exec (.powerOnReset { lines with baudStrap := n }) State.reset)).map fun t => t.lc.baudRate) =
      [9600, 19200, 38400, 57600, 115200, 9600, 9600, 9600].map some := by decide +kernel
/-- A link that holds a response whose status word shows NOTE_ADDED. -/
def responding : State :=
  base.modifyLink .sl0 fun k =>
    { k with
      slot := .responding { tag := 7, code := 1, result := .ok, status := 0x2000#32, payload := [] }
      flags := { k.flags with noteAdded := true, causeRaised := true } }
/-- A flag the captured word showed set is cleared as the response ends, one not shown stays, and so does one raised again (R5). -/
theorem test_flags_at_the_end_of_a_response :
    (after (exec (.responseSent .sl0) responding)).map (fun t => (t.lc.links.sl0.flags.noteAdded, t.lc.links.sl0.flags.causeRaised)) =
        some (false, true)
      ∧ (after (exec (.responseSent .sl0) (responding.raiseFlag (.noteAdded .bayA)))).map (fun t => t.lc.links.sl0.flags.noteAdded) =
        some true := by decide +kernel
/-- A frame with a wrong first CRC character, and one with a wrong last. -/
theorem witness_LinkEventsMoveTheReceiver_crc :
    ∀ x ∈ [(1, 0), (0, 1)],
      let b := (req 0x01#8 []).bytes
      let body := b.dropLast.dropLast
      let first := b.dropLast.getLastD 0
      let last := b.getLastD 0
      let wrong := first + BitVec.ofNat 8 x.1
      let c := last + BitVec.ofNat 8 x.2
      b = body ++ [first, last] ∧ [0x7E#8] ++ (body.drop 1 ++ [wrong]) ++ [c] = body ++ [wrong, c] ∧ (wrong ≠ first ∨ c ≠ last)
        ∧ ((collecting (body.drop 1 ++ [wrong])).lc.links.get .sl0).receiver = .collecting (body.drop 1 ++ [wrong]) := by
  decide +kernel
/-- The emergency stop goes back to inactive with pump 1 IDLE and channel 1 in its queue. -/
theorem witness_InputsAreAccepted_serves :
    let s := inputAt { resting [.ch1] with adu := { (resting [.ch1]).adu with
      pumps := (resting [.ch1]).adu.pumps.modify .type1 fun p => { p with status := .idle, restTimer := none } } }
      .emergencyStop .energized .deenergized true
    (s.ic.inputs.get .emergencyStop).timing = true ∧ (s.adu.pumps.get .type1).status = .idle ∧ s.ic.warning = false
      ∧ (s.adu.pumps.get .type1).queue.head? = some .ch1
      ∧ (after (exec (.debounceExpiry .emergencyStop) s)).map (fun t => (t.adu.channels.get .ch1).place) = some .inShot := by
  decide +kernel
/-- Arm 0 with 10 marks and 2,000 mL of reverse volume behind it, its probe required and out of order at the raw count of 0. -/
def erring : State :=
  { loading .highFlow 5000 with
    wc := { setup.wc with arms := setup.wc.arms.modify .arm0 fun r => { r with mode := .dual, atcRequired := true } }
    ic :=
      { setup.ic with
        meters := setup.ic.meters.modify .arm0 fun m => { m with counts := { nA := 5, nB := 0, reverse := 1 } } }
    running := (loading .highFlow 5000).running.set .arm0 (some { record 5000 with
      metering := { (record 5000).metering with pulseErrors := 10, reverse := 2000 } }) }
theorem witness_IntervalIsComputed_faults :
    erring.condition = .running ∧ (erring.fc.get .arm0).state ≠ .idle ∧ (erring.wc.arms.get .arm0).fidelity < 5 - 0
      ∧ (after (exec (.meteringIntervalEnd .arm0 0 .flowFirst) erring)).map (fun t => ((t.fc.get .arm0).state, (t.fc.get .arm0).causes)) =
        some (.closing, [.pulseFault, .probeFault]) := by decide +kernel
/-- R105's five steps at the worked temperature, and the two points about the worked rate. -/
theorem witness_GrossAndNetAreCorrected_steps :
    let p : Int := 9500 * (2450 - 1500)
    p = 9025000 ∧ 65161 * 10000000000 ≤ 8 * p * p + 5000000000 ∧ 8 * p * p + 5000000000 < (65161 + 1) * 10000000000
      ∧ 99091 * 10000 ≤ 1000000000 - p - 65161 + 5000 ∧ 1000000000 - p - 65161 + 5000 < (99091 + 1) * 10000
      ∧ workedParameters.mf.first :: workedParameters.mf.rest =
        [] ++ { rate := 600, mf := 100120 } :: { rate := 1200, mf := 100040 } :: []
      ∧ 600 ≤ 1000 ∧ 1000 < 1200 := by decide +kernel
/-- The states that take causes in an interval; pump 1 IDLE, with and without a queue, and the emergency stop. -/
theorem witness_IntervalStagesAndPaces_c :
    (∀ st ∈ [ArmState.idle, .paused, .ending, .closing, .highFlow], ((loading st 5000).fc.get .arm0).state = st)
      ∧ (((loading .highFlow 5000).raiseCause .arm0 .pulseFault).fc.get .arm0).state = .closing
      ∧ (((loading .highFlow 5000).adu.pumps.get .type1).status = .idle ∧ (loading .highFlow 5000).accepts .emergencyStop = true
        ∧ (loading .highFlow 5000).ic.warning = false ∧ ((loading .highFlow 5000).adu.pumps.get .type1).queue ++ [Channel.ch0] = [.ch0])
      ∧ (inputAt (loading .highFlow 5000) .emergencyStop .deenergized .deenergized true).accepts .emergencyStop = false := by
  decide +kernel
/-- The six things that hold a hand-over. -/
theorem witness_HandOverEndsTheCompartment_held :
    let s := handing 1
    let held (k : Arm) (n : NvController) : State := { s with ns := { s.ns with held := s.ns.held.set k true }, nvc := n }
    ∀ t ∈ [loading .paused 1, { s with adu := dosing.adu }, s.setWarning true, heldUp,
        { held .arm0 { s.nvc with areaWrite := some .clearing } with condition := .running },
        held .arm0 { s.nvc with clearDue := true }],
      t.condition = .running ∧ t.handOverReady .arm0 = false
        ∧ after (exec (.handOver .arm0) t) = some t := by decide +kernel
/-- A hand-over held behind a lower arm's, which itself is not held back by a note. -/
theorem witness_HandOverEndsTheCompartment_lower :
    let s := handing 1
    let t : State :=
      { s with fc := s.fc.modify .arm1 fun x => { x with state := .ending }
               ns := { s.ns with held := (s.ns.held.set .arm0 true).set .arm1 true } }
    t.condition = .running ∧ t.handOverReady .arm0 = true ∧ t.handOverReady .arm1 = false ∧ t.noteQueued .arm0 = false := by
  decide +kernel
/-- The order to be cancelled, the close pending, both, and DEADMAN under an alarm, with all else that a hand-over takes. -/
theorem witness_HandOverEndsTheCompartment_ends :
    ∀ g ∈ [0, 1], ∀ cancel ∈ [true, false], ∀ close ∈ [true, false], ∀ causes ∈ [[], [StopCause.deadman]],
      let h := handing g
      let o : Order := { order .held (some .bayA) with cancelPending := cancel }
      let s : State :=
        { h with
          ob := { orders := [(9, o)] }
          bsc := h.bsc.modify .bayA fun x => { x with closePending := close, alarm := true }
          fc := h.fc.modify .arm0 fun x => { x with causes := causes } }
      s.condition = .running ∧ s.handOverReady .arm0 = true
        ∧ s.running.get .arm0 = some { record g with flow := { (record g).flow with endReason := some .complete } }
        ∧ s.ob.orders.find (record g).flow.order = some o ∧ o.holding = some Arm.arm0.bay
        ∧ (s.bsc.get Arm.arm0.bay).status = .loading ∧ (s.bsc.get Arm.arm0.bay).order = some (record g).flow.order
        ∧ (s.fc.get Arm.arm0.other).state = .idle
        ∧ (after (exec (.handOver .arm0) s)).map (fun t => ((t.bsc.get .bayA).status, (t.bsc.get .bayA).alarm)) =
          some (if close then .outOfService else if cancel then .signed else .loading, causes.isEmpty) := by decide +kernel
/-- Beside the other arm of the bay, still PAUSED on the same order: neither the cancellation nor the close completes. -/
theorem witness_HandOverEndsTheCompartment_other :
    let h := handing 1
    let s : State :=
      { h with
        ob := { orders := [(9, { order .held (some .bayA) with cancelPending := true })] }
        bsc := h.bsc.modify .bayA fun x => { x with closePending := true }
        fc := h.fc.modify .arm1 fun x => { x with state := .paused }
        running := h.running.set .arm1 (some (record 5)) }
    s.handOverReady .arm0 = true ∧ (record 5).flow.order = 9 ∧ (s.fc.get Arm.arm0.other).state ≠ .idle
      ∧ (after (exec (.handOver .arm0) s)).map (fun t => (t.bsc.get .bayA).status) = some .loading := by decide +kernel
/-- A clearing that is due, the drained phase, an IDLE rack under drain, and the places an entry may take in the queue. -/
theorem witness_StoreWritesComplete_c :
    (let n : NvController := { (storing .draining [] (some entry) none).nvc with clearDue := true }
     n.buffer = some entry ∧ n.areaWrite = none ∧ n.clearDue = true)
      ∧ (storing .drained [] (some entry) none).nvc.phase = .drained
      ∧ (storing (.checkpointing []) [] none (some (.checkpoint .arm0))).nvc.phase = .checkpointing []
      ∧ (∀ q ∈ [[], [entry]], (storing .normal q none none).condition = .running ∧ (storing .normal q none none).nvc.buffer = none
        ∧ (storing .normal q none none).nvc.areaWrite = none ∧ (storing .normal q none none).nvc.clearDue = false)
      ∧ (∀ c ∈ [NvContents.driver 6 none, .driver 7 none, .release 1], ∀ cls ∈ [EntryClass.setting, .endClass],
        let q := [{ entry with cls := cls }, { contents := .release 2, cls := .endClass }]
        enqueue q { contents := c, cls := .setting } =
          if c = .driver 6 none then [{ contents := c, cls := cls }, { contents := .release 2, cls := .endClass }]
          else if c = .release 1 then [{ entry with cls := cls }, { contents := .release 1, cls := .setting }]
          else q ++ [{ contents := c, cls := .setting }]) := by decide +kernel
/-- The warning before restoration is complete, over a clearing due, and with nothing to drain; its end with a write in progress, a
checkpoint being written, and nothing to write. -/
theorem witness_WarningIsAssertedAndReleased_b :
    (State.reset.condition = .restoring ∧ State.reset.ic.warning = false ∧ (State.reset.setWarning true).ic.warning = true)
      ∧ (setup.condition = .running ∧ setup.ic.warning = false ∧ setup.nvc.buffer = none ∧ setup.nvc.areaWrite = none
        ∧ setup.nvc.clearDue = false ∧ setup.nvc.queue = [] ∧ ({ setup.nvc with clearDue := true } : NvController).clearDue = true)
      ∧ ([Arm.arm0, .arm1, .arm2, .arm3].filter fun k => ((loading .highFlow 5).fc.get k).state ≠ .idle) = [.arm0]
      ∧ (storing .normal [entry] none none).nvc.queue = [entry]
      ∧ (∀ a ∈ [some (AreaWrite.checkpoint .arm0), some .clearing, none], ∀ b ∈ [none, some entry],
        let s := (storing (.checkpointing []) [] b a).setWarning true
        s.condition = .running ∧ s.ic.warning = true ∧ s.nvc.areaWrite = a ∧ s.nvc.buffer = b)
      ∧ (let s := (resting [.ch1]).setWarning true
        s.ic.warning = true ∧ s.accepts .emergencyStop = true ∧ (s.adu.pumps.get .type1).queue.head? = some .ch1) := by
  decide +kernel
theorem witness_WarningIsAssertedAndReleased_idle : ∀ a, (setup.fc.get a).state = .idle := fun a => by cases a <;> decide +kernel
/-- A part at the end of its restoration, its write still in the buffer, or under a warning; and one with nothing to restore from. -/
theorem witness_PowerAndResets_b :
    (let n : NvController := { State.reset.nvc with buffer := some entry, phase := .draining }
     n.buffer ≠ none ∧ n.phase = .draining ∧ n.queue = [])
      ∧ (loading .highFlow 5).condition ≠ .unpowered
      ∧ ({ lines with blankStrap := true } : ResetLines).blankStrap = true
      ∧ (after (exec (.externalReset lines) (loading .highFlow 5))).map (fun t => (t.wc.notes.map NoteRecord.endReason, t.wc.nextNote)) =
        some ([.reset], 2) := by decide +kernel
theorem witness_PowerAndResets_idle : ∀ a, (State.reset.fc.get a).state = .idle := fun a => by cases a <;> decide +kernel
theorem witness_QueueLawIsKept_load : State.reset.sessionLaw ∧ State.reset.queueLoad ≤ 23 :=
  ⟨witness_SessionLawIsKept, by decide +kernel⟩
/-- The result that a link's response carries. -/
def resultOn (l : Link) (o : Host.Outcome State Fault Refusal) : Option ResultCode :=
  match o with
  | .next t =>
    match (t.lc.links.get l).slot with
    | .responding r => some r.result
    | .pending _ | .empty => none
  | .fault _ | .refused _ => none
/-- Writes of the values held by driver 1, recipe 3, product 1, arm 0, channel 0, pump 1 and the rack, and bay A's flag. -/
def heldWrites : List (Instr × Link × Byte × List Byte) :=
  [(.writeDriver .sl0, .sl0, 0x40#8, natBytes 4 1 ++ [4, 1, 2, 3, 4, 0, 0, 0, 0] ++ [0, 1, 1, 0]),
   (.resetPin .sl0, .sl0, 0x42#8, natBytes 4 1 ++ [4, 1, 2, 3, 4, 0, 0, 0, 0]),
   (.writeRecipe .sl0, .sl0, 0x48#8, [3, 1, 1, 1] ++ natBytes 2 250 ++ [0]),
   (.setBayService .sl0, .sl0, 0x49#8, [0, 1]),
   (.writeProduct .sl3, .sl3, 0x60#8, [1, 1] ++ natBytes 2 9500 ++ natBytes 2 1500),
   (.writeArm .sl3, .sl3, 0x61#8, unsealedPayload 1),
   (.writeInjector .sl3, .sl3, 0x62#8, [0, 1] ++ natBytes 2 50 ++ natBytes 4 1000000 ++ natBytes 2 1500),
   (.writePump .sl3, .sl3, 0x63#8, [1] ++ natBytes 2 400),
   (.writeRack .sl3, .sl3, 0x64#8,
     (List.replicate 10 (natBytes 2 64)).flatten ++ natBytes 2 8 ++ (List.replicate 3 (natBytes 2 64)).flatten ++ [3]
       ++ natBytes 2 120 ++ natBytes 2 900)]
/-- Each is answered OK with 7 entries queued and with 8, and changes nothing but the link (R165, log 35). -/
theorem test_values_held_need_no_entry :
    ∀ n ∈ [7, 8], ∀ c ∈ heldWrites,
      let o := exec c.1 (ask (queued setup n) c.2.1 c.2.2.1 c.2.2.2)
      c.1.needsSetting = true ∧ resultOn c.2.1 o = some .ok
        ∧ (after o).map (fun t => { t with lc := setup.lc }) = some { queued setup n with lc := setup.lc } := by decide +kernel
/-- A SET_STOCK of the values held is BUSY at 8 entries; at 7 it adds one, and the repeat after it replaces that one (R6, R143). -/
theorem test_repeated_stock_is_written :
    let c : List Byte := [1] ++ natBytes 4 1000 ++ natBytes 4 2000 ++ natBytes 4 100
    let taken (s : State) := after (exec (.setStock .sl0) (ask s .sl0 0x4C#8 c))
    let queue (t : State) := t.nvc.queue.map (·.contents)
    let writing (n : Nat) : State :=
      { setup with nvc := { (queued setup n).nvc with buffer := some { contents := .driver 99 none, cls := .setting } } }
    resultOn .sl0 (exec (.setStock .sl0) (ask (queued setup 8) .sl0 0x4C#8 c)) = some .busy
      ∧ (taken (writing 7)).map queue = some ((writing 7).nvc.queue.map (·.contents) ++ [.stock setup.wc.stock])
      ∧ ((taken (writing 6)).bind taken).map (·.nvc.queue.length) = some 7 := by decide +kernel
/-- The recipe's line on the lower channel of arm 0, or on the upper where the lower has another type. -/
theorem witness_AcceptedStartOpensTheCompartment_c :
    let s := starting 0
    let upper : State := { s with wc := { s.wc with injectors := (s.wc.injectors.set .ch1 (s.wc.injectors.get .ch0)).set .ch0 .blank } }
    s.wc.recipes.find 3 = some { product := 1, lines := [{ additive := .type1, dose := 250 }], tolerance := 50 }
      ∧ compartment.recipe = some 3 ∧ compartment.product = 1 ∧ Channel.ch0.toNat = 2 * Arm.arm0.toNat
      ∧ Channel.ch1.toNat = 2 * Arm.arm0.toNat + 1 ∧ (s.wc.injectors.get .ch0).additive = some .type1
      ∧ (upper.wc.injectors.get .ch0).additive ≠ some .type1 ∧ (upper.wc.injectors.get .ch1).additive = some .type1
      ∧ s.accepts (.parked .arm0) = true ∧ s.accepts .emergencyStop = true := by decide +kernel
theorem witness_AcceptedStartOpensTheCompartment_permits : ∀ p, (starting 0).accepts (.permissive p .bayA) = true :=
  fun p => by cases p <;> decide +kernel
/-- Selectors and numbers out of range. -/
theorem witness_DriversAndOrdersAreRead_range :
    ∀ x ∈ [(0, 0), (1, 2), (100000000, 0), (100000000, 1)],
      let p := natBytes 4 x.1 ++ natBytes 1 x.2
      (ask setup .sl0 0x43#8 p).asksAs .office .sl0 (req 0x43#8 p) 0x43#8 formSelect x
        ∧ (ask setup .sl0 0x46#8 p).asksAs .office .sl0 (req 0x46#8 p) 0x46#8 formSelect x := by
  unfold State.asksAs State.asks; decide +kernel
/-- The fifth pulse of a shot of five takes the last 10 mL: it counts, ends the shot, and then pauses the arm (R139, R144, R145). -/
theorem test_pulse_that_empties_the_stock :
    let t := after (exec (.additivePulse .ch0) (dosingAt 4 10))
    t.map (fun t => ((t.wc.stock.get .type1).stock, (t.adu.pumps.get .type1).status, (t.fc.get .arm0).causes)) =
        some (0, .rest, [.additiveFault])
      ∧ t.map (fun t => (t.running.get .arm0).map fun y => y.lines.map LineRecord.injected) = some (some [10]) := by decide +kernel
/-- Bay A with arm 0 in CLOSING, which it left flow for in WARNING. -/
def leftBehind : State :=
  { loading .closing 5 with
    bsc := (loading .closing 5).bsc.modify .bayA fun x => { x with deadmanTimer := none, stage := .quiet, leftInWarning := [.arm0] } }
/-- An expiry ahead of that leaving records DEADMAN on the arm in CLOSING; one that is not does not happen (R91). -/
theorem witness_BayTimersExpire_late :
    leftBehind.condition = .running ∧ (leftBehind.bsc.get .bayA).deadmanTimer = none ∧ Arm.arm0 ∈ (leftBehind.bsc.get .bayA).leftInWarning
      ∧ (after (exec (.deadmanTimerExpiry { bay := .bayA, ahead := .const true }) leftBehind)).map (fun t =>
          ((t.fc.get .arm0).state, (t.fc.get .arm0).causes, (t.bsc.get .bayA).alarm, (t.bsc.get .bayA).leftInWarning)) =
        some (.closing, [.deadman], true, [])
      ∧ after (exec (.deadmanTimerExpiry { bay := .bayA, ahead := .const false }) leftBehind) = some leftBehind := by decide +kernel
/-- An arm that leaves flow in WARNING is noted, and its bay's timer stops (R90, R91). -/
theorem test_leaving_in_warning_is_noted :
    ((ticking (loading .highFlow 5) .warning).raiseCause .arm0 .pulseFault).bsc.get .bayA =
      { (ticking (loading .highFlow 5) .warning).bsc.get .bayA with
        deadmanTimer := none, stage := .quiet, leftInWarning := [.arm0] } := by decide +kernel
/-- The interval that completes the preset with five shots due at once: paced first the arm pauses for the lag, staged first it is not
paced, and told of the leaving last it is in CLOSING when the lag is raised (R136, R137). -/
theorem test_interval_orders :
    [IntervalOrder.flowFirst, .dosingFirst, .leavingLast].map (fun o =>
        (after (exec (.meteringIntervalEnd .arm0 32550 o) (pacing .topOff 1000000))).map fun t =>
          ((t.fc.get .arm0).state, (t.fc.get .arm0).causes)) =
      [some (.closing, []), some (.paused, [.additiveLag]), some (.closing, [.additiveLag])] := by decide +kernel
/-- 200 L require 50 mL of the tests' line, and 50 permille allow 48 but not 47. -/
theorem witness_HandOverEndsTheCompartment_deviates :
    (record 200000).note.recipe = some 3
      ∧ setup.wc.recipes.find 3 = some { product := 1, lines := [{ additive := .type1, dose := 250 }], tolerance := 50 }
      ∧ [47, 48, 52, 53].map (fun ml =>
          ({ record 200000 with lines := [{ additive := .type1, dose := 250, channel := .ch0, requested := 1, injected := ml }] } :
            Running).deviates setup.wc) = [true, false, false, true] := by decide +kernel
/-- The release of the middle of three notes, and of one that was never there (R164, log 24). -/
theorem witness_StoreWritesComplete_release :
    let n : Nat → NoteRecord := fun k => (record 1).toNote { setup.wc with nextNote := k } .arm0 .complete none { gross := 0, net := 0 } false
    let w : NvRecords := { setup.wc with notes := [n 1, n 2, n 3] }
    w.notes = [n 1] ++ n 2 :: [n 3] ∧ (n 2).number = 2 ∧ (∀ y ∈ [n 1], y.number ≠ 2) ∧ (∀ y ∈ w.notes, y.number ≠ 4)
      ∧ (w.write (.release 2)).notes = [n 3] ∧ (w.write (.release 4)).notes = [] := by decide +kernel
/-- A note queued behind a driver's entry, with arm 0 under load again, at an external reset and at a loss of retained memory. -/
def copied (valid : Bool) (c : Instr) : State :=
  { heldUp with
    pending := [c]
    nvc :=
      { heldUp.nvc with
        store := { heldUp.wc with notes := [], nextNote := 1 }, retainedValid := valid
        buffer := some { contents := .driver 5 (some driver), cls := .setting } } }
theorem witness_NotesAndAttemptLawsAreKept_copies :
    ∀ s ∈ [copied true (.externalReset lines), copied false (.powerOnReset lines)],
      s.tablesLaw ∧ s.nvc.queueLaw ∧ s.copiesLaw ∧ s.nvc.numbersFree s.wc.nextNote ∧ s.attemptLaw
        ∧ NvController.numbersFree { s.nvc with buffer := none, queue := [] } s.nvc.store.nextNote := by
  unfold State.tablesLaw NvRecords.tablesLaw NvController.queueLaw State.copiesLaw NvController.numbersFree State.attemptLaw
  decide +kernel
theorem witness_NotesAndAttemptLawsAreKept_arms :
    (copied true (.externalReset lines)).notesLaw ∧ (copied true (.externalReset lines)).totalsLaw :=
  ⟨⟨by decide +kernel, fun a => by cases a <;> decide +kernel⟩,
    fun a => by
      cases a
      · exact ⟨by decide +kernel, fun r h => by cases h; decide +kernel⟩
      all_goals exact ⟨by decide +kernel, fun r h => by cases h⟩⟩
/-- The recovery note of the arm joins the queued one, in the slot reserved for it; with retained memory lost neither is left. -/
theorem test_resets_keep_the_notes :
    [copied true (.externalReset lines), copied false (.powerOnReset lines)].map (fun s =>
        (after (step s)).map fun t => (t.wc.notes.map NoteRecord.number, t.reservations, t.wc.nextNote)) =
      [some ([1, 2], 0, 3), some ([], 0, 1)] := by decide +kernel

end Sys2Proof.Tests
end

section
/-! The request rows as one shape: each is the Link Controller's service of one code, class, form and owner. -/

namespace Sys2Proof.Machine

variable {α : Type} {s : State} {l : Link} {r : Request} {code : Byte} {cls : RequestClass} {form : Walk α}

/-! ### What the Link Controller does on its own account -/

/-- A response over the untouched state is an answer without any change. -/
theorem State.replies_respond (s : State) (l : Link) (r : Request) (res : ResultCode) (pl : List Byte) :
    s.replies (.next (s.respond l r res pl)) l r res pl (s.planReset l) :=
  ⟨_, rfl, State.answered_respond (State.linked_refl s l) r res pl, rfl⟩

/-- Without a request of its code that may be handed on, a request row leaves the state as it is. -/
theorem State.serveRequest_of_no_frame (form : Walk α) (owner : α → State → Answer)
    (h : ¬(s.condition = .running ∧ s.ic.warning = false ∧ ∃ r, (s.lc.links.get l).slot = .pending r ∧ r.code = code)) :
    s.serveRequest l code cls form owner = s := by
  unfold State.serveRequest
  split
  · rename_i r hslot
    have hno : ¬(s.answering && decide (r.code = code)) = true := by
      rw [Bool.and_eq_true, State.answering_iff, decide_eq_true_iff]
      rintro ⟨⟨hrun, hwarn⟩, hcode⟩
      exact h ⟨hrun, hwarn, r, hslot, hcode⟩
    rw [if_neg hno]
  · rfl
  · rfl

/-- UNKNOWN_REQUEST without a pending request of an unknown code leaves the state as it is. -/
theorem State.serveUnknown_of_no_frame
    (h : ¬(s.condition = .running ∧ s.ic.warning = false ∧
      ∃ r, (s.lc.links.get l).slot = .pending r ∧ knownCode r.code = false)) :
    s.serveUnknown l = s := by
  unfold State.serveUnknown
  split
  · rename_i r hslot
    have hno : ¬(s.answering && !knownCode r.code) = true := by
      rw [Bool.and_eq_true, State.answering_iff, Bool.not_eq_true']
      rintro ⟨⟨hrun, hwarn⟩, hcode⟩
      exact h ⟨hrun, hwarn, r, hslot, hcode⟩
    rw [if_neg hno]
  · rfl
  · rfl

theorem State.serveUnknown_of_unknown (hrun : s.condition = .running) (hwarn : s.ic.warning = false)
    (hslot : (s.lc.links.get l).slot = .pending r) (hcode : knownCode r.code = false) :
    s.serveUnknown l = s.respond l r .unknownRequest [] := by
  simp [State.serveUnknown, hslot, State.answering_iff.mpr ⟨hrun, hwarn⟩, hcode]

theorem State.serveRequest_of_role (form : Walk α) (owner : α → State → Answer) (hrun : s.condition = .running)
    (hwarn : s.ic.warning = false) (hslot : (s.lc.links.get l).slot = .pending r) (hcode : r.code = code)
    (hrole : cls.mayIssue (s.lc.links.get l).role = false) :
    s.serveRequest l code cls form owner = s.respond l r .role [] := by
  simp [State.serveRequest, hslot, State.answering_iff.mpr ⟨hrun, hwarn⟩, hcode, hrole]

theorem State.serveRequest_of_format (owner : α → State → Answer) (hrun : s.condition = .running)
    (hwarn : s.ic.warning = false) (hslot : (s.lc.links.get l).slot = .pending r) (hcode : r.code = code)
    (hrole : cls.mayIssue (s.lc.links.get l).role = true) (hform : walkPayload form r.payload = none) :
    s.serveRequest l code cls form owner = s.respond l r .format [] := by
  simp [State.serveRequest, hslot, State.answering_iff.mpr ⟨hrun, hwarn⟩, hcode, hrole, hform]

/-- A request that passes the checks of R4, and whose owner changes nothing, is answered without any change. -/
theorem State.replies_of_owner {x : α} {owner : α → State → Answer} {res : ResultCode} {pl : List Byte}
    (h : s.asks l r code form x) (hrole : cls.mayIssue (s.lc.links.get l).role = true)
    (ha : owner x s = { result := res, payload := pl, state := s }) :
    s.replies (.next (s.serveRequest l code cls form owner)) l r res pl (s.planReset l) :=
  State.answers_of_request h hrole ha rfl rfl (State.linked_refl s l) rfl

/-! ### The forms of fixed length -/

/-- A form of fixed length fails on a payload of any other length. -/
theorem Walk.walkPayload_of_ne_length {n : Nat} (hf : Walk.Fixed form n) {bs : List Byte} (h : bs.length ≠ n) :
    walkPayload form bs = none := by
  unfold walkPayload
  split
  · rename_i x hx
    exact absurd (hf bs x [] hx) h
  · rfl

theorem Walk.fixed_formTwoBytes : Walk.Fixed formTwoBytes 2 :=
  Walk.fixed_bind (Walk.fixed_nat 1) fun _ => Walk.fixed_bind (Walk.fixed_nat 1) fun _ => Walk.fixed_pure _

theorem Walk.fixed_formSelect : Walk.Fixed formSelect 5 :=
  Walk.fixed_bind (Walk.fixed_nat 4) fun _ => Walk.fixed_bind (Walk.fixed_nat 1) fun _ => Walk.fixed_pure _

theorem Walk.fixed_formResetPin : Walk.Fixed formResetPin 13 :=
  Walk.fixed_bind (Walk.fixed_nat 4) fun _ => Walk.fixed_bind Walk.fixed_pin fun _ => Walk.fixed_pure _

theorem Walk.fixed_formSetStock : Walk.Fixed formSetStock 13 :=
  Walk.fixed_bind (Walk.fixed_nat 1) fun _ => Walk.fixed_bind (Walk.fixed_nat 4) fun _ =>
    Walk.fixed_bind (Walk.fixed_nat 4) fun _ => Walk.fixed_bind (Walk.fixed_nat 4) fun _ => Walk.fixed_pure _

theorem Walk.fixed_formWriteProduct : Walk.Fixed formWriteProduct 6 :=
  Walk.fixed_bind (Walk.fixed_nat 1) fun _ => Walk.fixed_bind (Walk.fixed_nat 1) fun _ =>
    Walk.fixed_bind (Walk.fixed_nat 2) fun _ => Walk.fixed_bind Walk.fixed_int16 fun _ => Walk.fixed_pure _

theorem Walk.fixed_formWriteInjector : Walk.Fixed formWriteInjector 10 :=
  Walk.fixed_bind (Walk.fixed_nat 1) fun _ => Walk.fixed_bind (Walk.fixed_nat 1) fun _ =>
    Walk.fixed_bind (Walk.fixed_nat 2) fun _ => Walk.fixed_bind (Walk.fixed_nat 4) fun _ =>
    Walk.fixed_bind (Walk.fixed_nat 2) fun _ => Walk.fixed_pure _

theorem Walk.fixed_formWritePump : Walk.Fixed formWritePump 3 :=
  Walk.fixed_bind (Walk.fixed_nat 1) fun _ => Walk.fixed_bind (Walk.fixed_nat 2) fun _ => Walk.fixed_pure _

theorem Walk.fixed_formWriteRack : Walk.Fixed formWriteRack 33 :=
  Walk.fixed_bind (Walk.fixed_many (Walk.fixed_nat 2) 14) fun _ => Walk.fixed_bind (Walk.fixed_nat 1) fun _ =>
    Walk.fixed_bind (Walk.fixed_nat 2) fun _ => Walk.fixed_bind (Walk.fixed_nat 2) fun _ => Walk.fixed_pure _

end Sys2Proof.Machine

/-! ### Every request row -/

namespace Sys2Proof

open Sys2Proof.Machine

/-- The command is the service of link `l`'s pending request of one code and class, by some form and owner; where the table fixes
the payload's length, the form takes that many bytes. -/
def Instr.Serves (c : Instr) (l : Link) (code : Byte) (cls : RequestClass) : Prop :=
  ∃ (α : Type) (form : Walk α) (owner : α → State → Answer),
    (∀ s, exec c s = .next (s.serveRequest l code cls form owner)) ∧ ∀ n, c.fixedLength = some n → Walk.Fixed form n

variable {α : Type} {c : Instr} {l : Link} {code : Byte} {cls : RequestClass} {form : Walk α} {owner : α → State → Answer}

theorem Instr.serves_of_fixed {n : Nat} (hn : c.fixedLength = some n) (hf : Walk.Fixed form n)
    (he : ∀ s, exec c s = .next (s.serveRequest l code cls form owner)) : c.Serves l code cls :=
  ⟨α, form, owner, he, fun m hm => by rw [hn] at hm; cases hm; exact hf⟩

theorem Instr.serves_of_varying (hn : c.fixedLength = none)
    (he : ∀ s, exec c s = .next (s.serveRequest l code cls form owner)) : c.Serves l code cls :=
  ⟨α, form, owner, he, fun m hm => by rw [hn] at hm; cases hm⟩

/-- Every request row serves the request that the table names for it. -/
theorem Instr.serves_of_request (h : c.request = some (l, code, cls)) : c.Serves l code cls := by
  cases c <;> cases h
  case identify | readStatus | readClock | commitPlan | newPlan | signOff | readStock =>
    exact serves_of_fixed rfl (Walk.fixed_pure ()) fun _ => rfl
  case readBay | readArm | markFirst | markLast | exclude | stop | resume | finish | officeStop | officeRelease | readNote
      | readAudit =>
    exact serves_of_fixed rfl (Walk.fixed_nat 1) fun _ => rfl
  case card | selectOrder | deleteDriver | deleteOrder | cancelOrder | releaseNote | setClock =>
    exact serves_of_fixed rfl (Walk.fixed_nat 4) fun _ => rfl
  case start | ackCause | setBayService => exact serves_of_fixed rfl Walk.fixed_formTwoBytes fun _ => rfl
  case readDriver | readOrder => exact serves_of_fixed rfl Walk.fixed_formSelect fun _ => rfl
  case pin => exact serves_of_fixed rfl Walk.fixed_pin fun _ => rfl
  case resetPin => exact serves_of_fixed rfl Walk.fixed_formResetPin fun _ => rfl
  case setStock => exact serves_of_fixed rfl Walk.fixed_formSetStock fun _ => rfl
  case writeProduct => exact serves_of_fixed rfl Walk.fixed_formWriteProduct fun _ => rfl
  case writeInjector => exact serves_of_fixed rfl Walk.fixed_formWriteInjector fun _ => rfl
  case writePump => exact serves_of_fixed rfl Walk.fixed_formWritePump fun _ => rfl
  case writeRack => exact serves_of_fixed rfl Walk.fixed_formWriteRack fun _ => rfl
  case writeDriver | writeOrder | writeRecipe | writeArm => exact serves_of_varying rfl fun _ => rfl

end Sys2Proof

/-! ### Settling the Link Controller's own answers -/

namespace Sys2Proof.Machine

/-- Settles O3: a request row is the service of its code, which leaves the state as it is without such a frame. -/
theorem requestWithoutItsFrameChangesNothing : Obligations.RequestWithoutItsFrameChangesNothing := by
  refine ⟨fun c l code cls s hreq hno => ?_, fun l s hno => ?_⟩
  · obtain ⟨_, form, owner, he, -⟩ := Instr.serves_of_request hreq
    rw [he, State.serveRequest_of_no_frame form owner hno]
  · show Host.Outcome.next (s.serveUnknown l) = .next s
    rw [State.serveUnknown_of_no_frame hno]

/-- A code outside the four ranges of R174 is not known. -/
theorem knownCode_eq_false {code : Byte}
    (h : code.toNat = 0x00 ∨ (0x05 < code.toNat ∧ code.toNat < 0x20) ∨ (0x2D < code.toNat ∧ code.toNat < 0x40)
      ∨ (0x50 < code.toNat ∧ code.toNat < 0x60) ∨ 0x65 < code.toNat) : knownCode code = false := by
  simp only [knownCode, Bool.or_eq_false_iff, Bool.and_eq_false_iff, decide_eq_false_iff_not]
  omega

/-- A role outside the row of R8 for a class may not issue it. -/
theorem RequestClass.mayIssue_eq_false {cls : RequestClass} {role : Role}
    (h : (cls = .bay ∧ ∀ b, role ≠ .panel b) ∨ (cls = .office ∧ role ≠ .office) ∨ (cls = .service ∧ role ≠ .service)) :
    cls.mayIssue role = false := by
  rcases h with ⟨rfl, h⟩ | ⟨rfl, h⟩ | ⟨rfl, h⟩
  · cases role with
    | panel b => exact absurd rfl (h b)
    | unused | office | service => rfl
  · cases role with
    | office => exact absurd rfl h
    | unused | panel _ | service => rfl
  · cases role with
    | service => exact absurd rfl h
    | unused | office | panel _ => rfl

/-- Settles O4: unknown code, role and form are checked in this order, and each refusal is a response over the untouched state. -/
theorem linkControllerRefusals : Obligations.LinkControllerRefusals := by
  refine ⟨fun l r s hrun hwarn hslot hcode => ?_, fun c l code cls r s hreq hrun hwarn hslot hcode hrole => ?_,
    fun c l code cls r n s hreq hlen hrun hwarn hslot hcode hrole hne => ?_⟩
  · have he : exec (.unknownRequest l) s = .next (s.respond l r .unknownRequest []) :=
      congrArg Host.Outcome.next (State.serveUnknown_of_unknown hrun hwarn hslot (knownCode_eq_false hcode))
    rw [he]
    exact State.replies_respond s l r .unknownRequest []
  · obtain ⟨_, form, owner, he, -⟩ := Instr.serves_of_request hreq
    rw [he, State.serveRequest_of_role form owner hrun hwarn hslot hcode (RequestClass.mayIssue_eq_false hrole)]
    exact State.replies_respond s l r .role []
  · obtain ⟨_, form, owner, he, hfixed⟩ := Instr.serves_of_request hreq
    have hform := Walk.walkPayload_of_ne_length (hfixed n hlen) hne
    rw [he, State.serveRequest_of_format owner hrun hwarn hslot hcode hrole hform]
    exact State.replies_respond s l r .format []

end Sys2Proof.Machine

/-! ### The Basic requests, stock and the clock -/

namespace Sys2Proof.Machine

theorem Bay.ofNat?_eq_none {n : Nat} (h : 1 < n) : Bay.ofNat? n = none := by
  match n with
  | 0 | 1 => omega
  | _ + 2 => rfl

theorem Arm.ofNat?_eq_none {n : Nat} (h : 3 < n) : Arm.ofNat? n = none := by
  match n with
  | 0 | 1 | 2 | 3 => omega
  | _ + 4 => rfl

theorem State.identifyPayload_eq (s : State) :
    s.identifyPayload =
      natBytes 2 0x2D17 ++ natBytes 1 42 ++ natBytes 1 65
        ++ (natBytes 1 s.lc.links.sl0.strap ++ natBytes 1 s.lc.links.sl1.strap ++ natBytes 1 s.lc.links.sl2.strap
          ++ natBytes 1 s.lc.links.sl3.strap)
        ++ (natBytes 1 s.lc.links.sl0.role.code ++ natBytes 1 s.lc.links.sl1.role.code
          ++ natBytes 1 s.lc.links.sl2.role.code ++ natBytes 1 s.lc.links.sl3.role.code)
        ++ natBytes 1 s.lc.baudStrap ++ natBytes 1 (if s.lc.clock.isSet then 1 else 0) := by
  simp only [State.identifyPayload, Link.all, List.flatMap_cons, List.flatMap_nil, List.append_nil, List.append_assoc]
  rfl

theorem readArmOwner_of_arm {n : Nat} {a : Arm} (h : Arm.ofNat? n = some a) (s : State) :
    readArmOwner n s = s.accept (s.readArmPayload a) := by
  rw [readArmOwner, h]

/-- Settles O5: each Basic request is answered by its owner from the state as it is. -/
theorem basicRequestsRead : Obligations.BasicRequestsRead := by
  refine ⟨fun l r s => ⟨fun h => ?_, fun h => ?_, fun h => ?_⟩,
    fun l r n s => ⟨fun b h hb => ?_, fun h hn => ?_, fun a h ha => ?_, fun h hn => ?_⟩⟩
  · rw [← State.identifyPayload_eq]
    exact State.replies_of_owner h rfl rfl
  · exact State.replies_of_owner h rfl rfl
  · exact State.replies_of_owner h rfl rfl
  · exact State.replies_of_owner h rfl (by rw [readBayOwner, hb]; rfl)
  · exact State.replies_of_owner h rfl (by rw [readBayOwner, Bay.ofNat?_eq_none hn]; rfl)
  · refine State.replies_of_owner h rfl ((readArmOwner_of_arm ha s).trans ?_)
    simp only [State.accept, State.readArmPayload, State.active]
    cases (if s.armIdle a then none else s.running.get a) with
    | none => simp only [Option.map_none, optionalBytes, List.append_assoc]
    | some y => simp only [Option.map_some, optionalBytes, List.append_assoc]
  · exact State.replies_of_owner h rfl (by rw [readArmOwner, Arm.ofNat?_eq_none hn]; rfl)

end Sys2Proof.Machine
end

section
/-! SET_STOCK, READ_STOCK, SET_CLOCK and the clock's tick. -/

namespace Sys2Proof.Machine

variable {s u : State} {l : Link} {r : Request}

@[simp] theorem Additive.ofNat?_toNat (t : Additive) : Additive.ofNat? t.toNat = some t := by cases t <;> rfl

theorem Additive.ofNat?_eq_none {n : Nat} (h : ¬(1 ≤ n ∧ n ≤ 6)) : Additive.ofNat? n = none := by
  match n with
  | 0 => rfl
  | 1 | 2 | 3 | 4 | 5 | 6 => omega
  | _ + 7 => rfl

theorem State.nvBusy_iff : s.nvBusy = true ↔ 8 ≤ s.nvc.queue.length := decide_eq_true_iff

/-! ### What SET_STOCK does at the ADU -/

theorem setStockOwner_of_not_ranged {x : StockFields}
    (h : ¬(1 ≤ x.additive ∧ x.additive ≤ 6 ∧ x.capacity ≤ 20000000 ∧ x.reserve ≤ x.capacity)) :
    setStockOwner x s = s.refuse .range := by
  unfold setStockOwner
  by_cases hadd : 1 ≤ x.additive ∧ x.additive ≤ 6
  · split
    · rfl
    · refine if_pos ?_
      rw [Bool.or_eq_true, decide_eq_true_iff, decide_eq_true_iff, Config.maxCapacity]
      omega
  · rw [Additive.ofNat?_eq_none hadd]

theorem setStockOwner_of_ranged {t : Additive} {stock capacity reserve : Nat} (hcap : capacity ≤ 20000000)
    (hres : reserve ≤ capacity) :
    setStockOwner { additive := t.toNat, stock := stock, capacity := capacity, reserve := reserve } s =
      if s.nvBusy then s.refuse .busy
      else
        ((s.commit (.stock (s.wc.stock.set t { stock := min stock capacity, capacity := capacity, reserve := reserve }))
            .setting).judgeReserve (s.wc.stock.get t)
          { stock := min stock capacity, capacity := capacity, reserve := reserve }).accept (natBytes 4 (min stock capacity)) := by
  have hno : ¬(decide (Config.maxCapacity < capacity) || decide (capacity < reserve)) = true := by
    rw [Bool.or_eq_true, decide_eq_true_iff, decide_eq_true_iff, Config.maxCapacity]
    omega
  simp only [setStockOwner, Additive.ofNat?_toNat, if_neg hno]
  rfl

/-- STOCK_LOW is the one flag that judging a stock against its reserve may set, and nothing else changes. -/
theorem State.linked_judgeReserve {pr : Bool} (h : s.linked u l pr []) (before after : StockRecord) :
    s.linked (u.judgeReserve before after) l pr
      (if before.reserve ≤ before.stock ∧ after.stock < after.reserve then [.stockLow] else []) := by
  simp only [State.judgeReserve, Bool.and_eq_true, decide_eq_true_iff]
  split
  · exact State.linked_raiseFlag h .stockLow
  · exact h

theorem State.judgeReserve_parts (u : State) (before after : StockRecord) :
    u.judgeReserve before after = { u with lc := (u.judgeReserve before after).lc } := by
  unfold State.judgeReserve
  split <;> rfl

/-- Settles O29: SET_STOCK by its checks in turn, and READ_STOCK from the records as they stand. -/
theorem stockIsSetAndRead : Obligations.StockIsSetAndRead := by
  refine fun l r s => ⟨fun x h => ?_, fun t stock capacity reserve h hcap hres => ⟨fun hbusy => ?_, fun hfree => ?_⟩, fun h => ?_⟩
  · intro ranged hno
    exact State.replies_of_owner h.1 (by rw [h.2]; rfl) (setStockOwner_of_not_ranged hno)
  · refine State.replies_of_owner h.1 (by rw [h.2]; rfl) ?_
    rw [setStockOwner_of_ranged hcap hres, if_pos (State.nvBusy_iff.mpr hbusy)]
    rfl
  · have hnot : ¬s.nvBusy = true := by rw [State.nvBusy_iff]; omega
    refine State.answers_of_request h.1 (by rw [h.2]; rfl)
      ((setStockOwner_of_ranged hcap hres).trans (if_neg hnot)) rfl rfl ?_ (State.judgeReserve_parts _ _ _)
    exact State.linked_judgeReserve (State.linked_congr (State.linked_refl s l) (State.commit_lc ..)) _ _
  · refine State.replies_of_owner h.1 (by rw [h.2]; rfl) (congrArg (State.accept s) ?_)
    simp only [State.readStockPayload, List.append_assoc, Additive.all, Channel.all]

/-! ### The Rack Clock -/

theorem RackClock.tick_of_lt {c : RackClock} (h : c.count < 4294967295) :
    c.tick = { count := c.count + 1, isSet := c.isSet } := by
  rw [RackClock.tick, Nat.mod_eq_of_lt (by omega)]

theorem RackClock.tick_of_last {c : RackClock} (h : c.count = 4294967295) : c.tick = { count := 0, isSet := c.isSet } := by
  rw [RackClock.tick, h]

/-- Settles O30: SET_CLOCK is a response over the state with the clock set, and the tick changes the count alone. -/
theorem clockIsSetAndTicks : Obligations.ClockIsSetAndTicks := by
  refine ⟨fun l r n s h => ?_, fun s => ⟨fun hlt => ?_, fun hlast => ?_⟩⟩
  · intro u
    have he : exec (.setClock l) s = .next (u.respond l r .ok []) :=
      congrArg Host.Outcome.next (State.serveRequest_of_asks h.1 (by rw [h.2]; rfl))
    rw [he]
    exact State.replies_respond u l r .ok []
  · show Host.Outcome.next (s.setClock s.lc.clock.tick) = _
    rw [RackClock.tick_of_lt hlt]
    rfl
  · show Host.Outcome.next (s.setClock s.lc.clock.tick) = _
    rw [RackClock.tick_of_last hlast]
    rfl

end Sys2Proof.Machine
end

section
/-! The status word bit by bit (R177), and the outputs (R35). -/

namespace Sys2Proof.Machine

variable {s : State} {l : Link}

/-! ### The word as a number -/

theorem bitAt_eq (b : Bool) (place : Nat) : bitAt b place = b.toNat * 2 ^ place := by cases b <;> simp [bitAt]

theorem BayStatus.code_lt (x : BayStatus) : x.code < 8 := by cases x <;> decide

/-- The C bits as a number, with what they can be. -/
theorem CFlags.bits_eq (f : CFlags) :
    f.bits = f.noteAdded.toNat * 8192 + f.causeRaised.toNat * 4096 + f.bayChanged.toNat * 2048 + f.stockLow.toNat * 1024
      + f.inputChanged.toNat * 512 + f.unauthorizedFlow.toNat * 256 + f.linkError.toNat * 128 + f.linkOverrun.toNat * 64
      + f.roleConflict.toNat * 32 := by
  simp only [CFlags.bits, bitAt_eq, Nat.reducePow]

theorem CFlags.bits_lt (f : CFlags) : f.bits < 16384 := by
  rw [CFlags.bits_eq]
  have h : ∀ b : Bool, b.toNat ≤ 1 := Bool.toNat_le
  have h1 := h f.noteAdded; have h2 := h f.causeRaised; have h3 := h f.bayChanged
  have h4 := h f.stockLow; have h5 := h f.inputChanged; have h6 := h f.unauthorizedFlow
  have h7 := h f.linkError; have h8 := h f.linkOverrun; have h9 := h f.roleConflict
  omega

/-- A word made of the fields of R177 down to bit 14, and of the C bits below it. -/
theorem State.statusWord_toNat (s : State) (l : Link) :
    (s.statusWord l).toNat =
      s.bsc.bayA.status.code * 536870912 + s.bsc.bayB.status.code * 67108864 + s.notesHeld % 128 * 524288
        + s.nvBusy.toNat * 262144 + s.sealOpen.toNat * 131072 + s.lc.clock.isSet.toNat * 65536
        + s.nvc.retainedLost.toNat * 32768 + (s.lc.links.get l).planReset.toNat * 16384
        + (s.lc.links.get l).flags.bits := by
  have hA := s.bsc.bayA.status.code_lt
  have hB := s.bsc.bayB.status.code_lt
  have hbusy := s.nvBusy.toNat_le
  have hseal := s.sealOpen.toNat_le
  have hset := s.lc.clock.isSet.toNat_le
  have hlost := s.nvc.retainedLost.toNat_le
  have hreset := (s.lc.links.get l).planReset.toNat_le
  have hflags := (s.lc.links.get l).flags.bits_lt
  simp only [State.statusWord, bitAt_eq, BitVec.toNat_ofNat, Nat.reducePow]
  omega

/-- A bit of a word, from the quotient of the word as a number. -/
theorem getLsbD_of_div {n : Nat} {w : BitVec n} {i : Nat} {b : Bool} (h : w.toNat / 2 ^ i % 2 = b.toNat) :
    w.getLsbD i = b := by
  rw [BitVec.getLsbD, Nat.testBit_eq_decide_div_mod_eq, h]
  cases b <;> rfl

theorem extractLsb'_toNat_of_div {n : Nat} {w : BitVec n} {i k m : Nat} (h : w.toNat / 2 ^ i % 2 ^ k = m) :
    (w.extractLsb' i k).toNat = m := by
  rw [BitVec.extractLsb'_toNat, Nat.shiftRight_eq_div_pow, h]

/-! ### The fields of the word -/

/-- The fields of kind A, and PLAN_RESET: all above the C bits. -/
theorem State.statusWord_high (s : State) (l : Link) :
    ((s.statusWord l).extractLsb' 29 3).toNat = s.bsc.bayA.status.code
      ∧ ((s.statusWord l).extractLsb' 26 3).toNat = s.bsc.bayB.status.code
      ∧ ((s.statusWord l).extractLsb' 19 7).toNat = s.notesHeld % 128
      ∧ (s.statusWord l).getLsbD 18 = s.nvBusy ∧ (s.statusWord l).getLsbD 17 = s.sealOpen
      ∧ (s.statusWord l).getLsbD 16 = s.lc.clock.isSet ∧ (s.statusWord l).getLsbD 15 = s.nvc.retainedLost
      ∧ (s.statusWord l).getLsbD 14 = (s.lc.links.get l).planReset := by
  have hA := s.bsc.bayA.status.code_lt
  have hB := s.bsc.bayB.status.code_lt
  have hbusy := s.nvBusy.toNat_le
  have hseal := s.sealOpen.toNat_le
  have hset := s.lc.clock.isSet.toNat_le
  have hlost := s.nvc.retainedLost.toNat_le
  have hreset := (s.lc.links.get l).planReset.toNat_le
  have hflags := (s.lc.links.get l).flags.bits_lt
  have hword := s.statusWord_toNat l
  refine ⟨extractLsb'_toNat_of_div ?_, extractLsb'_toNat_of_div ?_, extractLsb'_toNat_of_div ?_, getLsbD_of_div ?_,
    getLsbD_of_div ?_, getLsbD_of_div ?_, getLsbD_of_div ?_, getLsbD_of_div ?_⟩ <;> omega

/-- A bit below bit 14 is a bit of the C flags as a number. -/
theorem State.statusWord_low {i : Nat} {b : Bool} (hi : i < 14) (h : (s.lc.links.get l).flags.bits / 2 ^ i % 2 = b.toNat) :
    (s.statusWord l).getLsbD i = b := by
  refine getLsbD_of_div ?_
  rw [State.statusWord_toNat, ← h]
  interval_cases i <;> omega

/-- The C flags, bits 13 to 5, and the clear bits below them. -/
theorem CFlags.bits_div (f : CFlags) :
    f.bits / 2 ^ 13 % 2 = f.noteAdded.toNat ∧ f.bits / 2 ^ 12 % 2 = f.causeRaised.toNat
      ∧ f.bits / 2 ^ 11 % 2 = f.bayChanged.toNat ∧ f.bits / 2 ^ 10 % 2 = f.stockLow.toNat
      ∧ f.bits / 2 ^ 9 % 2 = f.inputChanged.toNat ∧ f.bits / 2 ^ 8 % 2 = f.unauthorizedFlow.toNat
      ∧ f.bits / 2 ^ 7 % 2 = f.linkError.toNat ∧ f.bits / 2 ^ 6 % 2 = f.linkOverrun.toNat
      ∧ f.bits / 2 ^ 5 % 2 = f.roleConflict.toNat ∧ ∀ i < 5, f.bits / 2 ^ i % 2 = 0 := by
  rw [CFlags.bits_eq]
  have h : ∀ b : Bool, b.toNat ≤ 1 := Bool.toNat_le
  have h1 := h f.noteAdded; have h2 := h f.causeRaised; have h3 := h f.bayChanged
  have h4 := h f.stockLow; have h5 := h f.inputChanged; have h6 := h f.unauthorizedFlow
  have h7 := h f.linkError; have h8 := h f.linkOverrun; have h9 := h f.roleConflict
  refine ⟨?_, ?_, ?_, ?_, ?_, ?_, ?_, ?_, ?_, fun i hi => ?_⟩
  case refine_10 => interval_cases i <;> omega
  all_goals omega

/-! ### The outputs -/

theorem State.alive_iff : s.alive = true ↔ s.condition = .running ∨ s.condition = .restoring := by
  simp [State.alive]

theorem State.alive_eq_false (h : s.condition = .heldInReset ∨ s.condition = .unpowered) : s.alive = false := by
  rcases h with h | h <;> simp [State.alive, h]

/-- A part that is not out of reset and powered energizes nothing. -/
theorem State.outputs_of_not_alive (h : s.alive = false) (a : Arm) (c : Channel) (p : Additive) (b : Bay) (l : Link) :
    s.upstreamSolenoid a = false ∧ s.downstreamSolenoid a = false ∧ s.injectorSolenoid c = false ∧ s.pumpRun p = false
      ∧ s.hornOutput b = false ∧ s.attention l = false := by
  simp [State.upstreamSolenoid, State.downstreamSolenoid, State.injectorSolenoid, State.pumpRun, State.hornOutput,
    State.attention, h]

theorem State.downstreamSolenoid_iff (h : s.alive = true) (a : Arm) :
    s.downstreamSolenoid a = true ↔ ((s.fc.get a).command = .openValve ∨ (s.fc.get a).command = .hold) := by
  rw [State.downstreamSolenoid, h]
  cases (s.fc.get a).command <;> simp

theorem State.pumpRun_iff (h : s.alive = true) (p : Additive) :
    s.pumpRun p = true ↔ ∃ d, (s.adu.pumps.get p).status = .shot d := by
  rw [State.pumpRun, h]
  cases (s.adu.pumps.get p).status <;> simp

theorem CFlags.anySet_iff (f : CFlags) :
    f.anySet = true ↔
      (f.noteAdded = true ∨ f.causeRaised = true ∨ f.bayChanged = true ∨ f.stockLow = true ∨ f.inputChanged = true
        ∨ f.unauthorizedFlow = true ∨ f.linkError = true ∨ f.linkOverrun = true ∨ f.roleConflict = true) := by
  simp only [CFlags.anySet, Bool.or_eq_true, or_assoc]

/-- Settles O6: the fields of the word by their places, and each output by its owner. -/
theorem statusWordAndOutputs : Obligations.StatusWordAndOutputs := by
  refine ⟨fun l s => ?_, fun a c p b l s => ⟨fun h => ?_, fun h => ?_⟩⟩
  · obtain ⟨hA, hB, hnotes, hbusy, hseal, hset, hlost, hreset⟩ := s.statusWord_high l
    obtain ⟨h13, h12, h11, h10, h9, h8, h7, h6, h5, hclear⟩ := (s.lc.links.get l).flags.bits_div
    exact ⟨hA, hB, fun hle => hnotes.trans (Nat.mod_eq_of_lt (Nat.lt_of_le_of_lt hle (by decide))), hbusy, hseal, hset, hlost,
      hreset, State.statusWord_low (by decide) h13, State.statusWord_low (by decide) h12,
      State.statusWord_low (by decide) h11, State.statusWord_low (by decide) h10, State.statusWord_low (by decide) h9,
      State.statusWord_low (by decide) h8, State.statusWord_low (by decide) h7, State.statusWord_low (by decide) h6,
      State.statusWord_low (by decide) h5, fun i hi => State.statusWord_low (by omega) (hclear i hi)⟩
  · exact State.outputs_of_not_alive (State.alive_eq_false h) a c p b l
  · have halive : s.alive = true := State.alive_iff.mpr h
    refine ⟨?_, State.downstreamSolenoid_iff halive a, ?_, State.pumpRun_iff halive p, ?_, ?_⟩
    · simp [State.upstreamSolenoid, halive]
    · simp [State.injectorSolenoid, halive]
    · simp [State.hornOutput, BayController.horn, halive]
    · rw [State.attention, halive, Bool.true_and, CFlags.anySet_iff]

end Sys2Proof.Machine
end

section
/-! Frames on a link: what the bytes collected so far amount to, and what a character, a gap and the end of a response do
(R1 to R3, R5, R12, R14, R174). -/

namespace Sys2Proof.Machine

variable {s u : State} {l : Link} {r : Request} {c : Byte}

/-! ### The bytes of a request frame -/

/-- The length byte of a request (R1). -/
def Request.lengthByte (r : Request) : Byte := BitVec.ofNat 8 r.payload.length

/-- The bytes between the start marker and the CRC (R1, R174). -/
def Request.body (r : Request) : List Byte := r.tag :: r.code :: r.lengthByte :: r.payload

theorem Request.toNat_lengthByte (h : r.payload.length ≤ 200) : r.lengthByte.toNat = r.payload.length := by
  rw [Request.lengthByte, BitVec.toNat_ofNat]
  omega

/-- A request frame: the marker, the body, and two CRC bytes over the body. -/
theorem Request.bytes_eq (r : Request) : r.bytes = 0x7E#8 :: (r.body ++ crcBytes r.body) := rfl

theorem crcBytes_eq (bs : List Byte) : ∃ x y, crcBytes bs = [x, y] := ⟨_, _, rfl⟩

/-! ### The frame judged (R2, R174) -/

theorem judgeFrame_of_too_long {tag code len : Byte} {rest : List Byte} (h : 200 < len.toNat) :
    judgeFrame (tag :: code :: len :: rest) = .bad := if_pos h

/-- Two bytes after a whole body decide whether the frame is complete. -/
theorem judgeFrame_body_append (h : r.payload.length ≤ 200) (x y : Byte) :
    judgeFrame (r.body ++ [x, y]) = if [x, y] = crcBytes r.body then .complete r else .bad := by
  have hlen := Request.toNat_lengthByte h
  have hdrop : (r.payload ++ [x, y]).drop r.payload.length = [x, y] := List.drop_left
  have htake : (r.payload ++ [x, y]).take r.payload.length = r.payload := List.take_left
  have hbody : (r.body ++ [x, y]).take (3 + r.payload.length) = r.body := by
    rw [show 3 + r.payload.length = r.body.length by simp [Request.body]; omega, List.take_left]
  have hno : ¬(200 < r.lengthByte.toNat) := by omega
  have hall : ¬((r.payload ++ [x, y]).length < r.lengthByte.toNat + 2) := by simp [hlen]
  show (if 200 < r.lengthByte.toNat then Collected.bad
    else if (r.payload ++ [x, y]).length < r.lengthByte.toNat + 2 then .incomplete
    else if (r.payload ++ [x, y]).drop r.lengthByte.toNat = crcBytes ((r.body ++ [x, y]).take (3 + r.lengthByte.toNat)) then
      .complete { tag := r.tag, code := r.code, payload := (r.payload ++ [x, y]).take r.lengthByte.toNat }
    else .bad) = _
  rw [if_neg hno, if_neg hall, hlen, hdrop, htake, hbody]

theorem judgeFrame_whole (h : r.payload.length ≤ 200) : judgeFrame (r.body ++ crcBytes r.body) = .complete r := by
  obtain ⟨x, y, hxy⟩ := crcBytes_eq r.body
  rw [hxy, judgeFrame_body_append h, if_pos hxy.symm]

theorem judgeFrame_wrong_crc (h : r.payload.length ≤ 200) {x y : Byte} (hne : [x, y] ≠ crcBytes r.body) :
    judgeFrame (r.body ++ [x, y]) = .bad := by
  rw [judgeFrame_body_append h, if_neg hne]

/-- The bytes of a frame that is not all there yet. -/
theorem judgeFrame_prefix (h : r.payload.length ≤ 200) {p rest : List Byte} (hp : p ++ rest = r.body ++ crcBytes r.body)
    (hrest : rest ≠ []) : judgeFrame p = .incomplete := by
  match p with
  | [] | [_] | [_, _] => rfl
  | tag :: code :: len :: q =>
    obtain ⟨x, y, hxy⟩ := crcBytes_eq r.body
    simp only [Request.body, List.cons_append, List.cons.injEq] at hp
    obtain ⟨rfl, rfl, rfl, hq⟩ := hp
    have hlen := Request.toNat_lengthByte h
    have hshort : q.length < r.lengthByte.toNat + 2 := by
      have hsum := congrArg List.length hq
      have hpos := List.length_pos_iff.mpr hrest
      rw [← Request.body, hxy] at hsum
      simp at hsum
      omega
    have hno : ¬(200 < r.lengthByte.toNat) := by omega
    exact (if_neg hno).trans (if_pos hshort)

/-! ### Events of a link as state changes -/

/-- An event that raises one flag over a state. -/
theorem State.becomes_raiseFlag (u : State) (e : FlagEvent) : u.becomes (.next (u.raiseFlag e)) [e] u :=
  ⟨_, rfl, State.flagged_raiseFlag (State.flagged_refl u) e, rfl⟩

theorem exec_characterReceived (h : s.alive = true) (l : Link) (c : Byte) (stop : Bool) :
    exec (.characterReceived l c stop) s = .next (s.takeCharacter l c stop) := congrArg Host.Outcome.next (if_pos h)

theorem exec_gapTimeout (h : s.alive = true) (l : Link) : exec (.gapTimeout l) s = .next (s.gapTimeout l) :=
  congrArg Host.Outcome.next (if_pos h)

theorem exec_responseSent (h : s.alive = true) (l : Link) : exec (.responseSent l) s = .next (s.responseSent l) :=
  congrArg Host.Outcome.next (if_pos h)

theorem State.takeCharacter_of_hunting (h : (s.lc.links.get l).receiver = .hunting) (c : Byte) (stop : Bool) :
    s.takeCharacter l c stop = if stop && c = 0x7E#8 then s.setReceiver l (.collecting []) else s := by
  rw [State.takeCharacter, h]
  rfl

theorem State.takeCharacter_without_stop {bytes : List Byte} (h : (s.lc.links.get l).receiver = .collecting bytes) (c : Byte) :
    s.takeCharacter l c false = s.discardFrame l := by
  rw [State.takeCharacter, h]
  rfl

theorem State.takeCharacter_of_collecting {bytes : List Byte} (h : (s.lc.links.get l).receiver = .collecting bytes) (c : Byte) :
    s.takeCharacter l c true = s.collect l (bytes ++ [c]) := by
  rw [State.takeCharacter, h]
  rfl

theorem State.collect_of_incomplete {bytes : List Byte} (h : judgeFrame bytes = .incomplete) :
    s.collect l bytes = s.setReceiver l (.collecting bytes) := by rw [State.collect, h]

theorem State.collect_of_bad {bytes : List Byte} (h : judgeFrame bytes = .bad) : s.collect l bytes = s.discardFrame l := by
  rw [State.collect, h]

theorem State.collect_of_complete {bytes : List Byte} (h : judgeFrame bytes = .complete r) :
    s.collect l bytes = (s.setReceiver l .hunting).offerFrame l r := by rw [State.collect, h]

theorem State.offerFrame_of_warning (h : s.ic.warning = true) (l : Link) (r : Request) : s.offerFrame l r = s := if_pos h

theorem State.offerFrame_of_empty (hw : s.ic.warning = false) (h : (s.lc.links.get l).slot = .empty) (r : Request) :
    s.offerFrame l r = s.modifyLink l fun k => { k with slot := .pending r } := by
  simp [State.offerFrame, hw, h]

theorem State.offerFrame_of_occupied (hw : s.ic.warning = false) (h : (s.lc.links.get l).slot ≠ .empty) (r : Request) :
    s.offerFrame l r = s.raiseFlag (.linkOverrun l) := by
  unfold State.offerFrame
  rw [if_neg (by simp [hw])]
  split
  · exact absurd ‹_› h
  · rfl
  · rfl

/-! ### The receiver replaced -/

theorem State.setReceiver_setReceiver (s : State) (l : Link) (x y : Receiver) :
    (s.setReceiver l x).setReceiver l y = s.setReceiver l y := by
  simp [State.setReceiver, State.modifyLink, PerLink.modify]

theorem State.setReceiver_self {x : Receiver} (h : (s.lc.links.get l).receiver = x) : s.setReceiver l x = s := by
  subst h
  rw [State.setReceiver, State.modifyLink, PerLink.modify_id_of _ _ _ rfl]

theorem State.receiver_setReceiver (s : State) (l : Link) (x : Receiver) :
    ((s.setReceiver l x).lc.links.get l).receiver = x := by simp [State.setReceiver]

theorem State.slot_setReceiver (s : State) (l : Link) (x : Receiver) :
    ((s.setReceiver l x).lc.links.get l).slot = (s.lc.links.get l).slot := by simp [State.setReceiver]

theorem State.alive_setReceiver (s : State) (l : Link) (x : Receiver) : (s.setReceiver l x).alive = s.alive := rfl

/-- A request pending on a link that hunts again. -/
theorem State.pending_setReceiver (s : State) (l : Link) (r : Request) :
    ((s.setReceiver l .hunting).modifyLink l fun k => { k with slot := .pending r }) =
      s.modifyLink l fun k => { k with receiver := .hunting, slot := .pending r } := by
  simp [State.setReceiver, State.modifyLink, PerLink.modify]

/-- A character of a link in collection that does not complete the frame of `r`. -/
theorem State.takeCharacter_of_prefix {bytes rest : List Byte} (h : (s.lc.links.get l).receiver = .collecting bytes)
    (hr : r.payload.length ≤ 200) (hp : bytes ++ [c] ++ rest = r.body ++ crcBytes r.body) (hrest : rest ≠ []) :
    s.takeCharacter l c true = s.setReceiver l (.collecting (bytes ++ [c])) := by
  rw [State.takeCharacter_of_collecting h, State.collect_of_incomplete (judgeFrame_prefix hr hp hrest)]

/-- The last character of the frame of `r`. -/
theorem State.takeCharacter_of_last {bytes : List Byte} (h : (s.lc.links.get l).receiver = .collecting bytes)
    (hr : r.payload.length ≤ 200) (hp : bytes ++ [c] = r.body ++ crcBytes r.body) :
    s.takeCharacter l c true = (s.setReceiver l .hunting).offerFrame l r := by
  rw [State.takeCharacter_of_collecting h, hp, State.collect_of_complete (judgeFrame_whole hr)]

/-- The last character of a frame with a wrong CRC. -/
theorem State.takeCharacter_of_wrong_crc {bytes : List Byte} {x : Byte} (h : (s.lc.links.get l).receiver = .collecting bytes)
    (hr : r.payload.length ≤ 200) (hp : bytes ++ [c] = r.body ++ [x, c]) (hne : [x, c] ≠ crcBytes r.body) :
    s.takeCharacter l c true = s.discardFrame l := by
  rw [State.takeCharacter_of_collecting h, hp, State.collect_of_bad (judgeFrame_wrong_crc hr hne)]

/-- A discarded frame leaves the link hunting with LINK_ERROR set. -/
theorem State.becomes_discardFrame (s : State) (l : Link) :
    (s.setReceiver l .hunting).becomes (.next (s.discardFrame l)) [.linkError l] (s.setReceiver l .hunting) :=
  State.becomes_raiseFlag _ _

/-! ### The obligation on the events of a link -/

/-- Settles O40, a clause for each case of the receiver, of the frame judged and of the slot. -/
theorem linkEventsMoveTheReceiver : Obligations.LinkEventsMoveTheReceiver := by
  intro l s hcond link withLink hunts
  have halive : s.alive = true := State.alive_iff.mpr hcond
  refine ⟨fun c stop hrec => ?_, fun bytes c hrec => ⟨?_, fun tag code hb hlen => ?_, fun r body x y x' hr hbytes hgot hne => ?_,
    fun r rest hr hbytes => ?_⟩, fun hrec => ?_, fun bytes hrec => ?_, fun resp hslot => ?_⟩
  · rw [exec_characterReceived halive, State.takeCharacter_of_hunting hrec]
    simp only [Bool.and_eq_true, decide_eq_true_iff]
    rfl
  · rw [exec_characterReceived halive, State.takeCharacter_without_stop hrec]
    exact s.becomes_discardFrame l
  · have hbad : judgeFrame ([tag, code] ++ [c]) = .bad := judgeFrame_of_too_long hlen
    rw [exec_characterReceived halive, State.takeCharacter_of_collecting hrec, hb, State.collect_of_bad hbad]
    exact s.becomes_discardFrame l
  · obtain ⟨x0, y0, hcrc⟩ := crcBytes_eq r.body
    rw [Request.bytes_eq, hcrc] at hbytes
    have hinj := List.append_inj' (s₁ := 0x7E#8 :: r.body) (t₁ := [x0, y0]) hbytes rfl
    obtain ⟨rfl, hxy⟩ := hinj
    obtain ⟨rfl, rfl⟩ : x0 = x ∧ y0 = y := by simpa using hxy
    have hwrong : [x', c] ≠ crcBytes r.body := by
      rw [hcrc]
      rcases hne with hne | hne <;> simp [hne]
    have hp : bytes ++ [c] = r.body ++ [x', c] := List.cons.inj hgot |>.2
    rw [exec_characterReceived halive, State.takeCharacter_of_wrong_crc hrec hr hp hwrong]
    exact s.becomes_discardFrame l
  · have hp : bytes ++ [c] ++ rest = r.body ++ crcBytes r.body := (List.cons.inj hbytes).2.symm
    rw [exec_characterReceived halive]
    refine ⟨fun hrest => ?_, fun hrest => ?_⟩
    · rw [State.takeCharacter_of_prefix hrec hr hp hrest]
      rfl
    · rw [hrest, List.append_nil] at hp
      rw [State.takeCharacter_of_last hrec hr hp]
      refine ⟨fun hwarn => ?_, fun hwarn => ⟨fun hslot => ?_, fun hslot => ?_⟩⟩
      · rw [State.offerFrame_of_warning (s := s.setReceiver l .hunting) hwarn]
        rfl
      · rw [State.offerFrame_of_empty (s := s.setReceiver l .hunting) hwarn ((State.slot_setReceiver s l _).trans hslot),
          State.pending_setReceiver]
        rfl
      · rw [State.offerFrame_of_occupied (s := s.setReceiver l .hunting) hwarn (by rwa [State.slot_setReceiver])]
        exact State.becomes_raiseFlag _ _
  · rw [exec_gapTimeout halive, State.gapTimeout, hrec]
  · rw [exec_gapTimeout halive, State.gapTimeout, hrec]
    exact s.becomes_discardFrame l
  · rw [exec_responseSent halive, State.responseSent, hslot]
    rfl

/-! ### The obligation on whole frames -/

theorem execAll_append {cs ds : List Instr} {s t : State} (h : execAll cs s = .next t) :
    execAll (cs ++ ds) s = execAll ds t := by
  induction cs generalizing s with
  | nil => cases h; rfl
  | cons c cs ih =>
    simp only [List.cons_append, execAll] at h ⊢
    split at h
    · exact ih h
    · cases h
    · cases h

theorem execAll_singleton {c : Instr} {s t : State} (h : exec c s = .next t) : execAll [c] s = .next t := by
  simp only [execAll, h]

/-- Characters short of the whole frame of `r`, taken one by one, are all held. -/
theorem execAll_collects (hr : r.payload.length ≤ 200) (q : List Byte) {s : State} {bytes rest : List Byte}
    (halive : s.alive = true) (h : (s.lc.links.get l).receiver = .collecting bytes)
    (hp : bytes ++ q ++ rest = r.body ++ crcBytes r.body) (hrest : rest ≠ []) :
    execAll (q.map fun c => .characterReceived l c true) s = .next (s.setReceiver l (.collecting (bytes ++ q))) := by
  induction q generalizing s bytes with
  | nil => rw [List.append_nil, State.setReceiver_self h]; rfl
  | cons c q ih =>
    have hstep : exec (.characterReceived l c true) s = .next (s.setReceiver l (.collecting (bytes ++ [c]))) := by
      rw [exec_characterReceived halive,
        State.takeCharacter_of_prefix h hr (rest := q ++ rest) (by simpa using hp) (by simp [hrest])]
    simp only [List.map_cons, execAll, hstep]
    rw [ih (by rwa [State.alive_setReceiver]) (State.receiver_setReceiver ..) (by simpa using hp),
      State.setReceiver_setReceiver]
    simp

/-- The characters of the frame of `r` up to its first CRC character, taken by a link that hunts. -/
theorem execAll_up_to_last (hr : r.payload.length ≤ 200) {x y : Byte} (hcrc : crcBytes r.body = [x, y])
    (halive : s.alive = true) (h : (s.lc.links.get l).receiver = .hunting) :
    execAll ((0x7E#8 :: (r.body ++ [x])).map fun c => .characterReceived l c true) s =
      .next (s.setReceiver l (.collecting (r.body ++ [x]))) := by
  have hstart : exec (.characterReceived l 0x7E#8 true) s = .next (s.setReceiver l (.collecting [])) := by
    rw [exec_characterReceived halive, State.takeCharacter_of_hunting h]
    rfl
  have hrest := execAll_collects (s := s.setReceiver l (.collecting [])) (bytes := []) (rest := [y]) hr (r.body ++ [x])
    (by rwa [State.alive_setReceiver]) (State.receiver_setReceiver ..) (by simp [hcrc]) (by simp)
  simp only [List.map_cons, execAll, hstart]
  rw [hrest, State.setReceiver_setReceiver, List.nil_append]

/-- Settles O39: the characters short of the last are held, and the last completes the frame or, wrong, discards it. -/
theorem frameIsReceived : Obligations.FrameIsReceived := by
  intro l r s hcond hwarn hrec hslot hr
  have halive : s.alive = true := State.alive_iff.mpr hcond
  obtain ⟨x, y, hcrc⟩ := crcBytes_eq r.body
  have hbytes : r.bytes = (0x7E#8 :: (r.body ++ [x])) ++ [y] := by simp [Request.bytes_eq, hcrc]
  have hheld := execAll_up_to_last hr hcrc halive hrec
  have hrecv := State.receiver_setReceiver s l (.collecting (r.body ++ [x]))
  refine ⟨?_, fun c hc => ?_⟩
  · rw [hbytes, List.map_append, execAll_append hheld]
    refine execAll_singleton ?_
    rw [exec_characterReceived (by rwa [State.alive_setReceiver]),
      State.takeCharacter_of_last hrecv hr (by simp [hcrc]), State.setReceiver_setReceiver,
      State.offerFrame_of_empty (s := s.setReceiver l .hunting) hwarn (by rw [State.slot_setReceiver, hslot]),
      State.setReceiver_self hrec]
    rfl
  · have hne : [x, c] ≠ crcBytes r.body := by
      rw [hcrc]
      rintro ⟨⟩
      exact hc (by rw [hbytes, List.getLast?_concat])
    rw [hbytes, List.dropLast_concat, List.map_append, execAll_append hheld]
    have hlast : exec (.characterReceived l c true) (s.setReceiver l (.collecting (r.body ++ [x]))) =
        .next (s.discardFrame l) := by
      rw [exec_characterReceived (by rwa [State.alive_setReceiver]),
        State.takeCharacter_of_wrong_crc hrecv hr (x := x) (by simp) hne, State.discardFrame, State.setReceiver_setReceiver]
      rfl
    have hdiscard := s.becomes_discardFrame l
    rw [State.setReceiver_self hrec] at hdiscard
    exact (execAll_singleton hlast).symm ▸ hdiscard

end Sys2Proof.Machine
end

section
/-! The waiting commands: no operation and no owner touches them, and each command is one whole step. -/

namespace Sys2Proof.Machine

variable (s : State)

/-! ### Answers -/

@[simp] theorem State.accept_state (payload : List Byte) : (s.accept payload).state = s := rfl
@[simp] theorem State.refuse_state (r : ResultCode) : (s.refuse r).state = s := rfl

@[simp] theorem State.refuseBayState_pending (b : Bay) (l : Link) : (s.refuseBayState b l).state.pending = s.pending := by
  unfold State.refuseBayState
  split <;> simp

@[simp] theorem State.writeSetting_pending (held : Bool) (c : NvContents) :
    (s.writeSetting held c).state.pending = s.pending := by
  rw [State.writeSetting_eq]
  simp [apply_ite State.pending]

/-! ### The Basic requests -/

theorem readBayOwner_pending (n : Nat) : (readBayOwner n s).state.pending = s.pending := by
  unfold readBayOwner
  split <;> rfl

theorem readArmOwner_pending (n : Nat) : (readArmOwner n s).state.pending = s.pending := by
  unfold readArmOwner
  split <;> rfl

/-! ### The Bay requests -/

@[simp] theorem State.bindDriver_pending (b : Bay) (n : Nat) : (s.bindDriver b n).pending = s.pending := by
  simp [State.bindDriver]

theorem cardOwner_pending (l : Link) (b : Bay) (n : Nat) : (cardOwner l b n s).state.pending = s.pending := by
  unfold cardOwner
  repeat' split
  all_goals simp

@[simp] theorem State.putDriver_pending (n : Nat) (d : DriverRecord) : (s.putDriver n d).pending = s.pending := by
  simp [State.putDriver]

@[simp] theorem State.pinMatched_pending (b : Bay) (n : Nat) (d : DriverRecord) : (s.pinMatched b n d).pending = s.pending := by
  simp [State.pinMatched, apply_ite State.pending]

@[simp] theorem State.pinFailed_pending (b : Bay) (n : Nat) (d : DriverRecord) :
    (s.pinFailed b n d).state.pending = s.pending := by
  unfold State.pinFailed
  dsimp only
  split <;> simp

@[simp] theorem State.judgePin_pending (b : Bay) (n : Nat) (d : DriverRecord) (p : PinField) :
    (s.judgePin b n d p).state.pending = s.pending := by
  unfold State.judgePin
  repeat' split
  all_goals simp

theorem pinOwner_pending (l : Link) (b : Bay) (p : PinField) : (pinOwner l b p s).state.pending = s.pending := by
  unfold pinOwner
  repeat' split
  all_goals simp

@[simp] theorem State.claimOrder_pending (b : Bay) (n : Nat) : (s.claimOrder b n).pending = s.pending := by
  simp [State.claimOrder, apply_ite State.pending]

theorem selectOwner_pending (l : Link) (b : Bay) (n : Nat) : (selectOwner l b n s).state.pending = s.pending := by
  unfold selectOwner
  dsimp only
  repeat' split
  all_goals simp

theorem planningOwner_pending (l : Link) (b : Bay) (judge : Selection → Except ResultCode Selection) :
    (planningOwner l b judge s).state.pending = s.pending := by
  unfold planningOwner
  repeat' split
  all_goals simp

theorem commitOwner_pending (l : Link) (b : Bay) : (commitOwner l b s).state.pending = s.pending := by
  unfold commitOwner
  dsimp only
  repeat' split
  all_goals simp

theorem newPlanOwner_pending (l : Link) (b : Bay) : (newPlanOwner l b s).state.pending = s.pending := by
  unfold newPlanOwner
  repeat' split
  all_goals simp

@[simp] theorem State.startArm_pending (b : Bay) (a : Arm) (order : Nat) (o : Order) (c : Compartment) :
    (s.startArm b a order o c).pending = s.pending := by
  simp [State.startArm]

theorem startOwner_pending (l : Link) (b : Bay) (x : Nat × Nat) : (startOwner l b x s).state.pending = s.pending := by
  unfold startOwner
  dsimp only
  repeat' split
  all_goals simp

theorem armOwner_pending (l : Link) (b : Bay) (n : Nat) {flow : Arm → State → Answer}
    (h : ∀ a, (flow a s).state.pending = s.pending) : (armOwner l b n flow s).state.pending = s.pending := by
  unfold armOwner
  repeat' split
  all_goals simp [h]

theorem stopFlow_pending (a : Arm) : (stopFlow a s).state.pending = s.pending := by
  unfold stopFlow
  repeat' split
  all_goals simp

theorem resumeFlow_pending (a : Arm) : (resumeFlow a s).state.pending = s.pending := by
  unfold resumeFlow
  repeat' split
  all_goals simp

@[simp] theorem State.removeCause_pending (a : Arm) (c : StopCause) : (s.removeCause a c).pending = s.pending := by
  simp [State.removeCause, apply_ite State.pending]

theorem ackFlow_pending (c : StopCause) (a : Arm) : (ackFlow c a s).state.pending = s.pending := by
  unfold ackFlow
  repeat' split
  all_goals simp

theorem ackOwner_pending (l : Link) (b : Bay) (x : Nat × Nat) : (ackOwner l b x s).state.pending = s.pending := by
  unfold ackOwner
  repeat' split
  all_goals simp [armOwner_pending, ackFlow_pending]

theorem finishFlow_pending (a : Arm) : (finishFlow a s).state.pending = s.pending := by
  unfold finishFlow
  repeat' split
  all_goals simp

theorem signOffOwner_pending (b : Bay) : (signOffOwner b s).state.pending = s.pending := by
  unfold signOffOwner
  repeat' split
  all_goals simp

/-! ### The Office requests -/

theorem writeDriverOwner_pending (x : DriverFields) : (writeDriverOwner x s).state.pending = s.pending := by
  unfold writeDriverOwner
  dsimp only
  repeat' split
  all_goals simp

theorem deleteDriverOwner_pending (n : Nat) : (deleteDriverOwner n s).state.pending = s.pending := by
  unfold deleteDriverOwner
  repeat' split
  all_goals simp

theorem resetPinOwner_pending (x : Nat × PinField) : (resetPinOwner x s).state.pending = s.pending := by
  unfold resetPinOwner
  dsimp only
  repeat' split
  all_goals simp

theorem readDriverOwner_pending (x : Nat × Nat) : (readDriverOwner x s).state.pending = s.pending := by
  unfold readDriverOwner
  repeat' split
  all_goals simp

theorem writeOrderOwner_pending (x : OrderFields) : (writeOrderOwner x s).state.pending = s.pending := by
  unfold writeOrderOwner
  repeat' split
  all_goals simp

theorem deleteOrderOwner_pending (n : Nat) : (deleteOrderOwner n s).state.pending = s.pending := by
  unfold deleteOrderOwner
  repeat' split
  all_goals simp

theorem readOrderOwner_pending (x : Nat × Nat) : (readOrderOwner x s).state.pending = s.pending := by
  unfold readOrderOwner
  repeat' split
  all_goals simp

@[simp] theorem State.takeFromSession_pending (n : Nat) (holding : Option Bay) :
    (s.takeFromSession n holding).pending = s.pending := by
  unfold State.takeFromSession
  repeat' split
  all_goals simp

@[simp] theorem State.cancelLoading_pending (n : Nat) : (s.cancelLoading n).pending = s.pending := by
  simp [State.cancelLoading]

@[simp] theorem State.cancelOrder_pending (n : Nat) (o : Order) : (s.cancelOrder n o).pending = s.pending := by
  unfold State.cancelOrder
  repeat' split
  all_goals simp

theorem cancelOrderOwner_pending (n : Nat) : (cancelOrderOwner n s).state.pending = s.pending := by
  unfold cancelOrderOwner
  repeat' split
  all_goals simp

theorem writeRecipeOwner_pending (x : RecipeFields) : (writeRecipeOwner x s).state.pending = s.pending := by
  unfold writeRecipeOwner
  dsimp only
  repeat' split
  all_goals simp

@[simp] theorem State.setService_pending (b : Bay) (out : Bool) : (s.setService b out).pending = s.pending := by
  simp [State.setService]

@[simp] theorem State.takeOut_pending (b : Bay) : (s.takeOut b).pending = s.pending := by
  unfold State.takeOut
  repeat' split
  all_goals simp

@[simp] theorem State.bringIn_pending (b : Bay) : (s.bringIn b).pending = s.pending := by
  unfold State.bringIn
  repeat' split
  all_goals simp

theorem setServiceOwner_pending (x : Nat × Nat) : (setServiceOwner x s).state.pending = s.pending := by
  unfold setServiceOwner
  repeat' split
  all_goals simp

@[simp] theorem State.officeStopArm_pending (a : Arm) : (s.officeStopArm a).pending = s.pending := by
  unfold State.officeStopArm
  repeat' split
  all_goals simp

theorem officeStopOwner_pending (n : Nat) : (officeStopOwner n s).state.pending = s.pending := by
  unfold officeStopOwner
  split
  · rename_i b _
    cases b <;> simp [Bay.arms]
  · simp

@[simp] theorem State.officeReleaseArm_pending (a : Arm) : (s.officeReleaseArm a).pending = s.pending := by
  unfold State.officeReleaseArm
  repeat' split
  all_goals simp

theorem officeReleaseOwner_pending (n : Nat) : (officeReleaseOwner n s).state.pending = s.pending := by
  unfold officeReleaseOwner
  split
  · rename_i b _
    cases b <;> simp [Bay.arms]
  · simp

theorem setStockOwner_pending (x : StockFields) : (setStockOwner x s).state.pending = s.pending := by
  unfold setStockOwner
  dsimp only
  repeat' split
  all_goals simp

theorem readNoteOwner_pending (k : Nat) : (readNoteOwner k s).state.pending = s.pending := by
  unfold readNoteOwner
  split <;> simp

theorem releaseNoteOwner_pending (n : Nat) : (releaseNoteOwner n s).state.pending = s.pending := by
  unfold releaseNoteOwner
  repeat' split
  all_goals simp

/-! ### The Service requests -/

@[simp] theorem State.logSealed_pending (subject : AuditSubject) (changes : List ParameterChange) :
    (s.logSealed subject changes).pending = s.pending := by
  simp [State.logSealed]

theorem writeProductOwner_pending (x : ProductFields) : (writeProductOwner x s).state.pending = s.pending := by
  unfold writeProductOwner
  dsimp only
  repeat' split
  all_goals simp

@[simp] theorem State.writeArm_pending (a : Arm) (new : ArmRecord) : (s.writeArm a new).pending = s.pending := by
  unfold State.writeArm
  dsimp only
  repeat' split
  all_goals simp

theorem writeArmOwner_pending (x : ArmFields) : (writeArmOwner x s).state.pending = s.pending := by
  unfold writeArmOwner
  repeat' split
  all_goals simp

theorem writeInjectorOwner_pending (x : InjectorFields) : (writeInjectorOwner x s).state.pending = s.pending := by
  unfold writeInjectorOwner
  repeat' split
  all_goals simp

theorem writePumpOwner_pending (x : Nat × Nat) : (writePumpOwner x s).state.pending = s.pending := by
  unfold writePumpOwner
  repeat' split
  all_goals simp

theorem writeRackOwner_pending (x : RackFields) : (writeRackOwner x s).state.pending = s.pending := by
  unfold writeRackOwner
  repeat' split
  all_goals simp

theorem readAuditOwner_pending (k : Nat) : (readAuditOwner k s).state.pending = s.pending := by
  unfold readAuditOwner
  repeat' split
  all_goals simp

/-! ### The events -/

@[simp] theorem State.deadmanPress_pending (b : Bay) : (s.deadmanPress b).pending = s.pending := by
  simp [State.deadmanPress, apply_ite State.pending]

@[simp] theorem State.buttonAccepted_pending (b : Bay) (first : Bool) (level : LineLevel) :
    (s.buttonAccepted b first level).pending = s.pending := by
  unfold State.buttonAccepted
  split <;> simp

@[simp] theorem State.permissiveAbsent_pending (b : Bay) : (s.permissiveAbsent b).pending = s.pending := by
  simp [State.permissiveAbsent]

@[simp] theorem State.stopActive_pending : s.stopActive.pending = s.pending := by simp [State.stopActive]

@[simp] theorem State.changeAccepted_pending (i : DiscreteInput) (first : Bool) (level : LineLevel) :
    (s.changeAccepted i first level).pending = s.pending := by
  unfold State.changeAccepted
  split <;> simp

@[simp] theorem State.debounce_pending (i : DiscreteInput) : (s.debounce i).pending = s.pending := by
  simp [State.debounce, apply_ite State.pending]

@[simp] theorem State.meterEdge_pending (a : Arm) (line : MeterLine) (other : LineLevel) :
    (s.meterEdge a line other).pending = s.pending := by
  simp [State.meterEdge]

@[simp] theorem State.handOn_pending (a : Arm) (n : Nat) (causes : List StopCause) (order : IntervalOrder) :
    (s.handOn a n causes order).pending = s.pending := by
  cases order <;> simp [State.handOn]

@[simp] theorem State.intervalEnd_pending (a : Arm) (raw : Nat) (order : IntervalOrder) :
    (s.intervalEnd a raw order).pending = s.pending := by
  simp [State.intervalEnd]

@[simp] theorem State.setReceiver_pending (l : Link) (x : Receiver) : (s.setReceiver l x).pending = s.pending := rfl

@[simp] theorem State.discardFrame_pending (l : Link) : (s.discardFrame l).pending = s.pending := rfl

@[simp] theorem State.offerFrame_pending (l : Link) (r : Request) : (s.offerFrame l r).pending = s.pending := by
  unfold State.offerFrame
  repeat' split
  all_goals rfl

@[simp] theorem State.takeCharacter_pending (l : Link) (c : Byte) (stop : Bool) :
    (s.takeCharacter l c stop).pending = s.pending := by
  unfold State.takeCharacter State.collect
  repeat' split
  all_goals simp

@[simp] theorem State.gapTimeout_pending (l : Link) : (s.gapTimeout l).pending = s.pending := by
  unfold State.gapTimeout
  split <;> rfl

@[simp] theorem State.responseSent_pending (l : Link) : (s.responseSent l).pending = s.pending := by
  unfold State.responseSent
  split <;> rfl

@[simp] theorem State.restEnded_pending (p : Additive) : (s.restEnded p).pending = s.pending := by simp [State.restEnded]

@[simp] theorem State.noFlowExpired_pending (a : Arm) : (s.noFlowExpired a).pending = s.pending := by
  simp [State.noFlowExpired]

@[simp] theorem State.pauseExpired_pending (a : Arm) : (s.pauseExpired a).pending = s.pending := by simp [State.pauseExpired]

@[simp] theorem State.deadmanWarn_pending (b : Bay) : (s.deadmanWarn b).pending = s.pending := rfl

@[simp] theorem State.deadmanStop_pending (x : DeadmanExpiry) : (s.deadmanStop x).pending = s.pending := by
  simp [State.deadmanStop]

@[simp] theorem State.deadmanExpired_pending (x : DeadmanExpiry) : (s.deadmanExpired x).pending = s.pending := by
  unfold State.deadmanExpired
  repeat' split
  all_goals simp

@[simp] theorem State.writeComplete_pending : s.writeComplete.pending = s.pending := by
  unfold State.writeComplete
  split <;> simp

@[simp] theorem State.checkpointComplete_pending : s.checkpointComplete.pending = s.pending := by
  unfold State.checkpointComplete
  split <;> simp

@[simp] theorem State.areaCleared_pending : s.areaCleared.pending = s.pending := by
  unfold State.areaCleared
  split <;> simp

@[simp] theorem State.dropUnanswered_pending (begun : PerLink Bool) : (s.dropUnanswered begun).pending = s.pending := rfl

@[simp] theorem State.holdHandOvers_pending : s.holdHandOvers.pending = s.pending := rfl

@[simp] theorem State.warn_pending (begun : PerLink Bool) : (s.warn begun).pending = s.pending := by simp [State.warn]

@[simp] theorem State.endWarning_pending : s.endWarning.pending = s.pending := by simp [State.endWarning]

@[simp] theorem State.recover_pending (r : Restoration) (a : Arm) : (State.recover r s a).pending = s.pending := by
  unfold State.recover
  split <;> simp

@[simp] theorem State.leaveReset_pending (x : ResetLines) (valid : Bool) : (s.leaveReset x valid).pending = s.pending := by
  simp [State.leaveReset, Arm.all, State.restored]

@[simp] theorem State.completeRestoration_pending : s.completeRestoration.pending = s.pending := by
  simp [State.completeRestoration]

@[simp] theorem State.serveUnknown_pending (l : Link) : (s.serveUnknown l).pending = s.pending := by
  unfold State.serveUnknown
  split
  · split <;> simp
  all_goals rfl

/-! ### Every command -/

variable {α : Type} {s} {form : Walk α}

/-- A request leaves the waiting commands where its owner does. -/
theorem State.serveRequest_pending {l : Link} {code : Byte} {cls : RequestClass} {owner : α → State → Answer}
    (h : ∀ y, (owner y s).state.pending = s.pending) : (s.serveRequest l code cls form owner).pending = s.pending :=
  State.serveRequest_keeps (fun t => t.pending = s.pending) rfl (fun _ _ _ _ ht => by simpa using ht) fun y _ => h y

/-- A Bay request leaves the waiting commands where its bay does. -/
theorem State.serveBay_pending {l : Link} {code : Byte} {owner : Bay → α → State → Answer}
    (h : ∀ b y t, (owner b y t).state.pending = t.pending) : (s.serveBay l code form owner).pending = s.pending :=
  have howner : ∀ b y, (owner b y (s.setPlanReset l false)).state.pending = s.pending := fun b y => h b y _
  State.serveBay_keeps (form := form) (code := code) (fun t => t.pending = s.pending) rfl (fun _ _ _ _ ht => by simpa using ht)
    (fun b y _ => howner b y) fun b y _ _ => (State.refreshInactivity_pending ..).trans (howner b y)

/-- A request row of the table leaves the waiting commands as they are. -/
theorem exec_request_pending {c : Instr} {x : Link × Byte × RequestClass} (h : c.request = some x) (s : State) :
    ∃ t, exec c s = .next t ∧ t.pending = s.pending := by
  cases c <;> cases h <;> refine ⟨_, rfl, ?_⟩
  case identify | readStatus | readClock | readStock | setClock => exact State.serveRequest_pending fun _ => rfl
  case readBay => exact State.serveRequest_pending fun n => readBayOwner_pending s n
  case readArm => exact State.serveRequest_pending fun n => readArmOwner_pending s n
  case card l => exact State.serveBay_pending fun b y t => cardOwner_pending t l b y
  case pin l => exact State.serveBay_pending fun b y t => pinOwner_pending t l b y
  case selectOrder l => exact State.serveBay_pending fun b y t => selectOwner_pending t l b y
  case markFirst l | markLast l | exclude l => exact State.serveBay_pending fun b y t => planningOwner_pending t l b _
  case commitPlan l => exact State.serveBay_pending fun b _ t => commitOwner_pending t l b
  case newPlan l => exact State.serveBay_pending fun b _ t => newPlanOwner_pending t l b
  case start l => exact State.serveBay_pending fun b y t => startOwner_pending t l b y
  case stop l => exact State.serveBay_pending fun b y t => armOwner_pending t l b y (stopFlow_pending t)
  case resume l => exact State.serveBay_pending fun b y t => armOwner_pending t l b y (resumeFlow_pending t)
  case ackCause l => exact State.serveBay_pending fun b y t => ackOwner_pending t l b y
  case finish l => exact State.serveBay_pending fun b y t => armOwner_pending t l b y (finishFlow_pending t)
  case signOff => exact State.serveBay_pending fun b _ t => signOffOwner_pending t b
  case writeDriver => exact State.serveRequest_pending (writeDriverOwner_pending s)
  case deleteDriver => exact State.serveRequest_pending (deleteDriverOwner_pending s)
  case resetPin => exact State.serveRequest_pending (resetPinOwner_pending s)
  case readDriver => exact State.serveRequest_pending (readDriverOwner_pending s)
  case writeOrder => exact State.serveRequest_pending (writeOrderOwner_pending s)
  case deleteOrder => exact State.serveRequest_pending (deleteOrderOwner_pending s)
  case readOrder => exact State.serveRequest_pending (readOrderOwner_pending s)
  case cancelOrder => exact State.serveRequest_pending (cancelOrderOwner_pending s)
  case writeRecipe => exact State.serveRequest_pending (writeRecipeOwner_pending s)
  case setBayService => exact State.serveRequest_pending (setServiceOwner_pending s)
  case officeStop => exact State.serveRequest_pending (officeStopOwner_pending s)
  case officeRelease => exact State.serveRequest_pending (officeReleaseOwner_pending s)
  case setStock => exact State.serveRequest_pending (setStockOwner_pending s)
  case readNote => exact State.serveRequest_pending (readNoteOwner_pending s)
  case releaseNote => exact State.serveRequest_pending (releaseNoteOwner_pending s)
  case writeProduct => exact State.serveRequest_pending (writeProductOwner_pending s)
  case writeArm => exact State.serveRequest_pending (writeArmOwner_pending s)
  case writeInjector => exact State.serveRequest_pending (writeInjectorOwner_pending s)
  case writePump => exact State.serveRequest_pending (writePumpOwner_pending s)
  case writeRack => exact State.serveRequest_pending (writeRackOwner_pending s)
  case readAudit => exact State.serveRequest_pending (readAuditOwner_pending s)

/-- An event row acts under its condition, and leaves the waiting commands where its action does. -/
theorem exec_event_pending {c : Instr} (h : c.request = none) (s : State) :
    ∃ t, exec c s = .next t ∧ t.pending = s.pending := by
  have if_acts : ∀ (p : Prop) [Decidable p] (t : State), t.pending = s.pending → (if p then t else s).pending = s.pending :=
    fun p _ t ht => by split <;> [exact ht; rfl]
  have unless_acts : ∀ (p : Prop) [Decidable p] (t : State), t.pending = s.pending → (if p then s else t).pending = s.pending :=
    fun p _ t ht => by split <;> [rfl; exact ht]
  cases c <;> cases h <;> refine ⟨_, rfl, ?_⟩
  case unknownRequest => exact State.serveUnknown_pending ..
  case rackClockTick | mainPowerLoss => rfl
  case resetAsserted | externalReset => exact unless_acts _ _ (by simp)
  case powerOnReset => simp
  all_goals exact if_acts _ _ (by simp)

/-- Settles O2: a request is served and an event acts or does not; neither touches the waiting commands. -/
theorem everyCommandAnswersNext : Obligations.EveryCommandAnswersNext := by
  intro c s
  cases h : c.request with
  | some x => exact exec_request_pending h s
  | none => exact exec_event_pending h s

end Sys2Proof.Machine
end

section
/-! The power-fail warning: what its assertion stops and begins, and what its de-assertion starts (R14, R123, R138, R140, R158,
R160, R166). -/

namespace Sys2Proof.Machine

variable {s : State}

/-! ### What the NVC begins next -/

theorem State.advanceNv_setNvc (s : State) (x : NvController) :
    (s.setNvc x).advanceNv = s.setNvc (if s.condition = .running then x.advance s.armsNotIdle else x) := by
  simp only [State.advanceNv, State.isRunning, decide_eq_true_iff]
  show (if s.condition = .running then (s.setNvc x).setNvc (x.advance s.armsNotIdle) else s.setNvc x) = _
  split <;> rfl

section Advance

variable {n : NvController} {arms : List Arm}

/-- No write begins while one is in progress. -/
theorem NvController.advance_of_busy (h : n.buffer ≠ none ∨ n.areaWrite ≠ none) : n.advance arms = n := by
  unfold NvController.advance
  rw [if_pos]
  simpa [Option.isSome_iff_ne_none] using h

/-- A clearing that is due begins first. -/
theorem NvController.advance_of_due (hb : n.buffer = none) (ha : n.areaWrite = none) (hc : n.clearDue = true) :
    n.advance arms = { n with areaWrite := some .clearing, clearDue := false } := by
  simp [NvController.advance, hb, ha, hc]

/-- The oldest entry's write begins, in the usual work and in the drain. -/
theorem NvController.advance_of_cons {e : NvEntry} {q : List NvEntry} (hb : n.buffer = none) (ha : n.areaWrite = none)
    (hc : n.clearDue = false) (hp : n.phase = .normal ∨ n.phase = .draining) (hq : n.queue = e :: q) :
    n.advance arms = { n with buffer := some e, queue := q } := by
  rcases hp with hp | hp <;> simp [NvController.advance, hb, ha, hc, hp, hq]

theorem NvController.advance_of_nil (hc : n.clearDue = false) (hp : n.phase = .normal) (hq : n.queue = []) :
    n.advance arms = n := by
  simp [NvController.advance, hc, hp, hq]

/-- The drained queue is followed by the checkpoints. -/
theorem NvController.advance_of_drained (hb : n.buffer = none) (ha : n.areaWrite = none) (hc : n.clearDue = false)
    (hp : n.phase = .draining) (hq : n.queue = []) : n.advance arms = n.checkpointNext arms := by
  simp [NvController.advance, hb, ha, hc, hp, hq]

end Advance

/-! ### A fold that reaches each of its members -/

/-- What one step establishes for its own member and keeps for every other, a fold establishes for all its members. -/
theorem foldl_establishes {β σ : Type} {f : σ → β → σ} {P : β → σ → Prop} (h : ∀ s x y, y = x ∨ P y s → P y (f s x))
    (xs : List β) (s : σ) (y : β) (hy : y ∈ xs ∨ P y s) : P y (xs.foldl f s) := by
  induction xs generalizing s with
  | nil => exact hy.resolve_left (by simp)
  | cons x xs ih =>
    refine ih (f s x) ?_
    rcases hy with hy | hy
    · rcases List.mem_cons.mp hy with hy | hy
      · exact Or.inr (h s x y (Or.inl hy))
      · exact Or.inl hy
    · exact Or.inr (h s x y (Or.inr hy))

/-! ### Shots and queues after the assertion -/

/-- Pump `p` has no shot in progress. -/
def State.noShot (s : State) (p : Additive) : Prop := ∀ c, (s.adu.pumps.get p).status ≠ .shot c

/-- A shot cut off leaves its pump without one, and gives no other pump one. -/
theorem State.noShot_cutShot (s : State) (p q : Additive) (h : q = p ∨ s.noShot q) :
    (State.cutShot (fun _ => true) s p).noShot q := by
  by_cases hq : q = p
  · subst hq
    intro c
    unfold State.cutShot State.endShot
    cases hst : (s.adu.pumps.get q).status <;> simp [hst]
  · have hkeep : (State.cutShot (fun _ => true) s p).adu.pumps.get q = s.adu.pumps.get q := by
      unfold State.cutShot State.endShot
      cases (s.adu.pumps.get p).status <;> simp [PerAdditive.get_modify_of_ne _ _ hq]
    intro c
    rw [hkeep]
    exact h.resolve_left hq c

theorem State.noShot_cutShots (s : State) (p : Additive) : (s.cutShots fun _ => true).noShot p :=
  foldl_establishes (P := fun q u => State.noShot u q) State.noShot_cutShot Additive.all s p
    (Or.inl (by cases p <;> decide))

theorem State.unqueue_status (s : State) (c : Channel) (p : Additive) :
    ((s.unqueue c).adu.pumps.get p).status = (s.adu.pumps.get p).status := by
  unfold State.unqueue
  split <;> simp

/-- A channel removed from its Shot Queue is not queued, and no other channel joins one by it. -/
theorem State.unqueue_place (s : State) (c d : Channel) (h : d = c ∨ (s.adu.channels.get d).place ≠ .queued) :
    ((s.unqueue c).adu.channels.get d).place ≠ .queued := by
  unfold State.unqueue
  split
  · by_cases hd : d = c
    · subst hd
      simp
    · simpa [PerChannel.get_modify_of_ne _ _ hd] using h.resolve_left hd
  · rename_i hc
    rcases h with rfl | h
    · exact hc
    · exact h

theorem State.emptyQueues_place (s : State) (c : Channel) : (s.emptyQueues.adu.channels.get c).place ≠ .queued := by
  rw [State.emptyQueues]
  exact foldl_establishes (f := State.unqueue) (P := fun d u => (u.adu.channels.get d).place ≠ .queued) State.unqueue_place
    Channel.all s c (Or.inl (by cases c <;> decide))

theorem State.noShot_emptyQueues {p : Additive} (h : s.noShot p) : s.emptyQueues.noShot p := by
  intro c
  have hstep : ∀ (cs : List Channel) (u : State),
      ((cs.foldl State.unqueue u).adu.pumps.get p).status = (u.adu.pumps.get p).status := by
    intro cs
    induction cs with
    | nil => exact fun _ => rfl
    | cons d cs ih => exact fun u => (ih _).trans (u.unqueue_status d p)
  rw [State.emptyQueues, hstep]
  exact h c

/-! ### POWER_FAIL on every arm -/

/-- A cause on an arm in CLOSING or ENDING does not move it. -/
theorem State.raiseCause_state_of_past (s : State) (a : Arm) (c : StopCause)
    (h : (s.fc.get a).state = .closing ∨ (s.fc.get a).state = .ending) :
    ((s.raiseCause a c).fc.get a).state = (s.fc.get a).state := by
  by_cases hm : c ∈ (s.fc.get a).causes
  · rw [State.raiseCause_of_held (Or.inr hm)]
  · rw [State.raiseCause_eq (by rcases h with h | h <;> simp [h]) hm]
    rcases h with h | h <;> simp [h]

/-- A terminal cause moves no arm into or out of IDLE or ENDING. -/
theorem State.raiseCause_state_iff (s : State) (a : Arm) {c : StopCause} {r : EndReason} (hr : c.endReason = some r) :
    (((s.raiseCause a c).fc.get a).state = .idle ↔ (s.fc.get a).state = .idle)
      ∧ (((s.raiseCause a c).fc.get a).state = .ending ↔ (s.fc.get a).state = .ending) := by
  by_cases hheld : (s.fc.get a).state = .idle ∨ c ∈ (s.fc.get a).causes
  · rw [State.raiseCause_of_held hheld]
    exact ⟨Iff.rfl, Iff.rfl⟩
  · rw [not_or] at hheld
    by_cases hpast : (s.fc.get a).state = .closing ∨ (s.fc.get a).state = .ending
    · rw [State.raiseCause_state_of_past s a c hpast]
      exact ⟨Iff.rfl, Iff.rfl⟩
    · have hmem : (s.fc.get a).state ∈ [ArmState.lowStart, .highFlow, .topOff, .paused] := by
        revert hheld hpast
        cases (s.fc.get a).state <;> simp
      rw [(State.raiseCause_terminal s a c r hr hmem hheld.2).1]
      revert hheld hpast
      cases (s.fc.get a).state <;> simp

/-- Raised on all four arms, a terminal cause meets each as it stood. -/
theorem State.raiseOn_all (s : State) (a : Arm) (c : StopCause) :
    ∃ u : State, u.fc.get a = s.fc.get a
      ∧ (s.raiseOn [.arm0, .arm1, .arm2, .arm3] c).fc.get a = (u.raiseCause a c).fc.get a := by
  obtain ⟨u, hfc, -, -, hraised, -⟩ :=
    (State.raiseOn_arms [.arm0, .arm1, .arm2, .arm3] (by decide) c s).2.1 a (by cases a <;> decide)
  exact ⟨u, hfc, hraised⟩

/-! ### The assertion -/

/-- Every link as the assertion leaves it, with its slot by what it held. -/
theorem State.dropUnanswered_eq (s : State) (begun : PerLink Bool) :
    s.dropUnanswered begun =
      { s with
        lc :=
          { s.lc with
            links := .tabulate fun l =>
              { s.lc.links.get l with
                slot :=
                  match (s.lc.links.get l).slot with
                  | .responding r => if begun.get l then .responding r else .empty
                  | .pending _ => .empty
                  | .empty => .empty } } } := by
  have hlink : ∀ (k : StationLink) (b : Bool), k.warned b =
      { k with
        slot :=
          match k.slot with
          | .responding r => if b then .responding r else .empty
          | .pending _ => .empty
          | .empty => .empty } := by
    intro k b
    obtain ⟨_, _, _, slot, _, _, _⟩ := k
    cases slot <;> cases b <;> rfl
  simp only [State.dropUnanswered, hlink]

/-- The part with every arm stopped by POWER_FAIL, every shot cut off and every queue emptied. -/
def State.powerStopped (s : State) : State :=
  [Arm.arm0, .arm1, .arm2, .arm3].foldl State.dosingLeft
    ((s.raiseOn [.arm0, .arm1, .arm2, .arm3] .powerFail).cutShots fun _ => true)

theorem State.powerStopped_eq (s : State) :
    s.powerStopped = ((s.raiseOn [.arm0, .arm1, .arm2, .arm3] .powerFail).cutShots fun _ => true).emptyQueues :=
  (State.emptyQueues_eq _).symm

theorem State.powerStopped_fc (s : State) :
    s.powerStopped.fc = (s.raiseOn [.arm0, .arm1, .arm2, .arm3] .powerFail).fc := by
  rw [State.powerStopped_eq, State.emptyQueues_fc, State.cutShots_fc]

theorem State.powerStopped_state_iff (s : State) (a : Arm) :
    ((s.powerStopped.fc.get a).state = .idle ↔ (s.fc.get a).state = .idle)
      ∧ ((s.powerStopped.fc.get a).state = .ending ↔ (s.fc.get a).state = .ending) := by
  obtain ⟨u, hfc, hraised⟩ := s.raiseOn_all a .powerFail
  rw [State.powerStopped_fc, hraised, ← hfc]
  exact State.raiseCause_state_iff u a rfl

/-- What POWER_FAIL does to each arm: nothing where it is IDLE, and otherwise a cause in its set that closes it from the flowing
states and from PAUSED. -/
theorem State.powerStopped_arm (s : State) (a : Arm) :
    ((s.fc.get a).state = .idle → s.powerStopped.fc.get a = s.fc.get a)
      ∧ ((s.fc.get a).state ≠ .idle →
        StopCause.powerFail ∈ (s.powerStopped.fc.get a).causes
          ∧ (StopCause.powerFail ∉ (s.fc.get a).causes →
            (s.fc.get a).state ∈ [ArmState.lowStart, .highFlow, .topOff, .paused] →
            (s.powerStopped.fc.get a).state = .closing ∧ (s.powerStopped.fc.get a).command = .close)) := by
  obtain ⟨u, hfc, hraised⟩ := s.raiseOn_all a .powerFail
  rw [State.powerStopped_fc, hraised, ← hfc]
  exact ⟨fun hidle => by rw [State.raiseCause_of_held (Or.inl hidle)],
    fun hbusy => ⟨State.mem_raiseCause u a .powerFail hbusy,
      fun hnew hst => State.raiseCause_terminal u a .powerFail .powerFail rfl hst hnew⟩⟩

theorem State.powerStopped_adu (s : State) :
    (∀ p c, (s.powerStopped.adu.pumps.get p).status ≠ .shot c)
      ∧ ∀ c, (s.powerStopped.adu.channels.get c).place ≠ .queued := by
  rw [State.powerStopped_eq]
  exact ⟨fun p => State.noShot_emptyQueues (State.noShot_cutShots _ p), State.emptyQueues_place _⟩

theorem State.powerStopped_ns (s : State) : s.powerStopped.ns = s.ns := by simp [State.powerStopped_eq]
theorem State.powerStopped_nvc (s : State) : s.powerStopped.nvc = s.nvc := by simp [State.powerStopped_eq]
theorem State.powerStopped_condition (s : State) : s.powerStopped.condition = s.condition := by
  simp [State.powerStopped_eq]

/-- The NVC as the assertion leaves it: the drain begun where nothing is being written. -/
def State.drained (s : State) : NvController :=
  if s.condition = .running then
    { s.nvc with phase := .draining : NvController }.advance ([Arm.arm0, .arm1, .arm2, .arm3].filter fun a => (s.fc.get a).state ≠ .idle)
  else { s.nvc with phase := .draining }

/-- The hand-overs held and the drain begun over a state `u` whose arms stand in ENDING and IDLE as in `s`. -/
theorem State.holdAndDrain_eq {u : State} (hcond : u.condition = s.condition) (hns : u.ns = s.ns) (hnvc : u.nvc = s.nvc)
    (hiff : ∀ a, ((u.fc.get a).state = .idle ↔ (s.fc.get a).state = .idle)
      ∧ ((u.fc.get a).state = .ending ↔ (s.fc.get a).state = .ending)) :
    (u.holdHandOvers.setNvc { u.holdHandOvers.nvc with phase := .draining }).advanceNv =
      { u with
        ns := { s.ns with held := .tabulate fun a => s.ns.held.get a || decide ((s.fc.get a).state = .ending) }
        nvc := s.drained } := by
  have hheld : u.holdHandOvers =
      u.setNs { s.ns with held := .tabulate fun a => s.ns.held.get a || decide ((s.fc.get a).state = .ending) } := by
    simp only [State.holdHandOvers, hns, (hiff _).2]
  have harms : u.holdHandOvers.armsNotIdle = [Arm.arm0, .arm1, .arm2, .arm3].filter fun a => (s.fc.get a).state ≠ .idle := by
    simp only [State.armsNotIdle, State.armIdle, State.holdHandOvers, State.setNs_fc, (hiff _).1, Arm.all, decide_not]
  have hx : (if u.holdHandOvers.condition = .running then
      { u.holdHandOvers.nvc with phase := .draining : NvController }.advance u.holdHandOvers.armsNotIdle
      else { u.holdHandOvers.nvc with phase := .draining }) = s.drained := by
    rw [harms, show u.holdHandOvers.condition = s.condition from hcond, show u.holdHandOvers.nvc = s.nvc from hnvc, State.drained]
  rw [State.advanceNv_setNvc, hx, hheld]
  rfl

/-- The assertion: what it stops, over a state whose warning is set and whose links have dropped what R14 names. -/
theorem State.warn_eq (s : State) (begun : PerLink Bool) :
    s.warn begun =
      { ((s.setWarning true).dropUnanswered begun).powerStopped with
        ns := { s.ns with held := .tabulate fun a => s.ns.held.get a || decide ((s.fc.get a).state = .ending) }
        nvc := s.drained } := by
  have hstop := State.powerStopped_eq ((s.setWarning true).dropUnanswered begun)
  refine Eq.trans ?_ (State.holdAndDrain_eq (s := s) (State.powerStopped_condition ((s.setWarning true).dropUnanswered begun))
    (State.powerStopped_ns ..) (State.powerStopped_nvc ..) (State.powerStopped_state_iff _))
  simp only [hstop, State.warn, Arm.all]

theorem State.drained_of_busy (h : s.condition = .restoring ∨ s.nvc.buffer ≠ none ∨ s.nvc.areaWrite ≠ none) :
    s.drained = { s.nvc with phase := .draining } := by
  unfold State.drained
  split
  · rename_i hrun
    exact NvController.advance_of_busy (h.resolve_left (by simp [hrun]))
  · rfl

theorem State.drained_of_running (hrun : s.condition = .running) :
    s.drained = { s.nvc with phase := .draining : NvController }.advance
      ([Arm.arm0, .arm1, .arm2, .arm3].filter fun a => (s.fc.get a).state ≠ .idle) := if_pos hrun

/-! ### Pumps that serve again (R138) -/

/-- The channel an IDLE pump serves: the oldest of its queue, while the emergency stop is INACTIVE. -/
def State.servedHead (s : State) (p : Additive) : Option Channel :=
  if (s.adu.pumps.get p).status = .idle ∧ s.accepts .emergencyStop = true then (s.adu.pumps.get p).queue.head? else none

/-- The pump with the shot it begins. -/
def State.servedPump (s : State) (p : Additive) : PumpState :=
  match s.servedHead p with
  | none => s.adu.pumps.get p
  | some c =>
    { status := .shot c, queue := (s.adu.pumps.get p).queue.tail, restTimer := (s.adu.pumps.get p).restTimer
      shotTimer := some (s.wc.injectors.get c).timeLimit, pulseCount := 0, volume := 0
      target := ((s.wc.injectors.get c).shotVolume * (s.wc.injectors.get c).kMilli + 999999) / 1000000 }

theorem State.servedPump_of_none {p : Additive} (h : s.servedHead p = none) : s.servedPump p = s.adu.pumps.get p := by
  rw [State.servedPump, h]

/-- With the warning de-asserted, a pump serves exactly where it has a channel to serve. -/
theorem State.serve_of_none {p : Additive} (h : s.servedHead p = none) (hwarn : s.ic.warning = false) : s.serve p = s := by
  unfold State.serve
  dsimp only
  split
  · rename_i c rest hst hq
    refine if_neg ?_
    intro hgo
    have hstop : s.accepts .emergencyStop = true := by simpa [State.stopInactive, hwarn] using hgo
    rw [State.servedHead, if_pos ⟨hst, hstop⟩, hq] at h
    cases h
  · rfl

theorem State.serve_of_some {p : Additive} {c : Channel} (h : s.servedHead p = some c) (hwarn : s.ic.warning = false) :
    s.serve p =
      { s with
        adu :=
          { channels := s.adu.channels.modify c fun k => { k with place := .inShot }
            pumps := s.adu.pumps.set p (s.servedPump p) } } := by
  have hhead := h
  unfold State.servedHead at hhead
  split at hhead
  · rename_i hgo
    obtain ⟨rest, hq⟩ : ∃ rest, (s.adu.pumps.get p).queue = c :: rest := List.head?_eq_some_iff.mp hhead
    have hstop : s.stopInactive = true := hgo.2
    simp only [State.serve, hgo.1, hq, hstop, hwarn, Bool.not_false, Bool.and_self, if_true, State.servedPump, h, List.tail_cons,
      State.modifyChannel, State.modifyPump, PerAdditive.modify]
  · cases hhead

/-- What one pump's serving does to every pump and every channel. -/
theorem State.serve_members (hwarn : s.ic.warning = false) (p : Additive) :
    s.serve p = { s with adu := (s.serve p).adu }
      ∧ (∀ q, (s.serve p).adu.pumps.get q = if q = p then s.servedPump p else s.adu.pumps.get q)
      ∧ ∀ c, (s.serve p).adu.channels.get c =
        if s.servedHead p = some c then { s.adu.channels.get c with place := .inShot } else s.adu.channels.get c := by
  cases h : s.servedHead p with
  | none =>
    rw [State.serve_of_none h hwarn, State.servedPump_of_none h]
    refine ⟨rfl, fun q => ?_, fun c => by simp⟩
    by_cases hq : q = p <;> simp [hq]
  | some d =>
    rw [State.serve_of_some h hwarn]
    refine ⟨rfl, fun q => PerAdditive.get_set .., fun c => ?_⟩
    simp only [PerChannel.get_modify, Option.some.injEq, eq_comm]

/-- What the serving of several pumps in turn does: each begins what it could begin at the outset. -/
theorem State.foldl_serve (ps : List Additive) (hnd : ps.Nodup) (s : State) (hwarn : s.ic.warning = false) :
    ps.foldl State.serve s = { s with adu := (ps.foldl State.serve s).adu }
      ∧ (∀ q, (ps.foldl State.serve s).adu.pumps.get q = if q ∈ ps then s.servedPump q else s.adu.pumps.get q)
      ∧ ∀ c, (ps.foldl State.serve s).adu.channels.get c =
        if ps.any fun p => decide (s.servedHead p = some c) then { s.adu.channels.get c with place := .inShot }
        else s.adu.channels.get c := by
  induction ps generalizing s with
  | nil => exact ⟨rfl, fun q => by simp, fun c => by simp⟩
  | cons p ps ih =>
    rw [List.nodup_cons] at hnd
    obtain ⟨hrest, hpumps, hchannels⟩ := State.serve_members hwarn p
    obtain ⟨ihrest, ihpumps, ihchannels⟩ := ih hnd.2 (s.serve p) (by rw [State.serve_ic]; exact hwarn)
    have hpump : ∀ q ∈ ps, (s.serve p).adu.pumps.get q = s.adu.pumps.get q := by
      intro q hq
      rw [hpumps, if_neg]
      rintro rfl
      exact hnd.1 hq
    have hhead : ∀ q ∈ ps, (s.serve p).servedHead q = s.servedHead q := by
      intro q hq
      have hstop : (s.serve p).accepts .emergencyStop = s.accepts .emergencyStop := by
        rw [State.accepts, State.serve_ic, State.accepts]
      rw [State.servedHead, State.servedHead, hpump q hq, hstop]
    have hserved : ∀ q ∈ ps, (s.serve p).servedPump q = s.servedPump q := by
      intro q hq
      simp only [State.servedPump, hhead q hq, hpump q hq, State.serve_wc]
    rw [List.foldl_cons]
    refine ⟨?_, fun q => ?_, fun c => ?_⟩
    · rw [ihrest, hrest]
    · rw [ihpumps, hpumps]
      by_cases hq : q ∈ ps
      · simp [hq, hserved q hq]
      · by_cases hqp : q = p <;> simp [hq, hqp, hnd.1]
    · have hany : (ps.any fun q => decide ((s.serve p).servedHead q = some c)) =
          ps.any fun q => decide (s.servedHead q = some c) := by
        refine Bool.eq_iff_iff.mpr ?_
        simp only [List.any_eq_true, decide_eq_true_iff]
        exact exists_congr fun q => and_congr_right fun hq => by rw [hhead q hq]
      rw [ihchannels, hany, hchannels, List.any_cons]
      by_cases hc : s.servedHead p = some c
      · simp only [hc, if_true, decide_true, Bool.true_or]
        split <;> rfl
      · simp [hc]

/-- All pumps served: the ADU member by member. -/
theorem State.serveAll_eq (s : State) (hwarn : s.ic.warning = false) :
    s.serveAll =
      { s with
        adu :=
          { channels := .tabulate fun c =>
              if Additive.all.any fun p => decide (s.servedHead p = some c) then { s.adu.channels.get c with place := .inShot }
              else s.adu.channels.get c
            pumps := .tabulate s.servedPump } } := by
  obtain ⟨hrest, hpumps, hchannels⟩ := State.foldl_serve Additive.all (by decide) s hwarn
  have hall : ∀ q, q ∈ Additive.all := by intro q; cases q <;> decide
  have hch : (Additive.all.foldl State.serve s).adu.channels =
      .tabulate fun c =>
        if Additive.all.any fun p => decide (s.servedHead p = some c) then { s.adu.channels.get c with place := .inShot }
        else s.adu.channels.get c :=
    PerChannel.ext_get fun c => by rw [hchannels, PerChannel.get_tabulate]
  have hpu : (Additive.all.foldl State.serve s).adu.pumps = .tabulate s.servedPump :=
    PerAdditive.ext_get fun q => by rw [hpumps, if_pos (hall q), PerAdditive.get_tabulate]
  rw [State.serveAll, hrest, ← hch, ← hpu]

/-! ### The de-assertion -/

/-- Where no arm is in ENDING, no hand-over is freed. -/
theorem State.takeFreed_of_none_ending {u before : State} (h : ∀ a, (u.fc.get a).state ≠ .ending) : u.takeFreed before = u := by
  have hready : ∀ a, u.handOverReady a = false := fun a => by simp [State.handOverReady, h a]
  simp [State.takeFreed, Arm.all, hready]

/-- The NVC back at its usual work, with a clearing due of an area that holds or is being given a checkpoint. -/
def NvController.usual (n : NvController) : NvController := { n with phase := .normal, clearDue := n.clearingDue }

/-- The NVC as the de-assertion leaves it: a clearing or the oldest entry's write begun where nothing is being written. -/
def State.resumed (s : State) : NvController :=
  if s.condition = .running then s.nvc.usual.advance s.armsNotIdle else s.nvc.usual

theorem State.endWarning_eq (s : State) :
    s.endWarning = (((s.setWarning false).serveAll).setNvc s.resumed).takeFreed s := by
  have hnvc : (s.setWarning false).serveAll.nvc = s.nvc := State.serveAll_nvc _
  have hcond : (s.setWarning false).serveAll.condition = s.condition := State.serveAll_condition _
  have harms : (s.setWarning false).serveAll.armsNotIdle = s.armsNotIdle := by
    simp only [State.armsNotIdle, State.armIdle, State.serveAll_fc, State.setWarning_fc]
  simp only [State.endWarning]
  rw [State.advanceNv_setNvc, hnvc, hcond, harms]
  rfl

theorem State.resumed_of_busy (h : s.condition = .restoring ∨ s.nvc.buffer ≠ none ∨ s.nvc.areaWrite ≠ none) :
    s.resumed = s.nvc.usual := by
  unfold State.resumed
  split
  · rename_i hrun
    exact NvController.advance_of_busy (h.resolve_left (by simp [hrun]))
  · rfl

theorem State.resumed_of_running (hrun : s.condition = .running) : s.resumed = s.nvc.usual.advance s.armsNotIdle := if_pos hrun

theorem exec_powerFailWarningAssert (halive : s.alive = true) (hwarn : s.ic.warning = false) (begun : PerLink Bool) :
    exec (.powerFailWarningAssert begun) s = .next (s.warn begun) :=
  congrArg Host.Outcome.next (if_pos (by rw [halive, hwarn]; rfl))

theorem exec_powerFailWarningDeassert (halive : s.alive = true) (hwarn : s.ic.warning = true) :
    exec .powerFailWarningDeassert s = .next s.endWarning :=
  congrArg Host.Outcome.next (if_pos (by rw [halive, hwarn]; rfl))

/-- Settles O52: the assertion and the de-assertion by what they do to the arms, the ADU, the links and the NVC. -/
theorem warningIsAssertedAndReleased : Obligations.WarningIsAssertedAndReleased := by
  refine ⟨fun begun s hcond hwarn => ?_, fun s hcond hwarn => ?_⟩
  · intro n warned stopped drains
    have hwarned : (s.setWarning true).dropUnanswered begun = warned := State.dropUnanswered_eq _ _
    have hstopped : warned.powerStopped = stopped := rfl
    clear_value stopped
    have harm := warned.powerStopped_arm
    have hadu := warned.powerStopped_adu
    rw [hstopped] at harm hadu
    refine ⟨_, s.drained, exec_powerFailWarningAssert (State.alive_iff.mpr hcond) hwarn begun, ?_, State.drained_of_busy,
      fun hrun hbuf harea => ⟨fun hdue => ?_, fun hdue => ⟨fun e q hq => ?_, fun hq => ⟨fun hidle => ?_, fun a rest harms => ?_⟩⟩⟩,
      ?_⟩
    · rw [State.warn_eq, hwarned, hstopped]
    · rw [State.drained_of_running hrun]
      exact NvController.advance_of_due hbuf harea hdue
    · rw [State.drained_of_running hrun]
      exact NvController.advance_of_cons hbuf harea hdue (Or.inr rfl) hq
    · rw [State.drained_of_running hrun, List.filter_eq_nil_iff.mpr fun a _ => by simp [hidle a]]
      exact NvController.advance_of_drained hbuf harea hdue rfl hq
    · rw [State.drained_of_running hrun, harms]
      exact NvController.advance_of_drained hbuf harea hdue rfl hq
    · rw [State.warn_eq, hwarned, hstopped]
      exact ⟨fun a => (harm a).1, fun a => (harm a).2, hadu⟩
  · intro n usual head released
    have husual : s.nvc.usual = usual := rfl
    have hreleased : ∀ x, (s.setWarning false).serveAll.setNvc x = released x := by
      intro x
      rw [State.serveAll_eq (s.setWarning false) rfl]
      rfl
    refine ⟨s.resumed, _, exec_powerFailWarningDeassert (State.alive_iff.mpr hcond) hwarn, ?_, fun hnone => ?_,
      State.resumed_of_busy, fun hrun hbuf harea => ⟨fun hdue => ?_, fun hdue => ⟨fun hq => ?_, fun e q hq => ?_⟩⟩⟩
    · rw [State.freed_eq, State.endWarning_eq, hreleased]
    · rw [State.endWarning_eq, hreleased]
      exact State.takeFreed_of_none_ending hnone
    · rw [State.resumed_of_running hrun]
      exact NvController.advance_of_due hbuf harea hdue
    · rw [State.resumed_of_running hrun]
      exact NvController.advance_of_nil hdue rfl hq
    · rw [State.resumed_of_running hrun]
      exact NvController.advance_of_cons hbuf harea hdue (Or.inl rfl) hq

end Sys2Proof.Machine
end

section
/-! Power, resets, restoration and recovery notes (R1, R7, R14, R17, R36, R148, R157, R161 to R163, R168, R173). -/

namespace Sys2Proof.Machine

variable {s u t : State}

/-! ### The reset line, the supply and the end of restoration -/

theorem exec_resetAsserted_of_unpowered (h : s.condition = .unpowered) : exec .resetAsserted s = .next s :=
  congrArg Host.Outcome.next (if_pos h)

theorem exec_resetAsserted_of_powered (h : s.condition ≠ .unpowered) :
    exec .resetAsserted s = .next { s with condition := .heldInReset } := congrArg Host.Outcome.next (if_neg h)

theorem exec_backupSupplyRanFlat_of_unpowered (h : s.condition = .unpowered) :
    exec .backupSupplyRanFlat s = .next { s with nvc := { s.nvc with retainedValid := false } } :=
  congrArg Host.Outcome.next (if_pos h)

theorem exec_backupSupplyRanFlat_of_powered (h : s.condition ≠ .unpowered) : exec .backupSupplyRanFlat s = .next s :=
  congrArg Host.Outcome.next (if_neg h)

theorem exec_restorationComplete_of_not_restoring (h : s.condition ≠ .restoring) : exec .restorationComplete s = .next s :=
  congrArg Host.Outcome.next (if_neg h)

/-- The part as it runs from the completion of restoration on, with all counts 0. -/
def State.runs (s : State) (n : NvController) : State :=
  { s with
    condition := .running
    ic := { s.ic with meters := .tabulate fun a => { s.ic.meters.get a with counts := { nA := 0, nB := 0, reverse := 0 } } }
    nvc := n }

theorem State.completeRestoration_eq (s : State) :
    s.completeRestoration = s.runs ({ s.nvc with area := .const none : NvController }.advance s.armsNotIdle) :=
  State.advanceNv_setNvc (s.runs s.nvc) { s.nvc with area := .const none }

theorem exec_restorationComplete_of_restoring (h : s.condition = .restoring) :
    exec .restorationComplete s = .next (s.runs ({ s.nvc with area := .const none : NvController }.advance s.armsNotIdle)) := by
  rw [← State.completeRestoration_eq]
  exact congrArg Host.Outcome.next (if_pos h)

/-- The events of R36, R157 and R161 but the resets. -/
theorem powerEvents (s : State) :
    (s.condition = .unpowered → exec .resetAsserted s = .next s)
    ∧ (s.condition ≠ .unpowered → exec .resetAsserted s = .next { s with condition := .heldInReset })
    ∧ exec .mainPowerLoss s = .next { s with condition := .unpowered }
    ∧ (s.condition = .unpowered →
      exec .backupSupplyRanFlat s = .next { s with nvc := { s.nvc with retainedValid := false } })
    ∧ (s.condition ≠ .unpowered → exec .backupSupplyRanFlat s = .next s)
    ∧ (s.condition ≠ .restoring → exec .restorationComplete s = .next s)
    ∧ (s.condition = .restoring → s.nvc.areaWrite = none → s.nvc.clearDue = false →
      (s.nvc.phase = .normal ∨ s.nvc.phase = .draining) →
      (s.nvc.buffer ≠ none → exec .restorationComplete s = .next (s.runs { s.nvc with area := .const none }))
      ∧ (s.nvc.buffer = none →
        (s.nvc.queue = [] → s.nvc.phase = .normal →
          exec .restorationComplete s = .next (s.runs { s.nvc with area := .const none }))
        ∧ (s.nvc.queue = [] → s.nvc.phase = .draining → (∀ a, (s.fc.get a).state = .idle) →
          exec .restorationComplete s = .next (s.runs { s.nvc with area := .const none, phase := .drained }))
        ∧ ∀ e q, s.nvc.queue = e :: q →
          exec .restorationComplete s =
            .next (s.runs { s.nvc with area := .const none, buffer := some e, queue := q }))) := by
  refine ⟨exec_resetAsserted_of_unpowered, exec_resetAsserted_of_powered, rfl, exec_backupSupplyRanFlat_of_unpowered,
    exec_backupSupplyRanFlat_of_powered, exec_restorationComplete_of_not_restoring, fun hcond harea hdue hphase => ?_⟩
  have hnext : ∀ {x}, { s.nvc with area := .const none : NvController }.advance s.armsNotIdle = x →
      exec .restorationComplete s = .next (s.runs x) := by
    rintro x rfl
    exact exec_restorationComplete_of_restoring hcond
  refine ⟨fun hbuf => hnext (NvController.advance_of_busy (Or.inl hbuf)),
    fun hbuf => ⟨fun hq hp => hnext (NvController.advance_of_nil hdue hp hq), fun hq hp hidle => ?_,
      fun e q hq => hnext (NvController.advance_of_cons hbuf harea hdue hphase hq)⟩⟩
  have harms : s.armsNotIdle = [] := List.filter_eq_nil_iff.mpr fun a _ => by simp [State.armIdle, hidle a]
  refine hnext ?_
  rw [harms]
  exact NvController.advance_of_drained hbuf harea hdue hp hq

/-! ### Flags raised in turn -/

/-- The flags of two runs of events, one after the other. -/
theorem State.flagged_trans {es fs : List FlagEvent} (h : s.flagged u es) (h' : u.flagged t fs) : s.flagged t (es ++ fs) := by
  obtain ⟨hclock, hbaud, hlinks⟩ := h
  obtain ⟨hclock', hbaud', hlinks'⟩ := h'
  refine ⟨hclock'.trans hclock, hbaud'.trans hbaud, fun k => ?_⟩
  rw [hlinks', State.flagsAfter, State.raisedAfter]
  simp only [hlinks, State.flagsAfter, State.raisedAfter, State.marked, List.foldl_append]

/-! ### A note made during restoration -/

/-- The flags a note raises (R146, R151). -/
def NoteRecord.events (n : NoteRecord) : List FlagEvent :=
  if n.deviation then [.noteAdded n.bay, .causeRaised n.arm] else [.noteAdded n.bay]

/-- The entries a note hands to the NVC, with its arm's totals and the stock (R151). -/
def NoteRecord.entries (n : NoteRecord) (totals : Totals) (stock : PerAdditive StockRecord) : List NvEntry :=
  [{ contents := .note n (noteNumberAfter n.number), cls := .endClass }, { contents := .totals n.arm totals, cls := .endClass },
    { contents := .stock stock, cls := .endClass }]

/-- An arm's totalizers as a totals record (R156). -/
def State.totalsOf (s : State) (a : Arm) : Totals := { gross := (s.me.get a).gross, net := (s.me.get a).net }

theorem State.commit_of_restoring (h : s.condition = .restoring) (c : NvContents) (k : EntryClass) :
    s.commit c k =
      { s with wc := s.wc.write c, nvc := { s.nvc with queue := enqueue s.nvc.queue { contents := c, cls := k } } } := by
  have hno : s.condition ≠ .running := by simp [h]
  apply State.eq_of_parts <;> simp [State.commit_nvc, hno]

/-- Several end-class contents committed in turn during restoration. -/
theorem State.commits_of_restoring (cs : List NvContents) (h : s.condition = .restoring) :
    cs.foldl (fun t c => t.commit c .endClass) s =
      { s with
        wc := cs.foldl NvRecords.write s.wc
        nvc :=
          { s.nvc with queue := (cs.map fun c => NvEntry.mk c .endClass).foldl enqueue s.nvc.queue } } := by
  induction cs generalizing s with
  | nil => rfl
  | cons c cs ih =>
    rw [List.foldl_cons, State.commit_of_restoring h]
    exact ih h

/-- The part of `State.addNote` before its entries: the mark and the counter cleared, and the flags raised. -/
def State.noted (s : State) (a : Arm) (n : NoteRecord) : State :=
  let marked := (s.setNs { s.ns with reserved := s.ns.reserved.set a false }).setMe a { s.me.get a with unauthorized := 0 }
  if n.deviation then (marked.raiseFlag (.noteAdded n.bay)).raiseFlag (.causeRaised a) else marked.raiseFlag (.noteAdded n.bay)

theorem State.addNote_eq (s : State) (a : Arm) (n : NoteRecord) :
    s.addNote a n =
      [NvContents.note n (noteNumberAfter n.number), .totals a ((s.noted a n).totalsOf a), .stock (s.noted a n).wc.stock].foldl
        (fun t c => t.commit c .endClass) (s.noted a n) := by
  simp only [State.addNote, State.noted, State.commit_wc, NvRecords.write, State.totalsOf]
  rfl

theorem State.noted_parts (s : State) (a : Arm) (n : NoteRecord) :
    s.noted a n =
      { s with
        lc := (s.noted a n).lc, me := s.me.set a { s.me.get a with unauthorized := 0 }
        ns := { s.ns with reserved := s.ns.reserved.set a false } } := by
  unfold State.noted
  cases n.deviation <;> rfl

theorem State.flagged_noted (s : State) (n : NoteRecord) : s.flagged (s.noted n.arm n) n.events := by
  have hmarked : ∀ v : State, v.lc = s.lc → s.flagged v [] := fun v => State.flagged_congr (State.flagged_refl s)
  unfold State.noted NoteRecord.events
  dsimp only
  split
  · exact State.flagged_raiseFlag (State.flagged_raiseFlag (hmarked _ rfl) _) _
  · exact State.flagged_raiseFlag (hmarked _ rfl) _

/-- A note added during restoration, when no write begins. -/
theorem State.addNote_of_restoring (h : s.condition = .restoring) {a : Arm} {n : NoteRecord} (ha : n.arm = a) :
    s.addNote a n =
      { s with
        lc := (s.noted a n).lc
        wc :=
          { s.wc with
            notes := s.wc.notes ++ [n], nextNote := noteNumberAfter n.number, totals := s.wc.totals.set a (s.totalsOf a) }
        me := s.me.set a { s.me.get a with unauthorized := 0 }
        ns := { s.ns with reserved := s.ns.reserved.set a false }
        nvc := { s.nvc with queue := (n.entries (s.totalsOf a) s.wc.stock).foldl enqueue s.nvc.queue } } := by
  subst ha
  have hparts := s.noted_parts n.arm n
  have htotals : (s.noted n.arm n).totalsOf n.arm = s.totalsOf n.arm := by
    rw [hparts]
    simp [State.totalsOf]
  rw [State.addNote_eq, htotals]
  generalize s.noted n.arm n = v at hparts ⊢
  have hv : v.condition = .restoring := by rw [hparts, ← h]
  rw [State.commits_of_restoring _ hv, hparts]
  rfl

/-! ### Recovery notes (R162) -/

/-- The recovery note of a running record found on an arm, under a number. -/
def State.recoveryNote (s : State) (r : Restoration) (number : Nat) (a : Arm) (y : Running) : NoteRecord :=
  { y.toNote s.wc a s.recoveryReason s.timestamp (s.recoveryTotals r a) true with number := number }

/-- The notes of several running records under rising numbers. -/
def notesFrom (note : Nat → Arm → Running → NoteRecord) (number : Nat) : List (Arm × Running) → List NoteRecord
  | [] => []
  | p :: rest => note number p.1 p.2 :: notesFrom note (noteNumberAfter number) rest

theorem notesFrom_eq_mapIdx (note : Nat → Arm → Running → NoteRecord) (number : Nat) (ps : List (Arm × Running)) :
    notesFrom note number ps = ps.mapIdx fun i p => note (noteNumberAfter^[i] number) p.1 p.2 := by
  induction ps generalizing number with
  | nil => rfl
  | cons p ps ih => rw [notesFrom, ih, List.mapIdx_cons]; rfl

/-- The running records of some arms, in their order. -/
def State.found (s : State) (arms : List Arm) : List (Arm × Running) :=
  arms.filterMap fun a => (s.running.get a).map fun y => (a, y)

/-- The entries of several notes. -/
def State.noteEntries (s : State) (notes : List NoteRecord) : List NvEntry :=
  notes.flatMap fun n => n.entries (s.totalsOf n.arm) s.wc.stock

/-- The arm is one of `arms` and has a running record. -/
def State.taken (s : State) (arms : List Arm) (a : Arm) : Bool := decide (a ∈ arms) && (s.running.get a).isSome

/-- The totals records with those of the taken arms written. -/
def State.takenTotals (s : State) (arms : List Arm) : PerArm Totals :=
  .tabulate fun a => if s.taken arms a then s.totalsOf a else s.wc.totals.get a

/-- The channels with the counters of the taken arms cleared. -/
def State.takenMe (s : State) (arms : List Arm) : PerArm MeteringChannel :=
  .tabulate fun a => if s.taken arms a then { s.me.get a with unauthorized := 0 } else s.me.get a

/-- The running records without those of the named arms. -/
def State.takenRunning (s : State) (arms : List Arm) : PerArm (Option Running) :=
  .tabulate fun a => if a ∈ arms then none else s.running.get a

/-- The reservation marks with those of the taken arms cleared. -/
def State.takenReserved (s : State) (arms : List Arm) : PerArm Bool :=
  .tabulate fun a => s.ns.reserved.get a && !s.taken arms a

/-- The part with the running records of some arms made into the notes `notes`. -/
def State.withNotes (s : State) (arms : List Arm) (notes : List NoteRecord) : State :=
  { s with
    wc :=
      { s.wc with
        notes := s.wc.notes ++ notes, nextNote := noteNumberAfter^[notes.length] s.wc.nextNote, totals := s.takenTotals arms }
    me := s.takenMe arms, running := s.takenRunning arms, ns := { s.ns with reserved := s.takenReserved arms }
    nvc := { s.nvc with queue := (s.noteEntries notes).foldl enqueue s.nvc.queue } }

/-! ### Notes taken arm by arm -/

section WithNotes

variable {arms : List Arm} {notes : List NoteRecord} {a : Arm}

theorem State.totalsOf_withNotes (s : State) (arms : List Arm) (notes : List NoteRecord) :
    (s.withNotes arms notes).totalsOf = s.totalsOf := by
  funext a
  simp only [State.totalsOf, State.withNotes, State.takenMe, PerArm.get_tabulate]
  split <;> rfl

theorem State.noteEntries_withNotes (s : State) (arms : List Arm) (notes : List NoteRecord) :
    (s.withNotes arms notes).noteEntries = s.noteEntries := by
  funext ns
  rw [State.noteEntries, State.totalsOf_withNotes]
  rfl

theorem State.running_withNotes (s : State) (arms : List Arm) (notes : List NoteRecord) (b : Arm) :
    (s.withNotes arms notes).running.get b = if b ∈ arms then none else s.running.get b := PerArm.get_tabulate ..

theorem State.taken_nil (s : State) (a : Arm) : s.taken [] a = false := by simp [State.taken]

theorem State.taken_cons (s : State) (a : Arm) (arms : List Arm) (b : Arm) :
    s.taken (a :: arms) b = (s.taken [a] b || s.taken arms b) := by
  simp [State.taken, Bool.and_or_distrib_right]

/-- An arm without a running record is never taken. -/
theorem State.taken_cons_of_none (h : s.running.get a = none) (arms : List Arm) : s.taken (a :: arms) = s.taken arms := by
  funext b
  by_cases hb : b = a
  · subst hb
    simp [State.taken, h]
  · simp [State.taken, hb]

theorem State.taken_withNotes (h : a ∉ arms) (ns : List NoteRecord) (b : Arm) :
    (s.withNotes [a] ns).taken arms b = s.taken arms b := by
  by_cases hb : b ∈ arms
  · have hne : b ≠ a := by rintro rfl; exact h hb
    simp [State.taken, State.running_withNotes, hne]
  · simp [State.taken, hb]

theorem State.withNotes_nil (s : State) : s.withNotes [] [] = s := by
  have htotals : s.takenTotals [] = s.wc.totals := by simp only [State.takenTotals, State.taken_nil]; rfl
  have hme : s.takenMe [] = s.me := by simp only [State.takenMe, State.taken_nil]; rfl
  have hreserved : s.takenReserved [] = s.ns.reserved := by
    simp only [State.takenReserved, State.taken_nil, Bool.not_false, Bool.and_true]
    rfl
  rw [State.withNotes, htotals, hme, hreserved, List.append_nil]
  rfl

/-- An arm without a running record makes no note. -/
theorem State.withNotes_cons_of_none (h : s.running.get a = none) (arms : List Arm) (notes : List NoteRecord) :
    s.withNotes (a :: arms) notes = s.withNotes arms notes := by
  have hrunning : s.takenRunning (a :: arms) = s.takenRunning arms := by
    refine PerArm.ext_get fun b => ?_
    simp only [State.takenRunning, PerArm.get_tabulate, List.mem_cons]
    by_cases hb : b = a <;> simp [hb, h]
  simp only [State.withNotes, State.takenTotals, State.takenMe, State.takenReserved, State.taken_cons_of_none h, hrunning]

/-- Arms taken one after the other are taken together. -/
theorem State.withNotes_withNotes (h : a ∉ arms) (n : NoteRecord) (notes : List NoteRecord) :
    (s.withNotes [a] [n]).withNotes arms notes = s.withNotes (a :: arms) (n :: notes) := by
  have htotals : (s.withNotes [a] [n]).takenTotals arms = s.takenTotals (a :: arms) := by
    refine PerArm.ext_get fun b => ?_
    have hb : (s.withNotes [a] [n]).wc.totals.get b = if s.taken [a] b then s.totalsOf b else s.wc.totals.get b :=
      PerArm.get_tabulate ..
    simp only [State.takenTotals, PerArm.get_tabulate, State.taken_withNotes h, State.totalsOf_withNotes, hb,
      s.taken_cons a arms]
    cases s.taken [a] b <;> cases s.taken arms b <;> rfl
  have hme : (s.withNotes [a] [n]).takenMe arms = s.takenMe (a :: arms) := by
    refine PerArm.ext_get fun b => ?_
    have hb : (s.withNotes [a] [n]).me.get b =
        if s.taken [a] b then { s.me.get b with unauthorized := 0 } else s.me.get b := PerArm.get_tabulate ..
    simp only [State.takenMe, PerArm.get_tabulate, State.taken_withNotes h, hb, s.taken_cons a arms]
    cases s.taken [a] b <;> cases s.taken arms b <;> rfl
  have hreserved : (s.withNotes [a] [n]).takenReserved arms = s.takenReserved (a :: arms) := by
    refine PerArm.ext_get fun b => ?_
    have hb : (s.withNotes [a] [n]).ns.reserved.get b = (s.ns.reserved.get b && !s.taken [a] b) := PerArm.get_tabulate ..
    simp only [State.takenReserved, PerArm.get_tabulate, State.taken_withNotes h, hb, s.taken_cons a arms, Bool.not_or,
      Bool.and_assoc]
  have hrunning : (s.withNotes [a] [n]).takenRunning arms = s.takenRunning (a :: arms) := by
    refine PerArm.ext_get fun b => ?_
    simp only [State.takenRunning, PerArm.get_tabulate, State.running_withNotes, List.mem_cons]
    by_cases hb : b = a <;> simp [hb]
  have hnotes : (s.withNotes [a] [n]).wc.notes ++ notes = s.wc.notes ++ (n :: notes) := List.append_assoc ..
  have hqueue : ((s.withNotes [a] [n]).noteEntries notes).foldl enqueue (s.withNotes [a] [n]).nvc.queue =
      (s.noteEntries (n :: notes)).foldl enqueue s.nvc.queue := by
    rw [State.noteEntries_withNotes, show (s.withNotes [a] [n]).nvc.queue = (s.noteEntries [n]).foldl enqueue s.nvc.queue from rfl,
      ← List.foldl_append]
    simp only [State.noteEntries, List.flatMap_cons, List.flatMap_nil, List.append_nil]
  rw [State.withNotes, htotals, hme, hreserved, hrunning, hnotes, hqueue]
  rfl

end WithNotes

/-! ### The fold of the recovery notes -/

/-- An arm without a running record is left as it is. -/
theorem State.recover_of_none {a : Arm} (h : s.running.get a = none) (r : Restoration) : State.recover r s a = s := by
  rw [State.recover, h]

/-- A running record found becomes the arm's recovery note. -/
theorem State.recover_of_some {a : Arm} {y : Running} (hcond : s.condition = .restoring) (h : s.running.get a = some y)
    (r : Restoration) :
    State.recover r s a =
        { s.withNotes [a] [s.recoveryNote r s.wc.nextNote a y] with lc := (State.recover r s a).lc }
      ∧ s.flagged (State.recover r s a) (s.recoveryNote r s.wc.nextNote a y).events := by
  have hrec : State.recover r s a = (s.addNote a (s.recoveryNote r s.wc.nextNote a y)).setRunning a none := by
    rw [State.recover, h]
    rfl
  have htaken : ∀ b, s.taken [a] b = decide (b = a) := by
    intro b
    by_cases hb : b = a
    · subst hb
      simp [State.taken, h]
    · simp [State.taken, hb]
  have htotals : s.wc.totals.set a (s.totalsOf a) = s.takenTotals [a] := by
    refine PerArm.ext_get fun b => ?_
    by_cases hb : b = a <;> simp [State.takenTotals, htaken, hb, PerArm.get_set]
  have hme : s.me.set a { s.me.get a with unauthorized := 0 } = s.takenMe [a] := by
    refine PerArm.ext_get fun b => ?_
    by_cases hb : b = a <;> simp [State.takenMe, htaken, hb, PerArm.get_set]
  have hreserved : s.ns.reserved.set a false = s.takenReserved [a] := by
    refine PerArm.ext_get fun b => ?_
    by_cases hb : b = a <;> simp [State.takenReserved, htaken, hb, PerArm.get_set]
  have hrunning : s.running.set a none = s.takenRunning [a] := by
    refine PerArm.ext_get fun b => ?_
    by_cases hb : b = a <;> simp [State.takenRunning, hb, PerArm.get_set]
  have hadd := State.addNote_of_restoring (a := a) (n := s.recoveryNote r s.wc.nextNote a y) hcond rfl
  have hflags : s.flagged (State.recover r s a) (s.recoveryNote r s.wc.nextNote a y).events := by
    refine State.flagged_congr (s.flagged_noted (s.recoveryNote r s.wc.nextNote a y)) ?_
    rw [hrec, hadd]
    rfl
  refine ⟨?_, hflags⟩
  rw [hrec, hadd, htotals, hme, hreserved]
  generalize s.noted a (s.recoveryNote r s.wc.nextNote a y) = v
  simp only [State.setRunning, hrunning, State.withNotes, State.noteEntries, List.flatMap_cons, List.flatMap_nil, List.append_nil]
  rfl

/-- What a recovery note says depends on the products and recipes, the checkpoint area, the clock and the totalizers. -/
theorem State.recoveryNote_congr (r : Restoration) (hproducts : u.wc.products = s.wc.products)
    (hrecipes : u.wc.recipes = s.wc.recipes) (harea : u.nvc.area = s.nvc.area) (hclock : u.lc.clock = s.lc.clock)
    (htotals : u.totalsOf = s.totalsOf) : u.recoveryNote r = s.recoveryNote r := by
  funext k a y
  have haverage : y.average u.wc = y.average s.wc := by
    simp only [Running.average, NvRecords.fallbackOf, hproducts]
  have hdeviates : y.deviates u.wc = y.deviates s.wc := by
    simp only [Running.deviates, NvRecords.toleranceOf, hrecipes]
  have hreason : u.recoveryReason = s.recoveryReason := by
    rw [State.recoveryReason, State.recoveryReason, NvController.marker, NvController.marker, harea]
  have htime : u.timestamp = s.timestamp := by simp only [State.timestamp, hclock]
  have hgross := congrArg Totals.gross (congrFun htotals a)
  have hnet := congrArg Totals.net (congrFun htotals a)
  simp only [State.totalsOf] at hgross hnet
  have hclose : u.recoveryTotals r a = s.recoveryTotals r a := by
    simp only [State.recoveryTotals, harea, hgross, hnet]
  simp only [State.recoveryNote, Running.toNote, haverage, hdeviates, hreason, htime, hclose]

theorem State.found_cons_of_none {a : Arm} (h : s.running.get a = none) (arms : List Arm) :
    s.found (a :: arms) = s.found arms := by
  rw [State.found, List.filterMap_cons_none (by rw [h]; rfl), State.found]

theorem State.found_cons_of_some {a : Arm} {y : Running} (h : s.running.get a = some y) (arms : List Arm) :
    s.found (a :: arms) = (a, y) :: s.found arms := by
  rw [State.found, List.filterMap_cons_some (b := (a, y)) (by rw [h]; rfl), State.found]

theorem State.found_congr {arms : List Arm} (h : ∀ b ∈ arms, u.running.get b = s.running.get b) : u.found arms = s.found arms :=
  List.filterMap_congr fun b hb => by rw [h b hb]

/-- The arms taken after a first one, whatever flags were raised with its note. -/
theorem State.withNotes_of_parts {a : Arm} {arms : List Arm} (h : a ∉ arms) {n : NoteRecord} (notes : List NoteRecord)
    (hu : u = { s.withNotes [a] [n] with lc := u.lc }) (lc : LinkController) :
    { u.withNotes arms notes with lc := lc } = { s.withNotes (a :: arms) (n :: notes) with lc := lc } := by
  rw [← State.withNotes_withNotes h, hu]
  rfl

/-- Taken in turn, the running records of several arms become their recovery notes under rising numbers. -/
theorem State.foldl_recover (r : Restoration) (arms : List Arm) (hnd : arms.Nodup) (s : State) (hcond : s.condition = .restoring) :
    arms.foldl (State.recover r) s =
        { s.withNotes arms (notesFrom (s.recoveryNote r) s.wc.nextNote (s.found arms)) with
          lc := (arms.foldl (State.recover r) s).lc }
      ∧ s.flagged (arms.foldl (State.recover r) s)
        ((notesFrom (s.recoveryNote r) s.wc.nextNote (s.found arms)).flatMap NoteRecord.events) := by
  induction arms generalizing s with
  | nil =>
    have hnil := s.withNotes_nil
    exact ⟨by rw [State.found, List.filterMap_nil, notesFrom, hnil]; rfl, State.flagged_refl s⟩
  | cons a arms ih =>
    rw [List.nodup_cons] at hnd
    rw [List.foldl_cons]
    cases h : s.running.get a with
    | none =>
      rw [State.recover_of_none h, State.found_cons_of_none h, State.withNotes_cons_of_none h]
      exact ih hnd.2 s hcond
    | some y =>
      obtain ⟨hparts, hflags⟩ := State.recover_of_some hcond h r
      rw [State.found_cons_of_some h, notesFrom, List.flatMap_cons]
      generalize s.recoveryNote r s.wc.nextNote a y = n at hparts hflags ⊢
      generalize State.recover r s a = v at hparts hflags ⊢
      obtain ⟨ihparts, ihflags⟩ := ih hnd.2 v (by rw [hparts]; exact hcond)
      have htotals : v.totalsOf = s.totalsOf := by
        rw [hparts]
        exact s.totalsOf_withNotes [a] [n]
      have hnote : v.recoveryNote r = s.recoveryNote r :=
        State.recoveryNote_congr r (by rw [hparts]; rfl) (by rw [hparts]; rfl) (by rw [hparts]; rfl) hflags.1 htotals
      have hfound : v.found arms = s.found arms := by
        refine State.found_congr fun b hb => ?_
        have hne : b ≠ a := by rintro rfl; exact hnd.1 hb
        rw [hparts]
        exact (s.running_withNotes [a] [n] b).trans (if_neg (by simpa using hne))
      have hnext : v.wc.nextNote = noteNumberAfter s.wc.nextNote := by
        rw [hparts]
        rfl
      rw [hnote, hfound, hnext] at ihparts ihflags
      exact ⟨ihparts.trans (State.withNotes_of_parts hnd.1 _ hparts _), State.flagged_trans hflags ihflags⟩

end Sys2Proof.Machine
end

section
/-! What a reset latches, finds and restores (R1, R7, R12, R14, R148, R157, R161 to R163, R168, R173), and the obligation on power
and resets. -/

namespace Sys2Proof.Machine

/-! ### The latched straps -/

theorem roleOf_eq_panel_iff (n : Nat) (b : Bay) : roleOf n = .panel b ↔ n = 2 + b.toNat := by
  match n with
  | 0 | 1 | 2 | 3 | 4 | _ + 5 => cases b <;> simp [roleOf, Bay.toNat]

/-- A link loses its role where a lower-numbered link straps the same bay panel. -/
theorem losesRole_eq (straps : PerLink Nat) (l : Link) :
    losesRole straps l =
      ((straps.get l = 2 || straps.get l = 3)
        && [Link.sl0, .sl1, .sl2, .sl3].any fun k => decide (k.toNat < l.toNat) && straps.get k = straps.get l) := by
  rw [losesRole]
  cases hrole : roleOf (straps.get l) with
  | panel b =>
    have hb : straps.get l = 2 + b.toNat := (roleOf_eq_panel_iff _ b).mp hrole
    have hpanel : (decide (straps.get l = 2) || decide (straps.get l = 3)) = true := by
      rw [hb]
      cases b <;> rfl
    rw [hpanel, Bool.true_and]
    simp only [roleOf_eq_panel_iff, Link.all, hb]
  | unused | office | service =>
    have hA := (roleOf_eq_panel_iff (straps.get l) .bayA).mpr
    have hB := (roleOf_eq_panel_iff (straps.get l) .bayB).mpr
    have hno : (decide (straps.get l = 2) || decide (straps.get l = 3)) = false := by
      simp only [Bool.or_eq_false_iff, decide_eq_false_iff_not]
      exact ⟨fun h2 => by simp [hA h2] at hrole, fun h3 => by simp [hB h3] at hrole⟩
    rw [hno, Bool.false_and]

theorem LinkController.baudRate_eq (c : LinkController) :
    c.baudRate =
      match c.baudStrap with
      | 1 => 19200
      | 2 => 38400
      | 3 => 57600
      | 4 => 115200
      | _ => 9600 := by
  unfold LinkController.baudRate
  match c.baudStrap with
  | 0 | 1 | 2 | 3 | 4 | _ + 5 => rfl

/-! ### What a reset finds -/

/-- The restoration a reset makes: blank, with retained memory, or without it (R161, R173). -/
def Restoration.of (blank valid : Bool) : Restoration := if blank then .blank else if valid then .retained else .lost

/-- Both resets leave the reset, with retained memory valid as the reset finds it. -/
theorem exec_reset {lines : ResetLines} {s : State} {o : Host.Outcome State Fault Refusal} {valid : Bool}
    (h : (s.condition ≠ .unpowered ∧ o = exec (.externalReset lines) s ∧ valid = true)
      ∨ (o = exec (.powerOnReset lines) s ∧ valid = s.nvc.retainedValid)) :
    o = .next (s.leaveReset lines valid) := by
  rcases h with ⟨hpower, rfl, rfl⟩ | ⟨rfl, rfl⟩
  · exact congrArg Host.Outcome.next (if_neg hpower)
  · rfl

theorem noteNumberAfter_eq : noteNumberAfter = fun n => if n < 999999 then n + 1 else 1 := by
  funext n
  rw [noteNumberAfter, Config.maxNoteNumber]
  split <;> split <;> omega

theorem Arm.mem_all (a : Arm) : a ∈ Arm.all := by cases a <;> decide

/-- With the notes of all arms, no running record stays, and an arm is taken exactly where it has one. -/
theorem State.taken_all (s : State) (a : Arm) : s.taken Arm.all a = (s.running.get a).isSome := by
  simp [State.taken, Arm.mem_all]

/-- The closing totalizers of an arm with a checkpoint, without retained memory. -/
theorem State.recoveryTotals_lost_of_some {s : State} {a : Arm} {c : Checkpoint} (h : s.nvc.area.get a = some c) :
    s.recoveryTotals .lost a = { gross := c.gross, net := c.net } := by
  simp only [State.recoveryTotals, h]

/-- The closing totalizers of an arm without a checkpoint. -/
theorem State.recoveryTotals_lost_of_none {s : State} {a : Arm} (h : s.nvc.area.get a = none) :
    s.recoveryTotals .lost a = s.totalsOf a := by
  simp only [State.recoveryTotals, h]
  rfl

/-- Settles O53: the events by their conditions, and a reset as what it restores with the recovery notes of the records found. -/
theorem powerAndResets : Obligations.PowerAndResets := by
  refine ⟨powerEvents, fun lines s o valid h => ?_⟩
  intro blank straps allLinks allArms loses role copies found zero meter clock nvc base after marker note notes totals entries
  have ho := exec_reset h
  have hkind : s.restorationKind lines.blankStrap valid = .of blank valid := rfl
  clear_value blank
  have hcopies : s.copiesAfter (.of blank valid) = copies := by cases blank <;> cases valid <;> rfl
  have hclock : s.clockAfter (.of blank valid) = clock := by cases blank <;> cases valid <;> rfl
  have hmeter : s.channelAfter (.of blank valid) = meter := by cases blank <;> cases valid <;> rfl
  have hfound : s.runningAfter (.of blank valid) = found := by cases blank <;> cases valid <;> rfl
  have hnvc : s.nvcAfter lines.blankStrap (.of blank valid) = nvc := by cases blank <;> cases valid <;> rfl
  have hreserved : s.reservedAfter (.of blank valid) =
      fun a => !blank && (if valid then s.ns.reserved.get a else (s.nvc.area.get a).isSome) := by
    cases blank <;> cases valid <;> rfl
  have hresidue : s.residueAfter (.of blank valid) =
      fun c => if !blank && valid then (s.adu.channels.get c).residue else 0 := by
    cases blank <;> cases valid <;> rfl
  have hloses : losesRole lines.roleStraps = loses := by
    funext l
    exact losesRole_eq lines.roleStraps l
  have hrole : latchedRole lines.roleStraps = role := by
    funext l
    rw [latchedRole, hloses]
    rfl
  have hlink : latchedLink lines.roleStraps = base.lc.links.get := by
    funext l
    rw [latchedLink, showsConflict, roleConflict, hrole, hloses]
    cases l <;> rfl
  have hbase : s.restored lines (.of blank valid) = { base with running := .tabulate found } := by
    simp only [State.restored, hcopies, hclock, hmeter, hfound, hnvc, hreserved, hresidue, hlink]
    rfl
  rw [State.leaveReset, hkind] at ho
  generalize s.restored lines (.of blank valid) = u at hbase ho
  have hwc : u.wc = copies := by rw [hbase]
  have hnv : u.nvc = nvc := by rw [hbase]
  have hlc : u.lc = base.lc := by rw [hbase]
  have hme : ∀ a, u.me.get a = meter a := by
    rw [hbase]
    exact PerArm.get_tabulate meter
  have hrunning : ∀ a, u.running.get a = found a := by
    rw [hbase]
    exact PerArm.get_tabulate found
  have hmeters : u.totalsOf = totals := by
    funext a
    rw [State.totalsOf, hme]
  have hlist : u.found Arm.all = allArms.filterMap fun a => (found a).map fun y => (a, y) := by
    rw [State.found]
    simp only [hrunning]
    rfl
  have hnote : blank = false → u.recoveryNote (.of blank valid) = note := by
    intro hb
    funext k a y
    have hclose : u.recoveryTotals (.of blank valid) a =
        { gross := (note k a y).closeGross, net := (note k a y).closeNet } := by
      subst hb
      cases valid with
      | true => exact congrFun hmeters a
      | false =>
        have hlost : Restoration.of false false = .lost := rfl
        have hcheckpoint : u.nvc.area.get a = s.nvc.area.get a := by rw [hnv]; rfl
        cases harea : s.nvc.area.get a with
        | none =>
          rw [hlost, State.recoveryTotals_lost_of_none (hcheckpoint.trans harea), hmeters]
          simp [note, totals, harea]
        | some c =>
          rw [hlost, State.recoveryTotals_lost_of_some (hcheckpoint.trans harea)]
          simp [note, harea]
    have haverage : y.average copies = (note k a y).temperature := by
      rw [Running.average, NvRecords.fallbackOf]
      cases hproduct : copies.products.find y.note.product <;> simp [note, hproduct, Config.referenceTemperature]
    rw [State.recoveryNote, Running.toNote, hwc, hclose, haverage, State.timestamp, hlc, State.recoveryReason, hnv]
    rfl
  have hnotes : notesFrom (u.recoveryNote (.of blank valid)) u.wc.nextNote (u.found Arm.all) = notes := by
    rw [notesFrom_eq_mapIdx, noteNumberAfter_eq, hwc, hlist]
    cases hb : blank with
    | true =>
      subst hb
      rfl
    | false =>
      rw [← hb, hnote hb]
  obtain ⟨hparts, hflags⟩ := State.foldl_recover (.of blank valid) Arm.all (by decide) u (by rw [hbase])
  rw [hnotes] at hparts hflags
  generalize Arm.all.foldl (State.recover (.of blank valid)) u = t at ho hparts hflags
  refine ⟨⟨t, ho, ?_, ?_⟩, ?_⟩
  · rw [hbase] at hflags
    exact hflags
  · have htaken : u.taken Arm.all = fun a => (found a).isSome := funext fun a => by rw [State.taken_all, hrunning]
    have htotals : u.takenTotals Arm.all = .tabulate fun a => if (found a).isSome then totals a else copies.totals.get a := by
      rw [State.takenTotals, htaken, hmeters, hwc]
    have hchannels : u.takenMe Arm.all =
        .tabulate fun a => if (found a).isSome then { meter a with unauthorized := 0 } else meter a := by
      simp only [State.takenMe, htaken, hme]
    have hreserve : u.takenReserved Arm.all = .tabulate fun a => base.ns.reserved.get a && !(found a).isSome := by
      rw [State.takenReserved, htaken, hbase]
    have hempty : u.takenRunning Arm.all = .const none := by simp [State.takenRunning, Arm.mem_all, PerArm.const]
    have hentries : u.noteEntries notes = entries := by
      rw [State.noteEntries, hmeters, hwc]
      simp only [NoteRecord.entries, noteNumberAfter_eq]
      rfl
    rw [State.withNotes, htotals, hchannels, hreserve, hempty, hentries, noteNumberAfter_eq, hbase] at hparts
    exact hparts
  · intro v hv
    obtain rfl : t = v := by simpa [ho] using hv
    have hbaud : t.lc.baudStrap = lines.baudStrap := hflags.2.1.trans (by rw [hlc])
    have hrate := t.lc.baudRate_eq
    rw [hbaud] at hrate
    exact hrate

end Sys2Proof.Machine
end

section
/-! The state after reset meets the laws; meter edges. -/

namespace Sys2Proof.Machine

/-! ### The state after reset -/

@[simp] theorem State.reset_fc (a : Arm) : State.reset.fc.get a = FlowController.fresh .blank := PerArm.get_const _ a
@[simp] theorem State.reset_bsc (b : Bay) : State.reset.bsc.get b = BayController.fresh false := PerBay.get_const _ b
@[simp] theorem State.reset_running (a : Arm) : State.reset.running.get a = none := PerArm.get_const _ a
@[simp] theorem State.reset_reserved (a : Arm) : State.reset.ns.reserved.get a = false := PerArm.get_const _ a

@[simp] theorem State.reset_armIdle (a : Arm) : State.reset.armIdle a = true := by
  rw [State.armIdle, State.reset_fc]
  rfl

@[simp] theorem State.reset_armFlowing (a : Arm) : State.reset.armFlowing a = false := by
  rw [State.armFlowing, State.reset_fc]
  rfl

theorem State.reset_bayFlowing (b : Bay) : State.reset.bayFlowing b = false := by
  simp [State.bayFlowing]

theorem State.flowLaw_reset : State.reset.flowLaw := by
  intro a
  simp [FlowController.fresh]

theorem State.deadmanLaw_reset : State.reset.deadmanLaw := by
  intro b
  simp [State.reset_bayFlowing, BayController.fresh, FlowController.fresh]

theorem State.sessionLaw_reset : State.reset.sessionLaw := by
  refine ⟨fun a h => ?_, fun b _ _ => ?_, fun n o b h => ?_⟩
  · simp at h
  · rw [State.reset_bsc]
    rfl
  · cases h

theorem State.totalsLaw_reset : State.reset.totalsLaw := by
  intro a
  simp

theorem NvRecords.tablesLaw_blank : NvRecords.blank.tablesLaw := ⟨rfl, rfl, rfl⟩

theorem State.tablesLaw_reset : State.reset.tablesLaw :=
  ⟨NvRecords.tablesLaw_blank, NvRecords.tablesLaw_blank, rfl, rfl⟩

/-- No driver is bound on either side. -/
theorem State.bindingLaw_reset : State.reset.bindingLaw := by
  have hbay : ∀ b, (State.reset.bsc.get b).driver = none := fun b => by rw [State.reset_bsc]; rfl
  have hdriver : ∀ d, State.reset.boundBay d = none := fun _ => rfl
  exact ⟨fun d b => by rw [hdriver, hbay]; simp, fun b _ => hbay b⟩

theorem NvController.queueLaw_of_nil {n : NvController} (h : n.queue = []) : n.queueLaw := by
  simp [NvController.queueLaw, h]

theorem State.notesLaw_reset : State.reset.notesLaw := by
  refine ⟨?_, fun a h => by simp at h⟩
  simp [State.reservations, State.notesHeld, State.reset, NvRecords.blank]

theorem State.attemptLaw_reset : State.reset.attemptLaw := ⟨by decide, by simp [State.reset, NvRecords.blank]⟩

theorem State.copiesLaw_reset : State.reset.copiesLaw := ⟨rfl, List.nodup_nil⟩

/-- Settles O60: each law holds of the blank records, the IDLE arms and the empty queue. -/
theorem resetMeetsTheLaws : Obligations.ResetMeetsTheLaws :=
  ⟨State.flowLaw_reset, State.deadmanLaw_reset, State.sessionLaw_reset, State.totalsLaw_reset, State.tablesLaw_reset,
    State.bindingLaw_reset, NvController.queueLaw_of_nil rfl, by decide, State.notesLaw_reset, State.attemptLaw_reset,
    State.copiesLaw_reset⟩

/-! ### Product meter edges (R26 to R28) -/

variable {s : State}

theorem exec_productMeterEdge (halive : s.alive = true) (a : Arm) (line : MeterLine) (other : LineLevel) :
    exec (.productMeterEdge a line other) s = .next (s.meterEdge a line other) :=
  congrArg Host.Outcome.next (if_pos halive)

theorem State.meterEdge_of_not_running (h : s.condition ≠ .running) (a : Arm) (line : MeterLine) (other : LineLevel) :
    s.meterEdge a line other = s.setMeter a ((s.ic.meters.get a).edgeLevels line other) := by
  simp [State.meterEdge, State.isRunning, h]

theorem State.meterEdge_of_running (h : s.condition = .running) (a : Arm) (line : MeterLine) (other : LineLevel) :
    s.meterEdge a line other =
      s.setMeter a
        { (s.ic.meters.get a).edgeLevels line other with
          counts := (s.ic.meters.get a).counts.edge (s.wc.arms.get a).mode line other } := by
  have hcounts : ((s.ic.meters.get a).edgeLevels line other).counts = (s.ic.meters.get a).counts := by
    cases line <;> rfl
  simp [State.meterEdge, State.isRunning, h, hcounts]

/-- Settles O42: the counts of an edge by pulse mode, line and the other line's level; no count before restoration is complete. -/
theorem meterEdgesAreCounted : Obligations.MeterEdgesAreCounted := by
  intro a line other s hcond m up levels takes
  have halive := State.alive_iff.mpr hcond
  have hlevels : m.edgeLevels line other = levels := by cases line <;> rfl
  have hcount : s.condition = .running → takes { levels with counts := m.counts.edge (s.wc.arms.get a).mode line other } := by
    intro hrun
    show exec (.productMeterEdge a line other) s = _
    rw [exec_productMeterEdge halive, State.meterEdge_of_running hrun, ← hlevels]
    rfl
  refine ⟨fun hrestoring => ?_, fun hrun => ⟨fun hmode => ?_, fun hmode => ?_⟩⟩
  · show exec (.productMeterEdge a line other) s = _
    rw [exec_productMeterEdge halive, State.meterEdge_of_not_running (by simp [hrestoring]), ← hlevels]
    rfl
  · have h := hcount hrun
    rw [hmode] at h
    refine ⟨?_, ?_, ?_, ?_⟩
    all_goals
      rintro rfl rfl
      exact h
  · have h := hcount hrun
    rw [hmode] at h
    constructor
    all_goals
      rintro rfl
      exact h

end Sys2Proof.Machine
end

section
/-! The settings of injectors, pumps and the rack (R21, R39, R93, R128, R133, R134, R165). -/

namespace Sys2Proof.Machine

variable {α : Type} {s : State} {l : Link} {r : Request} {code : Byte} {cls : RequestClass} {form : Walk α} {x : α}
  {owner : α → State → Answer}

@[simp] theorem within_iff {lo hi n : Nat} : within lo hi n = true ↔ lo ≤ n ∧ n ≤ hi := by
  rw [within, Bool.and_eq_true, decide_eq_true_iff, decide_eq_true_iff]

theorem State.not_nvBusy_of_lt (h : s.nvc.queue.length < 8) : s.nvBusy = false := by
  rw [Bool.eq_false_iff, ne_eq, State.nvBusy_iff]
  omega

/-- A setting request whose other checks have passed: OK without any change where the record holds the value, BUSY where the queue
is full, and otherwise the record written with its entry. -/
theorem State.answers_of_writeSetting {held : Prop} [Decidable held] {c : NvContents} (h : s.asks l r code form x)
    (hrole : cls.mayIssue (s.lc.links.get l).role = true) (ha : owner x s = s.writeSetting (decide held) c) :
    (held → s.replies (.next (s.serveRequest l code cls form owner)) l r .ok [] (s.planReset l))
    ∧ (¬held →
      (8 ≤ s.nvc.queue.length → s.replies (.next (s.serveRequest l code cls form owner)) l r .busy [] (s.planReset l))
      ∧ (s.nvc.queue.length < 8 →
        s.answers (.next (s.serveRequest l code cls form owner)) l r .ok [] (s.planReset l) [] (s.commit c .setting))) := by
  rw [State.writeSetting_eq] at ha
  refine ⟨fun hheld => ?_, fun hnew => ⟨fun hbusy => ?_, fun hfree => ?_⟩⟩
  · exact State.replies_of_owner h hrole (by simpa [hheld] using ha)
  · exact State.replies_of_owner h hrole (by simpa [hnew, State.nvBusy_iff.mpr hbusy] using ha)
  · refine State.answers_of_request (ans := { result := .ok, payload := [], state := s.commit c .setting }) h hrole
      (by simpa [hnew, State.not_nvBusy_of_lt hfree] using ha) rfl rfl ?_ rfl
    exact State.linked_congr (State.linked_refl s l) (State.commit_lc ..)

/-! ### WRITE_INJECTOR (R133) -/

@[simp] theorem Channel.ofNat?_toNat (c : Channel) : Channel.ofNat? c.toNat = some c := by cases c <;> rfl

theorem Channel.ofNat?_eq_none {n : Nat} (h : 7 < n) : Channel.ofNat? n = none := by
  match n with
  | 0 | 1 | 2 | 3 | 4 | 5 | 6 | 7 => omega
  | _ + 8 => rfl

/-- The field 0 gives no type, as `Additive.ofNat?` does; only past 6 is it out of range. -/
theorem additiveOf_eq (n : Nat) : additiveOf n = if n ≤ 6 then some (Additive.ofNat? n) else none := by
  match n with
  | 0 | 1 | 2 | 3 | 4 | 5 | 6 => rfl
  | n + 7 => rw [if_neg (by omega)]; rfl

theorem InjectorFields.record_eq (x : InjectorFields) :
    x.record =
      if x.additive ≤ 6 ∧ 10 ≤ x.shotVolume ∧ x.shotVolume ≤ 500 ∧ 1000 ≤ x.kMilli ∧ x.kMilli ≤ 9999999
          ∧ 200 ≤ x.timeLimit ∧ x.timeLimit ≤ 5000 then
        some
          { additive := Additive.ofNat? x.additive, shotVolume := x.shotVolume, kMilli := x.kMilli, timeLimit := x.timeLimit }
      else none := by
  by_cases hadd : x.additive ≤ 6
  · simp [InjectorFields.record, additiveOf_eq, hadd, and_assoc]
  · simp [InjectorFields.record, additiveOf_eq, hadd]

theorem writeInjectorOwner_of_not_ranged {x : InjectorFields} (h : ¬x.channel ≤ 7 ∨ x.record = none) :
    writeInjectorOwner x s = s.refuse .range := by
  unfold writeInjectorOwner
  rcases h with h | h
  · rw [Channel.ofNat?_eq_none (by omega)]
  · rw [h]
    split
    · contradiction
    · rfl

theorem writeInjectorOwner_of_record {x : InjectorFields} {c : Channel} {new : InjectorRecord} (hc : x.channel = c.toNat)
    (hx : x.record = some new) :
    writeInjectorOwner x s =
      if (s.fc.get c.arm).state = .idle then s.writeSetting (decide (s.wc.injectors.get c = new)) (.injector c new)
      else s.refuse .state := by
  simp only [writeInjectorOwner, hc, Channel.ofNat?_toNat, hx, State.armIdle]
  by_cases hidle : (s.fc.get c.arm).state = .idle <;> simp [hidle]

/-! ### WRITE_PUMP (R134) -/

theorem writePumpOwner_of_not_ranged {n rest : Nat} (h : ¬(1 ≤ n ∧ n ≤ 6 ∧ 100 ≤ rest ∧ rest ≤ 2000)) :
    writePumpOwner (n, rest) s = s.refuse .range := by
  unfold writePumpOwner
  by_cases hn : 1 ≤ n ∧ n ≤ 6
  · have hrest : ¬within 100 2000 rest = true := by
      rw [within_iff]
      tauto
    split
    · simp [hrest]
    · rfl
  · rw [Additive.ofNat?_eq_none hn]

theorem writePumpOwner_of_ranged {p : Additive} {rest : Nat} (h : 100 ≤ rest ∧ rest ≤ 2000) :
    writePumpOwner (p.toNat, rest) s = s.writeSetting (decide (s.wc.pumpRest.get p = rest)) (.pump p rest) := by
  simp [writePumpOwner, within_iff.mpr h]

/-! ### WRITE_RACK (R21, R39, R93, R128) -/

theorem Walk.bind_eq_some {β : Type} {f : Walk α} {g : α → Walk β} {bs rest : List Byte} {y : β}
    (h : (f >>= g) bs = some (y, rest)) : ∃ x mid, f bs = some (x, mid) ∧ g x mid = some (y, rest) := by
  obtain ⟨⟨x, mid⟩, hf, hg⟩ := Option.bind_eq_some_iff.mp h
  exact ⟨x, mid, hf, hg⟩

theorem Walk.pure_eq_some {bs rest : List Byte} {x y : α} (h : (pure x : Walk α) bs = some (y, rest)) : y = x := by
  cases h
  rfl

theorem Walk.length_takeMany {f : Walk α} {n : Nat} :
    ∀ {bs rest : List Byte} {xs : List α}, takeMany f n bs = some (xs, rest) → xs.length = n := by
  induction n with
  | zero =>
    intro bs rest xs h
    rw [Walk.pure_eq_some h]
    rfl
  | succ n ih =>
    intro bs rest xs h
    obtain ⟨x, _, -, h⟩ := Walk.bind_eq_some h
    obtain ⟨ys, _, hys, h⟩ := Walk.bind_eq_some h
    rw [Walk.pure_eq_some h, List.length_cons, ih hys]

theorem Walk.of_walkPayload {payload : List Byte} (h : walkPayload form payload = some x) : form payload = some (x, []) := by
  unfold walkPayload at h
  split at h
  · rename_i hform
    cases h
    exact hform
  · cases h

theorem RackFields.length_debounce {x : RackFields} {payload : List Byte} (h : walkPayload formWriteRack payload = some x) :
    x.debounce.length = 14 := by
  obtain ⟨debounce, _, hmany, h⟩ := Walk.bind_eq_some (Walk.of_walkPayload h)
  obtain ⟨_, _, -, h⟩ := Walk.bind_eq_some h
  obtain ⟨_, _, -, h⟩ := Walk.bind_eq_some h
  obtain ⟨_, _, -, h⟩ := Walk.bind_eq_some h
  rw [Walk.pure_eq_some h]
  exact Walk.length_takeMany hmany

theorem all_debounceOk_iff {ds : List Nat} : ds.all debounceOk = true ↔ ∀ d ∈ ds, d ∈ [8, 64, 250, 1000] := by
  simp [debounceOk, or_assoc]

/-- Fourteen choices are taken input by input, in the order of the request. -/
theorem debounceOf_of_choices {ds : List Nat} (hlen : ds.length = 14) (h : ds.all debounceOk = true) :
    ∃ t, debounceOf ds = some t ∧ DiscreteInput.all.map t.get = ds := by
  match ds, hlen with
  | [_, _, _, _, _, _, _, _, _, _, _, _, _, _], _ => exact ⟨_, if_pos h, rfl⟩

theorem debounceOf_eq_none {ds : List Nat} (h : ¬ds.all debounceOk = true) : debounceOf ds = none := by
  unfold debounceOf
  split
  · exact if_neg h
  · rfl

/-- The configuration of a WRITE_RACK with its debounce choices taken: the three settings as the nearer limits. -/
def RackFields.configWith (x : RackFields) (debounce : PerInput Nat) : RackConfig :=
  { debounce := debounce, attemptLimit := max 1 (min 9 x.attemptLimit), deadmanInterval := max 30 (min 600 x.deadmanInterval)
    pauseTimeout := max 60 (min 3600 x.pauseTimeout) }

theorem RackFields.config_of_debounce {x : RackFields} {t : PerInput Nat} (h : debounceOf x.debounce = some t) :
    x.config = some (x.configWith t) := by
  rw [RackFields.config, h]
  rfl

theorem RackFields.config_of_none {x : RackFields} (h : debounceOf x.debounce = none) : x.config = none := by
  rw [RackFields.config, h]

theorem DriverRecord.inStep_iff {d : DriverRecord} {limit : Nat} :
    d.inStep limit = true ↔ (d.status = .active → d.failed < limit) ∧ (d.status = .blocked → d.failed ≤ limit) := by
  unfold DriverRecord.inStep
  split <;> simp_all

theorem writeRackOwner_of_config {x : RackFields} {c : RackConfig} (h : x.config = some c) :
    writeRackOwner x s =
      if ∀ e ∈ s.wc.drivers,
          (e.2.status = .active → e.2.failed < c.attemptLimit) ∧ (e.2.status = .blocked → e.2.failed ≤ c.attemptLimit) then
        s.writeSetting (decide (s.wc.rack = c)) (.rack c)
      else s.refuse .state := by
  have hall : (s.wc.drivers.all fun e => e.2.inStep c.attemptLimit) = true ↔ ∀ e ∈ s.wc.drivers,
      (e.2.status = .active → e.2.failed < c.attemptLimit) ∧ (e.2.status = .blocked → e.2.failed ≤ c.attemptLimit) := by
    simp only [List.all_eq_true, DriverRecord.inStep_iff]
  simp only [writeRackOwner, h, ← hall]
  cases s.wc.drivers.all fun e => e.2.inStep c.attemptLimit <;> rfl

/-- Settles O35: the ranges, then the arm or the driver records, then the setting write with its BUSY. -/
theorem injectorsPumpsAndRackAreWritten : Obligations.InjectorsPumpsAndRackAreWritten := by
  refine fun l r s => ⟨fun x h => ?_, fun n rest h => ?_, fun x h => ?_⟩
  · have hrole : RequestClass.service.mayIssue (s.lc.links.get l).role = true := by rw [h.2]; rfl
    intro refuses ranged
    refine ⟨fun hno => ?_, fun c hranged hc => ?_⟩
    · refine State.replies_of_owner h.1 hrole (writeInjectorOwner_of_not_ranged ?_)
      rw [InjectorFields.record_eq, ite_eq_right_iff]
      have hor := not_and_or.mp hno
      refine hor.imp_right fun hno hyes => absurd hyes hno
    · have howner := writeInjectorOwner_of_record (s := s) hc ((InjectorFields.record_eq x).trans (if_pos hranged.2))
      refine ⟨fun hbusy => ?_, fun hidle => ?_⟩
      · exact State.replies_of_owner h.1 hrole (howner.trans (if_neg hbusy))
      · exact State.answers_of_writeSetting h.1 hrole (howner.trans (if_pos hidle))
  · have hrole : RequestClass.service.mayIssue (s.lc.links.get l).role = true := by rw [h.2]; rfl
    intro refuses ranged
    refine ⟨fun hno => ?_, fun p hranged hp => ?_⟩
    · exact State.replies_of_owner h.1 hrole (writePumpOwner_of_not_ranged hno)
    · subst hp
      exact State.answers_of_writeSetting h.1 hrole (writePumpOwner_of_ranged hranged.2.2)
  · have hrole : RequestClass.service.mayIssue (s.lc.links.get l).role = true := by rw [h.2]; rfl
    intro refuses choices limit inStep
    refine ⟨fun hno => ?_, fun hchoices => ?_⟩
    · have hnone := debounceOf_eq_none (all_debounceOk_iff.not.mpr hno)
      refine State.replies_of_owner h.1 hrole ?_
      show writeRackOwner x s = _
      rw [writeRackOwner, RackFields.config_of_none hnone]
      rfl
    · obtain ⟨t, ht, hmap⟩ :=
        debounceOf_of_choices (RackFields.length_debounce h.1.2.2.2.2) (all_debounceOk_iff.mpr hchoices)
      have howner := writeRackOwner_of_config (s := s) (RackFields.config_of_debounce ht)
      refine ⟨fun hout => ?_, fun hin => ⟨t, hmap, ?_⟩⟩
      · exact State.replies_of_owner h.1 hrole (howner.trans (if_neg hout))
      · exact State.answers_of_writeSetting h.1 hrole (howner.trans (if_pos hin))

end Sys2Proof.Machine
end

section
/-! WRITE_ARM: its ranges, its checks in turn, and what an accepted write leaves (R30, R110, R130, R165, R169 to R171). -/

namespace Sys2Proof.Machine

variable {s : State} {a : Arm} {old new : ArmRecord}

/-! ### The record of a request (R110, R130) -/

/-- Rates rise strictly from `prev` on, and every point is in range. -/
theorem mfPointsOk_iff (prev : Nat) (ps : List (Nat × Nat)) :
    mfPointsOk prev ps = true ↔
      (prev :: ps.map Prod.fst).Pairwise (· < ·) ∧ ∀ p ∈ ps, p.1 ≤ 9999 ∧ 90000 ≤ p.2 ∧ p.2 ≤ 110000 := by
  induction ps generalizing prev with
  | nil => simp [mfPointsOk]
  | cons p rest ih =>
    simp only [mfPointsOk, Bool.and_eq_true, decide_eq_true_iff, within_iff, Nat.zero_le, true_and, ih, List.map_cons,
      List.pairwise_cons, List.forall_mem_cons]
    constructor
    · rintro ⟨⟨⟨hlt, hrate⟩, hmf⟩, ⟨hmin, hrise⟩, hrest⟩
      exact ⟨⟨⟨hlt, fun q hq => hlt.trans (hmin q hq)⟩, hmin, hrise⟩, ⟨hrate, hmf⟩, hrest⟩
    · rintro ⟨⟨⟨hlt, -⟩, hmin, hrise⟩, ⟨hrate, hmf⟩, hrest⟩
      exact ⟨⟨⟨hlt, hrate⟩, hmf⟩, ⟨hmin, hrise⟩, hrest⟩

/-- The points of a request make a table that R110 allows. -/
def mfRanged (ps : List (Nat × Nat)) : Prop :=
  1 ≤ ps.length ∧ ps.length ≤ 6 ∧ (ps.map Prod.fst).Pairwise (· < ·)
    ∧ ∀ p ∈ ps, p.1 ≤ 9999 ∧ 90000 ≤ p.2 ∧ p.2 ≤ 110000

/-- The table that the points of a request give. -/
def mfTableWith (p : Nat × Nat) (rest : List (Nat × Nat)) : MfTable :=
  { first := { rate := p.1, mf := p.2 }, rest := rest.map fun q => { rate := q.1, mf := q.2 } }

theorem mfRanged_cons_iff {p : Nat × Nat} {rest : List (Nat × Nat)} :
    (within 0 9999 p.1 && within 90000 110000 p.2 && decide (rest.length ≤ 5) && mfPointsOk p.1 rest) = true ↔
      mfRanged (p :: rest) := by
  simp only [Bool.and_eq_true, within_iff, decide_eq_true_iff, mfPointsOk_iff, mfRanged, List.length_cons, List.map_cons,
    List.forall_mem_cons]
  constructor
  · rintro ⟨⟨⟨⟨-, hrate⟩, hmf⟩, hlen⟩, hrise, hrest⟩
    exact ⟨by omega, by omega, hrise, ⟨hrate, hmf⟩, hrest⟩
  · rintro ⟨-, hlen, hrise, ⟨hrate, hmf⟩, hrest⟩
    exact ⟨⟨⟨⟨by omega, hrate⟩, hmf⟩, by omega⟩, hrise, hrest⟩

theorem mfTableOf_of_ranged {p : Nat × Nat} {rest : List (Nat × Nat)} (h : mfRanged (p :: rest)) :
    mfTableOf (p :: rest) = some (mfTableWith p rest) := if_pos (mfRanged_cons_iff.mpr h)

theorem mfTableOf_eq_none {ps : List (Nat × Nat)} (h : ¬mfRanged ps) : mfTableOf ps = none := by
  cases ps with
  | nil => rfl
  | cons p rest => exact if_neg (mfRanged_cons_iff.not.mpr h)

theorem pulseModeOf_eq (n : Nat) : pulseModeOf n = if n ≤ 1 then some (if n = 0 then .single else .dual) else none := by
  match n with
  | 0 | 1 => rfl
  | n + 2 => rw [if_neg (by omega)]; rfl

theorem yesNoOf_eq (n : Nat) : yesNoOf n = if n ≤ 1 then some (decide (n = 0)) else none := by
  match n with
  | 0 | 1 => rfl
  | n + 2 => rw [if_neg (by omega)]; rfl

/-- The ranges of WRITE_ARM but for the arm's number, the points of its table and its two coded fields (R110, R30, R130). -/
def ArmFields.numbersRanged (x : ArmFields) : Prop :=
  x.product ≤ 15 ∧ (∀ k, x.kMilli = some k → 1000 ≤ k ∧ k ≤ 999999) ∧ -10000 ≤ x.offset ∧ x.offset ≤ 10000 ∧ x.span ≤ 30000
    ∧ x.fidelity ≤ 10 ∧ 10 ≤ x.deadband ∧ x.deadband ≤ 200 ∧ 50 ≤ x.startVolume ∧ x.startVolume ≤ 1000
    ∧ 50 ≤ x.topOffVolume ∧ x.topOffVolume ≤ 2000 ∧ x.initialLead ≤ 50000 ∧ x.leadMaximum ≤ 50000
    ∧ x.overrunLimit ≤ 200 ∧ 5 ≤ x.noFlowTime ∧ x.noFlowTime ≤ 60

theorem ArmFields.rangeOk_iff (x : ArmFields) : x.rangeOk = true ↔ x.numbersRanged := by
  simp only [ArmFields.rangeOk, ArmFields.numbersRanged, Bool.and_eq_true, within_iff, decide_eq_true_iff, Nat.zero_le,
    true_and, and_assoc]
  cases x.kMilli <;> simp

/-- The record that a WRITE_ARM in range writes: the three rates as the nearer limits, each against those before it (R130). -/
def ArmFields.recordWith (x : ArmFields) (p : Nat × Nat) (rest : List (Nat × Nat)) : ArmRecord :=
  { product := x.product, kMilli := x.kMilli, mf := mfTableWith p rest, offset := x.offset, span := x.span
    mode := if x.mode = 0 then .single else .dual, fidelity := x.fidelity, maxRate := max 100 (min 4000 x.maxRate)
    lowRate := max 50 (min (max 100 (min 4000 x.maxRate)) x.lowRate)
    highRate :=
      max (max 50 (min (max 100 (min 4000 x.maxRate)) x.lowRate)) (min (max 100 (min 4000 x.maxRate)) x.highRate)
    deadband := x.deadband, startVolume := x.startVolume, topOffVolume := x.topOffVolume, initialLead := x.initialLead
    leadMaximum := x.leadMaximum, overrunLimit := x.overrunLimit, noFlowTime := x.noFlowTime
    atcRequired := decide (x.atcRequired = 0) }

theorem ArmFields.record_of_ranged {x : ArmFields} {p : Nat × Nat} {rest : List (Nat × Nat)} (hmf : x.mf = p :: rest)
    (hnumbers : x.numbersRanged) (htable : mfRanged x.mf) (hmode : x.mode ≤ 1) (hatc : x.atcRequired ≤ 1) :
    x.record = some (x.recordWith p rest) := by
  rw [hmf] at htable
  simp only [ArmFields.record, hmf, mfTableOf_of_ranged htable, pulseModeOf_eq, if_pos hmode, yesNoOf_eq, if_pos hatc,
    if_pos (x.rangeOk_iff.mpr hnumbers)]
  rfl

theorem ArmFields.record_eq_none {x : ArmFields}
    (h : ¬(x.numbersRanged ∧ mfRanged x.mf ∧ x.mode ≤ 1 ∧ x.atcRequired ≤ 1)) : x.record = none := by
  unfold ArmFields.record
  split
  · rename_i hmf hmode hatc
    refine if_neg fun hok => h ⟨x.rangeOk_iff.mp hok, ?_, ?_, ?_⟩
    · by_contra hno
      rw [mfTableOf_eq_none hno] at hmf
      cases hmf
    · by_contra hno
      rw [pulseModeOf_eq, if_neg hno] at hmode
      cases hmode
    · by_contra hno
      rw [yesNoOf_eq, if_neg hno] at hatc
      cases hatc
  · rfl

@[simp] theorem Arm.ofNat?_toNat (a : Arm) : Arm.ofNat? a.toNat = some a := by cases a <;> rfl

theorem writeArmOwner_of_not_ranged {x : ArmFields} (h : ¬x.arm ≤ 3 ∨ x.record = none) :
    writeArmOwner x s = s.refuse .range := by
  unfold writeArmOwner
  rcases h with h | h
  · rw [Arm.ofNat?_eq_none (by omega)]
  · rw [h]
    split
    · contradiction
    · rfl

theorem writeArmOwner_of_refused {x : ArmFields} {res : ResultCode} (ha : x.arm = a.toNat) (hx : x.record = some new)
    (h : s.writeArmChecks a new = some res) : writeArmOwner x s = s.refuse res := by
  simp only [writeArmOwner, ha, Arm.ofNat?_toNat, hx, h]

theorem writeArmOwner_of_held {x : ArmFields} (ha : x.arm = a.toNat) (hx : x.record = some new)
    (h : s.writeArmChecks a new = none) (hnew : new = s.wc.arms.get a) : writeArmOwner x s = s.accept [] := by
  simp only [writeArmOwner, ha, Arm.ofNat?_toNat, hx, h, if_pos hnew]

theorem writeArmOwner_of_accepted {x : ArmFields} (ha : x.arm = a.toNat) (hx : x.record = some new)
    (h : s.writeArmChecks a new = none) (hnew : new ≠ s.wc.arms.get a) :
    writeArmOwner x s = (s.writeArm a new).accept [] := by
  simp only [writeArmOwner, ha, Arm.ofNat?_toNat, hx, h, if_neg hnew]

/-! ### The sealed parameters (R169, R171) -/

theorem listed_ne {α : Type} [DecidableEq α] (x y : α) (c : ParameterChange) :
    listed (decide (x ≠ y)) c = if x = y then [] else [c] := by
  by_cases h : x = y <;> simp [listed, h]

/-- The changes listed, one for each sealed parameter whose value differs. -/
theorem ArmRecord.changes_eq (old new : ArmRecord) :
    old.changes new =
      (if old.kMilli = new.kMilli then [] else [ParameterChange.kMilli old.kMilli new.kMilli])
        ++ (if old.mode = new.mode then [] else [ParameterChange.mode old.mode new.mode])
        ++ (if old.fidelity = new.fidelity then [] else [ParameterChange.fidelity old.fidelity new.fidelity])
        ++ (if old.mf = new.mf then [] else [ParameterChange.mf old.mf.summary new.mf.summary])
        ++ (if old.offset = new.offset then [] else [ParameterChange.offset old.offset new.offset])
        ++ (if old.span = new.span then [] else [ParameterChange.span old.span new.span]) := by
  simp only [ArmRecord.changes, listed_ne]

/-- A write changes a sealed parameter exactly where it lists a change. -/
theorem ArmRecord.changes_eq_nil_iff : old.changes new = [] ↔ old.sealedPart = new.sealedPart := by
  simp only [ArmRecord.changes_eq, List.append_eq_nil_iff, ite_eq_left_iff, List.cons_ne_nil, imp_false, not_not,
    ArmRecord.sealedPart, SealedPart.mk.injEq, and_assoc]

theorem ArmRecord.ne_of_sealedPart_ne (h : old.sealedPart ≠ new.sealedPart) : new ≠ old := by
  rintro rfl
  exact h rfl

/-! ### The checks in turn (R130, R165, R169) -/

/-- The checks of a sealed write: the seal, the counter, the arm, then BUSY. -/
theorem State.writeArmChecks_of_sealed (h : (s.wc.arms.get a).sealedPart ≠ new.sealedPart) :
    s.writeArmChecks a new =
      if s.accepts .sealSwitch = false then some .sealedParameter
      else if 4294967295 ≤ s.wc.audit.counter then some .sealedParameter
      else if (s.fc.get a).state ≠ .idle then some .state
      else if 8 ≤ s.nvc.queue.length then some .busy else none := by
  have hlisted : ((s.wc.arms.get a).changes new).isEmpty = false := by
    rw [List.isEmpty_eq_false_iff]
    exact ArmRecord.changes_eq_nil_iff.not.mpr h
  have hnew := ArmRecord.ne_of_sealedPart_ne h
  have hbusy : s.nvBusy = decide (8 ≤ s.nvc.queue.length) := rfl
  unfold State.writeArmChecks
  simp only [hlisted, State.sealedChecks, State.sealOpen, State.armIdle, Config.maxCounter, hbusy]
  by_cases hseal : s.accepts .sealSwitch = false
  · simp [hseal]
  · by_cases hcounter : 4294967295 ≤ s.wc.audit.counter
    · simp [hseal, hcounter]
    · by_cases hidle : (s.fc.get a).state = .idle <;> simp [hseal, hcounter, hidle, hnew]

/-- The checks of a write that changes no sealed parameter: a new product wants an IDLE arm, and a change a free queue. -/
theorem State.writeArmChecks_of_unsealed (h : (s.wc.arms.get a).sealedPart = new.sealedPart) :
    s.writeArmChecks a new =
      if new.product ≠ (s.wc.arms.get a).product ∧ (s.fc.get a).state ≠ .idle then some .state
      else if new ≠ s.wc.arms.get a ∧ 8 ≤ s.nvc.queue.length then some .busy else none := by
  have hbusy : s.nvBusy = decide (8 ≤ s.nvc.queue.length) := rfl
  simp [State.writeArmChecks, ArmRecord.changes_eq_nil_iff.mpr h, State.armIdle, hbusy]

/-! ### The write (R130, R170, R171) -/

theorem leadAfter_eq (old new : ArmRecord) (lead : Nat) :
    leadAfter old new lead = min (if new.initialLead = old.initialLead then lead else new.initialLead) new.leadMaximum := by
  by_cases h : new.initialLead = old.initialLead <;> simp [leadAfter, h]

/-- The Flow Controllers with the learned lead of arm `a` as an accepted write of `new` leaves it. -/
def State.leadWritten (s : State) (a : Arm) (new : ArmRecord) : PerArm FlowController :=
  s.fc.set a
    { s.fc.get a with
      lead := min (if new.initialLead = (s.wc.arms.get a).initialLead then (s.fc.get a).lead else new.initialLead)
        new.leadMaximum }

theorem State.modifyFc_lead {u : State} (hu : u.fc = s.fc) (a : Arm) (new : ArmRecord) :
    u.modifyFc a (fun x => { x with lead := leadAfter (s.wc.arms.get a) new x.lead }) =
      { u with fc := s.leadWritten a new } := by
  simp only [State.modifyFc, PerArm.modify, hu, leadAfter_eq]
  rfl

theorem State.writeArm_of_unsealed (h : (s.wc.arms.get a).sealedPart = new.sealedPart) :
    s.writeArm a new = { s.commit (.arm a new) .setting with fc := s.leadWritten a new } := by
  simp only [State.writeArm, ArmRecord.changes_eq_nil_iff.mpr h]
  exact State.modifyFc_lead (State.commit_fc ..) a new

/-- The audit record after a sealed write of arm `a`: the counter raised, the changes listed at the newest end, the oldest entry
gone where 32 are held. -/
def State.auditOfArm (s : State) (a : Arm) (new : ArmRecord) : AuditRecord :=
  { counter := s.wc.audit.counter + 1
    entries :=
      (if 32 ≤ s.wc.audit.entries.length then s.wc.audit.entries.tail else s.wc.audit.entries)
        ++ [{ counter := s.wc.audit.counter + 1, time := s.timestamp, subject := .arm a
              changes := (s.wc.arms.get a).changes new }] }

theorem State.logSealed_commit_arm (s : State) (a : Arm) (new : ArmRecord) :
    (s.commit (.arm a new) .setting).logSealed (.arm a) ((s.wc.arms.get a).changes new) =
      (s.commit (.arm a new) .setting).commit (.audit (s.auditOfArm a new)) .setting := by
  have haudit : (s.commit (.arm a new) .setting).wc.audit = s.wc.audit := by rw [State.commit_wc]; rfl
  have htime : (s.commit (.arm a new) .setting).timestamp = s.timestamp := by
    rw [State.timestamp, State.commit_lc, State.timestamp]
  rw [State.logSealed, haudit, htime, AuditRecord.add, List.drop_one]
  rfl

theorem State.writeArm_of_sealed (h : (s.wc.arms.get a).sealedPart ≠ new.sealedPart) :
    s.writeArm a new =
      { (s.commit (.arm a new) .setting).commit (.audit (s.auditOfArm a new)) .setting with fc := s.leadWritten a new } := by
  have hlisted := ArmRecord.changes_eq_nil_iff.not.mpr h
  have hlog := s.logSealed_commit_arm a new
  unfold State.writeArm
  dsimp only
  split
  · contradiction
  · rename_i hchanges
    rw [← hchanges, hlog]
    exact State.modifyFc_lead ((State.commit_fc ..).trans (State.commit_fc ..)) a new

/-- Settles O34: RANGE, then the checks of a sealed or of another write in turn, then the write. -/
theorem armIsWritten : Obligations.ArmIsWritten := by
  intro l r x s h refuses accepts ranged
  have hrole : RequestClass.service.mayIssue (s.lc.links.get l).role = true := by rw [h.2]; rfl
  have hrefuses : ∀ res, writeArmOwner x s = s.refuse res → refuses res := fun res =>
    State.replies_of_owner h.1 hrole
  refine ⟨fun hno => hrefuses _ (writeArmOwner_of_not_ranged ?_), ?_⟩
  · by_cases harm : x.arm ≤ 3
    · refine Or.inr (ArmFields.record_eq_none ?_)
      rintro ⟨⟨hproduct, hk, hoff, hoff', hspan, hfid, hrest⟩, ⟨hlow, hhigh, hrise, hpoints⟩, hmode, hatc⟩
      obtain ⟨h1, h2, h3, h4, h5, h6, h7, h8, h9, h10, h11⟩ := hrest
      exact hno ⟨harm, hproduct, hk, hlow, hhigh, hrise, hpoints, hoff, hoff', hspan, hmode, hfid, h1, h2, h3, h4, h5, h6, h7,
        h8, h9, h10, h11, hatc⟩
    · exact Or.inl harm
  · intro a p rest hranged ha hmf old maxRate lowRate new audit idle entry lead written fc
    have hx : x.record = some new := by
      obtain ⟨-, hproduct, hk, hlow, hhigh, hrise, hpoints, hoff, hoff', hspan, hmode, hfid, h1, h2, h3, h4, h5, h6, h7, h8, h9,
        h10, h11, hatc⟩ := hranged
      exact ArmFields.record_of_ranged hmf
        ⟨hproduct, hk, hoff, hoff', hspan, hfid, h1, h2, h3, h4, h5, h6, h7, h8, h9, h10, h11⟩
        ⟨hlow, hhigh, hrise, hpoints⟩ hmode hatc
    have hrefused : ∀ res, s.writeArmChecks a new = some res → refuses res := fun res hres =>
      hrefuses res (writeArmOwner_of_refused ha hx hres)
    have haccepted : ∀ u, s.writeArmChecks a new = none → new ≠ old → s.writeArm a new = u → u.lc = s.lc → accepts u := by
      intro u hchecks hnew hu hlc
      refine State.answers_of_request h.1 hrole ((writeArmOwner_of_accepted ha hx hchecks hnew).trans (by rw [hu])) rfl rfl
        (State.linked_congr (State.linked_refl s l) hlc) rfl
    refine ⟨fun hsealed => ?_, fun hunsealed => ?_⟩
    · have hchecks := State.writeArmChecks_of_sealed hsealed
      refine ⟨fun hseal => ?_, fun hseal => ⟨fun hlast => ?_, fun hcounter => ⟨fun hbusy => ?_, fun hidle => ⟨fun hfull => ?_,
        fun hfree => ?_⟩⟩⟩⟩
      · exact hrefused _ (by rw [hchecks, if_pos hseal])
      · exact hrefused _ (by rw [hchecks, if_neg (by simp [hseal]), if_pos hlast])
      · exact hrefused _ (by rw [hchecks, if_neg (by simp [hseal]), if_neg hcounter.not_ge, if_pos hbusy])
      · exact hrefused _ (by rw [hchecks, if_neg (by simp [hseal]), if_neg hcounter.not_ge, if_neg (by simpa using hidle),
          if_pos hfull])
      · refine haccepted _ ?_ (ArmRecord.ne_of_sealedPart_ne hsealed) ?_ ?_
        · rw [hchecks, if_neg (by simp [hseal]), if_neg hcounter.not_ge, if_neg (by simpa using hidle), if_neg hfree.not_ge]
        · rw [State.writeArm_of_sealed hsealed, State.auditOfArm, ArmRecord.changes_eq]
          rfl
        · exact (State.commit_lc ..).trans (State.commit_lc ..)
    · have hchecks := State.writeArmChecks_of_unsealed hunsealed
      refine ⟨fun hbusy hproduct => hrefused _ (by rw [hchecks, if_pos ⟨hproduct, hbusy⟩]), fun hmay => ?_⟩
      have hpass : ¬(new.product ≠ old.product ∧ (s.fc.get a).state ≠ .idle) := by tauto
      refine ⟨fun hheld => ?_, fun hnew => ⟨fun hfull => ?_, fun hfree => ?_⟩⟩
      · exact State.replies_of_owner h.1 hrole (writeArmOwner_of_held ha hx
          (by rw [hchecks, if_neg hpass, if_neg fun hno => hno.1 hheld]) hheld)
      · exact hrefused _ (by rw [hchecks, if_neg hpass, if_pos ⟨hnew, hfull⟩])
      · exact haccepted _ (by rw [hchecks, if_neg hpass, if_neg fun hno => hfree.not_ge hno.2]) hnew
          (State.writeArm_of_unsealed hunsealed) (State.commit_lc ..)

end Sys2Proof.Machine
end

section
/-! Discrete inputs: lines that move, levels accepted, what a lost permissive and the emergency stop do, and the dead-man buttons
(R19, R20, R22, R24, R25, R92, R122, R138, R140). -/

namespace Sys2Proof.Machine

variable {s t u v : State} {d : DiscreteInput} {a : Arm} {b : Bay} {p : Permissive} {cause : StopCause}

/-- An event's flags over a Link Controller otherwise as it was, and everything else as in `u`. -/
theorem State.becomes_of_parts {es : List FlagEvent} (h : s.flagged v es) (hlc : t.lc = v.lc) (hu : t = { u with lc := t.lc }) :
    s.becomes (.next t) es u :=
  ⟨t, rfl, State.flagged_congr h hlc, hu⟩

/-! ### Lines that move, and levels accepted (R19, R20) -/

theorem exec_discreteLineChange (halive : s.alive = true) (d : DiscreteInput) (level : LineLevel) :
    exec (.discreteLineChange d level) s = .next (s.setInput d ((s.ic.inputs.get d).lineMoved level)) :=
  congrArg Host.Outcome.next (if_pos halive)

theorem InputState.lineMoved_of_ne {x : InputState} {level : LineLevel} (h : x.line ≠ level) :
    x.lineMoved level = { x with line := level, timing := if x.settled then decide (level ≠ x.accepted) else true } := if_neg h

theorem exec_debounceExpiry (halive : s.alive = true) (htiming : (s.ic.inputs.get d).timing = true) :
    exec (.debounceExpiry d) s = .next (s.debounce d) :=
  congrArg Host.Outcome.next (if_pos (by rw [halive, htiming]; rfl))

/-- Input `d` settled at its line's level. -/
def State.settled (s : State) (d : DiscreteInput) : State := s.setInput d (s.ic.inputs.get d).accept

/-- Input `d` settled at its line's level, and the change reported. -/
def State.reported (s : State) (d : DiscreteInput) : State := (s.settled d).raiseFlag (.inputChanged d)

theorem State.debounce_of_same (h : (s.ic.inputs.get d).accepted = (s.ic.inputs.get d).line) : s.debounce d = s.settled d :=
  if_pos h

theorem State.debounce_of_change (h : (s.ic.inputs.get d).accepted ≠ (s.ic.inputs.get d).line) :
    s.debounce d = (s.reported d).changeAccepted d (!(s.ic.inputs.get d).settled) (s.ic.inputs.get d).line := if_neg h

theorem State.flagged_reported (s : State) (d : DiscreteInput) : s.flagged (s.reported d) [.inputChanged d] :=
  State.flagged_raiseFlag (State.flagged_congr (State.flagged_refl s) rfl) _

theorem State.becomes_reported (s : State) (d : DiscreteInput) :
    s.becomes (.next (s.reported d)) [.inputChanged d] (s.settled d) :=
  State.becomes_of_parts (State.flagged_reported s d) rfl rfl

/-! ### Shots after a cause (R137, R139, R140) -/

theorem State.shot_of_cutShot {cut : Channel → Bool} {p q : Additive} {c : Channel}
    (h : ((State.cutShot cut s p).adu.pumps.get q).status = .shot c) : (s.adu.pumps.get q).status = .shot c := by
  unfold State.cutShot State.endShot at h
  split at h
  · rename_i k hk
    split at h
    · by_cases hq : q = p
      · subst hq
        simp at h
      · simpa [PerAdditive.get_modify_of_ne _ _ hq] using h
    · exact h
  · exact h
  · exact h

/-- Cutting shots off begins none. -/
theorem State.shot_of_cutShots {cut : Channel → Bool} {q : Additive} {c : Channel}
    (h : ((s.cutShots cut).adu.pumps.get q).status = .shot c) : (s.adu.pumps.get q).status = .shot c := by
  unfold State.cutShots at h
  generalize Additive.all = ps at h
  induction ps generalizing s with
  | nil => exact h
  | cons p ps ih => exact State.shot_of_cutShot (ih h)

/-- No pump has a shot in progress on a channel that `cut` names. -/
def State.noShotOn (s : State) (cut : Channel → Bool) : Prop := ∀ q c, cut c = true → (s.adu.pumps.get q).status ≠ .shot c

/-- The shots named are cut off, pump by pump. -/
theorem State.noShotOn_cutShots (s : State) (cut : Channel → Bool) : (s.cutShots cut).noShotOn cut := by
  intro q
  refine foldl_establishes (f := State.cutShot cut)
    (P := fun q u => ∀ c, cut c = true → (u.adu.pumps.get q).status ≠ .shot c) ?_ Additive.all s q
    (Or.inl (by cases q <;> decide))
  rintro u p q (rfl | hkept) c hc hshot
  · have hst := State.shot_of_cutShot hshot
    simp [State.cutShot, State.endShot, hst, hc] at hshot
  · exact hkept c hc (State.shot_of_cutShot hshot)

theorem State.dosingLeft_status (s : State) (a : Arm) (q : Additive) :
    ((s.dosingLeft a).adu.pumps.get q).status = (s.adu.pumps.get q).status := by
  rw [State.dosingLeft, State.unqueue_status, State.unqueue_status]

theorem State.enterClosing_pumpStatus (s : State) (a : Arm) (r : EndReason) (q : Additive) :
    ((s.enterClosing a r).adu.pumps.get q).status = (s.adu.pumps.get q).status := by
  cases hflow : s.armFlowing a with
  | true =>
    rw [State.enterClosing_of_flowing _ _ _ hflow]
    exact ((s.setEndReason a r).dosingLeft_status a q).trans (by rw [State.setEndReason_adu])
  | false =>
    rw [State.enterClosing_of_not_flowing _ _ _ hflow]
    show ((s.setEndReason a r).adu.pumps.get q).status = _
    rw [State.setEndReason_adu]

theorem State.enterPaused_pumpStatus (s : State) (a : Arm) (q : Additive) :
    ((s.enterPaused a).adu.pumps.get q).status = (s.adu.pumps.get q).status := by
  rw [State.enterPaused_eq]
  exact s.dosingLeft_status a q

/-- A cause that joins an arm's set changes the pumps' states by the cut of the arm's shots alone. -/
theorem State.raiseCause_pumpStatus (h : ¬((s.fc.get a).state = .idle ∨ cause ∈ (s.fc.get a).causes)) (q : Additive) :
    ((s.raiseCause a cause).adu.pumps.get q).status = ((s.cutShots fun k => k.arm = a).adu.pumps.get q).status := by
  rw [not_or] at h
  rw [State.raiseCause_eq h.1 h.2]
  split <;> simp only [State.enterClosing_pumpStatus, State.enterPaused_pumpStatus]

/-- A cause begins no shot. -/
theorem State.shot_of_raiseCause {q : Additive} {c : Channel}
    (h : ((s.raiseCause a cause).adu.pumps.get q).status = .shot c) : (s.adu.pumps.get q).status = .shot c := by
  by_cases hheld : (s.fc.get a).state = .idle ∨ cause ∈ (s.fc.get a).causes
  · rwa [State.raiseCause_of_held hheld] at h
  · rw [State.raiseCause_pumpStatus hheld] at h
    exact State.shot_of_cutShots h

theorem State.noShotOn_raiseOn {cut : Channel → Bool} (h : s.noShotOn cut) (arms : List Arm) (cause : StopCause) :
    (s.raiseOn arms cause).noShotOn cut := by
  induction arms generalizing s with
  | nil => exact h
  | cons a arms ih => exact ih fun q c hc hshot => h q c hc (State.shot_of_raiseCause hshot)

/-- The shots of an arm are cut off by a cause that joins its set. -/
theorem State.noShotOn_raiseCause (h : ¬((s.fc.get a).state = .idle ∨ cause ∈ (s.fc.get a).causes)) :
    (s.raiseCause a cause).noShotOn fun k => k.arm = a := by
  intro q c hc
  rw [State.raiseCause_pumpStatus h]
  exact State.noShotOn_cutShots s _ q c hc

/-! ### Arms stopped by one cause -/

/-- Where a cause that joins the set takes a flowing arm: to CLOSING if it is terminal, and to PAUSED otherwise (R121). -/
def StopCause.stops (c : StopCause) : ArmState := if c.endReason.isSome then .closing else .paused

theorem State.raiseCause_stops (hst : (s.fc.get a).state ∈ [ArmState.lowStart, .highFlow, .topOff])
    (hnew : cause ∉ (s.fc.get a).causes) :
    ((s.raiseCause a cause).fc.get a).state = cause.stops ∧ ((s.raiseCause a cause).fc.get a).command = .close := by
  cases hr : cause.endReason with
  | none =>
    obtain ⟨hstate, hcommand, -⟩ := State.raiseCause_resumable s a cause hr hst hnew
    exact ⟨by rw [hstate, StopCause.stops, hr]; rfl, hcommand⟩
  | some r =>
    obtain ⟨hstate, hcommand⟩ := State.raiseCause_terminal s a cause r hr (by revert hst; simp; tauto) hnew
    exact ⟨by rw [hstate, StopCause.stops, hr]; rfl, hcommand⟩

/-- A cause raised on the arms that `hit` names has met each of them in `t` as it stood in `s`. -/
def State.stoppedBy (s t : State) (hit : Arm → Prop) (cause : StopCause) : Prop :=
  (∀ a, ¬hit a → t.fc.get a = s.fc.get a)
    ∧ (∀ a, hit a → (s.fc.get a).state = .idle → t.fc.get a = s.fc.get a)
    ∧ ∀ a, hit a → (s.fc.get a).state ≠ .idle → cause ∈ (t.fc.get a).causes
      ∧ (cause ∉ (s.fc.get a).causes → (s.fc.get a).state ∈ [ArmState.lowStart, .highFlow, .topOff] →
        (t.fc.get a).state = cause.stops ∧ (t.fc.get a).command = .close)

theorem State.stoppedBy_raiseOn {arms : List Arm} (hnd : arms.Nodup) {hit : Arm → Prop} (hhit : ∀ a, hit a ↔ a ∈ arms)
    (hu : u.fc = s.fc) (ht : t.fc = (u.raiseOn arms cause).fc) : s.stoppedBy t hit cause := by
  obtain ⟨hother, hnamed, -⟩ := State.raiseOn_arms arms hnd cause u
  have hmet : ∀ a, hit a → ∃ w : State, w.fc.get a = s.fc.get a ∧ t.fc.get a = (w.raiseCause a cause).fc.get a := by
    intro a ha
    obtain ⟨w, hw, -, -, hraised, -⟩ := hnamed a ((hhit a).mp ha)
    exact ⟨w, by rw [hw, hu], by rw [ht, hraised]⟩
  refine ⟨fun a ha => ?_, fun a ha hidle => ?_, fun a ha hbusy => ?_⟩
  · rw [ht, (hother a ((hhit a).not.mp ha)).1, hu]
  · obtain ⟨w, hw, hraised⟩ := hmet a ha
    rw [hraised, State.raiseCause_of_held (Or.inl (by rw [hw, hidle])), hw]
  · obtain ⟨w, hw, hraised⟩ := hmet a ha
    rw [hraised, ← hw]
    exact ⟨State.mem_raiseCause w a cause (by rwa [hw]), fun hnew hst => State.raiseCause_stops hst hnew⟩

/-! ### The emergency stop (R122, R138, R140) -/

theorem State.stopActive_eq (s : State) :
    s.stopActive = [Arm.arm0, .arm1, .arm2, .arm3].foldl State.dosingLeft
      ((s.raiseOn [.arm0, .arm1, .arm2, .arm3] .emergencyStop).cutShots fun _ => true) :=
  State.emptyQueues_eq _

theorem State.stopActive_fc (s : State) : s.stopActive.fc = (s.raiseOn Arm.all .emergencyStop).fc := by
  rw [State.stopActive, State.emptyQueues_fc, State.cutShots_fc]

theorem State.stopActive_adu (s : State) :
    (∀ p c, (s.stopActive.adu.pumps.get p).status ≠ .shot c) ∧ ∀ c, (s.stopActive.adu.channels.get c).place ≠ .queued := by
  rw [State.stopActive]
  exact ⟨fun p => State.noShot_emptyQueues (State.noShot_cutShots _ p), State.emptyQueues_place _⟩

theorem State.serveAll_of_warning (h : s.ic.warning = true) : s.serveAll = s := by
  have hserve : ∀ p, s.serve p = s := by
    intro p
    unfold State.serve
    dsimp only
    split
    · exact if_neg (by simp [h])
    · rfl
  simp [State.serveAll, Additive.all, hserve]

/-- The channel an IDLE pump serves once the emergency stop is INACTIVE, with no warning. -/
def State.releasedHead (s : State) (p : Additive) : Option Channel :=
  if (s.adu.pumps.get p).status = .idle ∧ s.ic.warning = false then (s.adu.pumps.get p).queue.head? else none

/-- The pump with the shot it begins once the emergency stop is INACTIVE. -/
def State.releasedPump (s : State) (p : Additive) : PumpState :=
  match s.releasedHead p with
  | none => s.adu.pumps.get p
  | some c =>
    { status := .shot c, queue := (s.adu.pumps.get p).queue.tail, restTimer := (s.adu.pumps.get p).restTimer
      shotTimer := some (s.wc.injectors.get c).timeLimit, pulseCount := 0, volume := 0
      target := ((s.wc.injectors.get c).shotVolume * (s.wc.injectors.get c).kMilli + 999999) / 1000000 }

/-- With the emergency stop INACTIVE every pump that may serve does so; a warning lets none. -/
theorem State.serveAll_of_stopInactive (h : s.accepts .emergencyStop = true) :
    s.serveAll =
      { s with
        adu :=
          { channels := .tabulate fun c =>
              if Additive.all.any fun p => decide (s.releasedHead p = some c) then
                { s.adu.channels.get c with place := .inShot }
              else s.adu.channels.get c
            pumps := .tabulate s.releasedPump } } := by
  cases hwarn : s.ic.warning with
  | false =>
    have hhead : s.releasedHead = s.servedHead := by
      funext p
      simp [State.releasedHead, State.servedHead, h, hwarn]
    have hpump : s.releasedPump = s.servedPump := by
      funext p
      cases hc : s.servedHead p <;> simp only [State.releasedPump, State.servedPump, hhead, hc]
    rw [State.serveAll_eq s hwarn, hhead, hpump]
  | true =>
    have hhead : ∀ p, s.releasedHead p = none := fun p => by simp [State.releasedHead, hwarn]
    have hpump : ∀ p, s.releasedPump p = s.adu.pumps.get p := fun p => by rw [State.releasedPump, hhead]
    have hchannels : PerChannel.tabulate s.adu.channels.get = s.adu.channels := PerChannel.ext_get fun c => by simp
    have hpumps : PerAdditive.tabulate s.releasedPump = s.adu.pumps := PerAdditive.ext_get fun p => by simp [hpump]
    simp [State.serveAll_of_warning hwarn, hhead, hpumps, hchannels]

/-! ### The dead-man buttons (R24, R25, R92) -/

theorem State.bayFlowing_iff :
    s.bayFlowing b = true ↔ ∃ a ∈ b.arms, (s.fc.get a).state ∈ [ArmState.lowStart, .highFlow, .topOff] := by
  simp only [State.bayFlowing, List.any_eq_true, State.armFlowing_iff]

theorem State.deadmanPress_of_flowing
    (h : ∃ a ∈ b.arms, (s.fc.get a).state ∈ [ArmState.lowStart, .highFlow, .topOff]) :
    s.deadmanPress b =
      { s with
        bsc := s.bsc.set b
          { s.bsc.get b with
            stage := .quiet, deadmanTimer := some (s.wc.rack.deadmanInterval * 1000), leftInWarning := [] } } :=
  if_pos (State.bayFlowing_iff.mpr h)

theorem State.deadmanPress_of_not_flowing
    (h : ¬∃ a ∈ b.arms, (s.fc.get a).state ∈ [ArmState.lowStart, .highFlow, .topOff]) : s.deadmanPress b = s :=
  if_neg (State.bayFlowing_iff.not.mpr h)

theorem exec_stuckTimerExpiry (halive : s.alive = true) (h : (s.ic.buttons.get b).stuckTimer ≠ none) :
    exec (.stuckTimerExpiry b) s =
      .next ((s.setButton b { state := .stuck, stuckTimer := none }).raiseFlag (.inputChanged (.deadman b))) :=
  congrArg Host.Outcome.next (if_pos (by simp [halive, Option.isSome_iff_ne_none, h]))

/-! ### The accepted change, input by input (R22, R24, R122) -/

theorem State.debounce_of_permissive_lost
    (hne : (s.ic.inputs.get (.permissive p b)).accepted ≠ (s.ic.inputs.get (.permissive p b)).line)
    (hline : (s.ic.inputs.get (.permissive p b)).line = .deenergized) :
    s.debounce (.permissive p b) =
      ((s.reported (.permissive p b)).cutShots fun c => decide (c.arm.bay = b)).raiseOn b.arms .permissiveLost := by
  rw [State.debounce_of_change hne, hline]
  rfl

theorem State.debounce_of_parked (hne : (s.ic.inputs.get (.parked a)).accepted ≠ (s.ic.inputs.get (.parked a)).line)
    (hline : (s.ic.inputs.get (.parked a)).line = .deenergized) :
    s.debounce (.parked a) = (s.reported (.parked a)).raiseCause a .permissiveLost := by
  rw [State.debounce_of_change hne, hline]
  rfl

theorem State.debounce_of_stopActive (hne : (s.ic.inputs.get .emergencyStop).accepted ≠ (s.ic.inputs.get .emergencyStop).line)
    (hline : (s.ic.inputs.get .emergencyStop).line = .deenergized) :
    s.debounce .emergencyStop = (s.reported .emergencyStop).stopActive := by
  rw [State.debounce_of_change hne, hline]
  rfl

theorem State.debounce_of_stopInactive
    (hne : (s.ic.inputs.get .emergencyStop).accepted ≠ (s.ic.inputs.get .emergencyStop).line)
    (hline : (s.ic.inputs.get .emergencyStop).line = .energized) :
    s.debounce .emergencyStop = (s.reported .emergencyStop).serveAll := by
  rw [State.debounce_of_change hne, hline]
  rfl

theorem State.debounce_of_deadman (hne : (s.ic.inputs.get (.deadman b)).accepted ≠ (s.ic.inputs.get (.deadman b)).line) :
    s.debounce (.deadman b) =
      (s.reported (.deadman b)).buttonAccepted b (!(s.ic.inputs.get (.deadman b)).settled) (s.ic.inputs.get (.deadman b)).line :=
  State.debounce_of_change hne

/-- An input without consumers beyond the flags: the seal switch, and a permissive or a parked input accepted present. -/
theorem State.debounce_of_no_consumer (hne : (s.ic.inputs.get d).accepted ≠ (s.ic.inputs.get d).line)
    (h : d = .sealSwitch
      ∨ ((s.ic.inputs.get d).line = .energized ∧ ((∃ p b, d = .permissive p b) ∨ ∃ a, d = .parked a))) :
    s.debounce d = s.reported d := by
  rw [State.debounce_of_change hne]
  rcases h with rfl | ⟨hline, ⟨p, b, rfl⟩ | ⟨a, rfl⟩⟩
  · rfl
  · rw [hline]
    rfl
  · rw [hline]
    rfl

theorem Bay.mem_arms_iff : a ∈ b.arms ↔ a.bay = b := by cases a <;> cases b <;> decide

theorem Bay.nodup_arms (b : Bay) : b.arms.Nodup := by cases b <;> decide

theorem State.accepts_reported (hline : (s.ic.inputs.get d).line = .energized) : (s.reported d).accepts d = true := by
  simp [State.reported, State.settled, State.accepts, InputState.accept, hline]

/-- Settles O41: a line that moves, a level accepted, and the change handed to whom it concerns, input by input. -/
theorem inputsAreAccepted : Obligations.InputsAreAccepted := by
  intro d s hcond x withInput accepted
  have halive := State.alive_iff.mpr hcond
  refine ⟨fun level hne => ⟨fun hsettled => ?_, fun hunsettled => ?_⟩, fun htiming hsame => ?_,
    fun htiming hdiff => ⟨fun hnone => ?_, fun hline hit cause ends hcase => ?_, fun hline hd => ?_, ?_⟩, fun b hd hstuck => ?_⟩
  · rw [exec_discreteLineChange halive, InputState.lineMoved_of_ne hne, if_pos hsettled]
    rfl
  · rw [exec_discreteLineChange halive, InputState.lineMoved_of_ne hne, if_neg (by simp [hunsettled])]
    rfl
  · rw [exec_debounceExpiry halive htiming, State.debounce_of_same hsame]
    rfl
  · rw [exec_debounceExpiry halive htiming, State.debounce_of_no_consumer hdiff hnone]
    exact s.becomes_reported d
  · refine ⟨s.reported d, s.debounce d, s.becomes_reported d, exec_debounceExpiry halive htiming, ?_⟩
    rcases hcase with ⟨⟨p, b, rfl, hhit⟩ | ⟨a, rfl, hhit⟩, rfl, rfl⟩ | ⟨⟨rfl, hhit⟩, rfl, rfl⟩
    · have ht := State.debounce_of_permissive_lost hdiff hline
      obtain ⟨hother, hidle, hmet⟩ := State.stoppedBy_raiseOn (s := s) (Bay.nodup_arms b)
        (fun a => (hhit a).trans Bay.mem_arms_iff.symm) (by simp [State.reported, State.settled]) (congrArg State.fc ht)
      have hshots : ∀ q c, c.arm.bay = b → ((s.debounce (.permissive p b)).adu.pumps.get q).status ≠ .shot c := by
        intro q c hc
        rw [ht]
        exact State.noShotOn_raiseOn (State.noShotOn_cutShots _ _) _ _ q c (by simpa using hc)
      refine ⟨?_, nofun, nofun, hother, hidle, hmet, nofun, fun a ha _ _ q c hc => ?_, ?_⟩
      · rintro _ _ ⟨⟩
        exact ht
      · exact hshots q c (by rw [hc]; exact (hhit a).mp ha)
      · rintro _ _ ⟨⟩
        exact hshots
    · have ht := State.debounce_of_parked hdiff hline
      obtain ⟨hother, hidle, hmet⟩ := State.stoppedBy_raiseOn (s := s) (List.nodup_singleton a)
        (fun a' => (hhit a').trans List.mem_singleton.symm) (by simp [State.reported, State.settled]) (congrArg State.fc ht)
      refine ⟨nofun, ?_, nofun, hother, hidle, hmet, nofun, fun a' ha hbusy hnew q c hc => ?_, nofun⟩
      · rintro _ ⟨⟩
        exact ht
      · obtain rfl := (hhit a').mp ha
        rw [ht]
        exact State.noShotOn_raiseCause (by simp [State.reported, State.settled, hbusy, hnew]) q c (by simpa using hc)
    · have ht := State.debounce_of_stopActive hdiff hline
      obtain ⟨hother, hidle, hmet⟩ := State.stoppedBy_raiseOn (s := s) (show Arm.all.Nodup by decide)
        (fun a => iff_of_true (hhit a) (Arm.mem_all a)) (by simp [State.reported, State.settled])
        ((congrArg State.fc ht).trans (State.stopActive_fc _))
      obtain ⟨hshots, hqueued⟩ := (s.reported .emergencyStop).stopActive_adu
      rw [← ht] at hshots hqueued
      exact ⟨nofun, nofun, fun _ => ht.trans (State.stopActive_eq _), hother, hidle, hmet, fun _ => ⟨hshots, hqueued⟩,
        fun _ _ _ _ q c _ => hshots q c, nofun⟩
  · subst hd
    intro head
    rw [exec_debounceExpiry halive htiming, State.debounce_of_stopInactive hdiff hline,
      State.serveAll_of_stopInactive (State.accepts_reported hline)]
    exact State.becomes_of_parts (State.flagged_reported s _) rfl rfl
  · rintro b rfl withButton
    have hflagged := State.flagged_reported s (.deadman b)
    rw [exec_debounceExpiry halive htiming, State.debounce_of_deadman hdiff]
    refine ⟨fun hline => ?_, fun hline hfirst => ?_, fun hline hsettled => ?_⟩
    · rw [hline]
      exact State.becomes_of_parts hflagged rfl rfl
    · rw [hline, hfirst]
      exact State.becomes_of_parts hflagged rfl rfl
    · rw [hline, hsettled]
      show s.becomes (.next (((s.reported (.deadman b)).setButton b _).deadmanPress b)) _ _
      split
      · rename_i hflow
        rw [State.deadmanPress_of_flowing (s := (s.reported (.deadman b)).setButton b _) hflow]
        exact State.becomes_of_parts hflagged rfl rfl
      · rename_i hstill
        rw [State.deadmanPress_of_not_flowing (s := (s.reported (.deadman b)).setButton b _) hstill]
        exact State.becomes_of_parts hflagged rfl rfl
  · subst hd
    rw [exec_stuckTimerExpiry halive hstuck]
    exact State.becomes_of_parts (State.flagged_raiseFlag (State.flagged_congr (State.flagged_refl s) rfl) _) rfl rfl

end Sys2Proof.Machine
end

section
/-! The interval end: what the computation makes of its counts, and what carrying it on leaves of the compartment's metering
(R28, R29, R94 to R109, R113, R136). -/

namespace Sys2Proof.Machine

variable {s u : State} {a b : Arm}

/-! ### The metering part of a running compartment, which only the computation changes -/

/-- The Metering Engine's part of the running compartment of an arm, where there is one. -/
def State.meteringOf (s : State) (a : Arm) : Option MeteringPart := (s.running.get a).map Running.metering

theorem State.meteringOf_congr (h : u.running = s.running) (b : Arm) : u.meteringOf b = s.meteringOf b := by
  rw [State.meteringOf, h, State.meteringOf]

theorem State.meteringOf_modifyRunning {f : Running → Running} (hf : ∀ r, (f r).metering = r.metering) (a b : Arm) :
    (s.modifyRunning a f).meteringOf b = s.meteringOf b := by
  rw [State.meteringOf, State.modifyRunning_running, PerArm.get_modify]
  split
  · rw [Option.map_map, State.meteringOf]
    exact congrArg (Option.map · _) (funext hf)
  · rfl

@[simp] theorem State.meteringOf_modifyFc (s : State) (a : Arm) (f : FlowController → FlowController) (b : Arm) :
    (s.modifyFc a f).meteringOf b = s.meteringOf b := State.meteringOf_congr (State.modifyFc_running s a f) b

@[simp] theorem State.meteringOf_modifyChannel (s : State) (c : Channel) (f : ChannelState → ChannelState) (b : Arm) :
    (s.modifyChannel c f).meteringOf b = s.meteringOf b := State.meteringOf_congr (State.modifyChannel_running s c f) b

@[simp] theorem State.meteringOf_raiseFlag (s : State) (e : FlagEvent) (b : Arm) :
    (s.raiseFlag e).meteringOf b = s.meteringOf b := State.meteringOf_congr (State.raiseFlag_running s e) b

@[simp] theorem State.meteringOf_joinQueue (s : State) (c : Channel) (b : Arm) :
    (s.joinQueue c).meteringOf b = s.meteringOf b := State.meteringOf_congr (State.joinQueue_running s c) b

@[simp] theorem State.meteringOf_cutShots (s : State) (cut : Channel → Bool) (b : Arm) :
    (s.cutShots cut).meteringOf b = s.meteringOf b := State.meteringOf_congr (State.cutShots_running s cut) b

@[simp] theorem State.meteringOf_deadmanFlowLeft (s : State) (a b : Arm) :
    (s.deadmanFlowLeft a).meteringOf b = s.meteringOf b := State.meteringOf_congr (State.deadmanFlowLeft_running s a) b

@[simp] theorem State.meteringOf_enterEnding (s : State) (a b : Arm) :
    (s.enterEnding a).meteringOf b = s.meteringOf b := State.meteringOf_congr (State.enterEnding_running s a) b

@[simp] theorem State.meteringOf_regulateArm (s : State) (a : Arm) (n : Nat) (b : Arm) :
    (s.regulateArm a n).meteringOf b = s.meteringOf b := State.meteringOf_congr (State.regulateArm_running s a n) b

@[simp] theorem State.meteringOf_modifyLine (s : State) (c : Channel) (f : LineRecord → LineRecord) (b : Arm) :
    (s.modifyLine c f).meteringOf b = s.meteringOf b := by
  unfold State.modifyLine
  split
  · exact State.meteringOf_modifyRunning (by intro; rfl) _ b
  · rfl

@[simp] theorem State.meteringOf_unqueue (s : State) (c : Channel) (b : Arm) :
    (s.unqueue c).meteringOf b = s.meteringOf b := by
  unfold State.unqueue
  split
  · rw [State.meteringOf_modifyChannel, State.meteringOf_modifyLine]
    rfl
  · rfl

@[simp] theorem State.meteringOf_setEndReason (s : State) (a : Arm) (r : EndReason) (b : Arm) :
    (s.setEndReason a r).meteringOf b = s.meteringOf b := State.meteringOf_modifyRunning (by intro; rfl) a b

@[simp] theorem State.meteringOf_flowLeft (s : State) (a b : Arm) : (s.flowLeft a).meteringOf b = s.meteringOf b := by
  simp [State.flowLeft, State.dosingLeft]

@[simp] theorem State.meteringOf_enterClosing (s : State) (a : Arm) (r : EndReason) (b : Arm) :
    (s.enterClosing a r).meteringOf b = s.meteringOf b := by
  unfold State.enterClosing
  dsimp only
  split <;> simp

@[simp] theorem State.meteringOf_enterPaused (s : State) (a b : Arm) : (s.enterPaused a).meteringOf b = s.meteringOf b := by
  simp [State.enterPaused]

@[simp] theorem State.meteringOf_raiseCause (s : State) (a : Arm) (c : StopCause) (b : Arm) :
    (s.raiseCause a c).meteringOf b = s.meteringOf b := by
  unfold State.raiseCause
  dsimp only
  repeat' split
  all_goals simp

@[simp] theorem State.meteringOf_raiseCauses (s : State) (a : Arm) (cs : List StopCause) (b : Arm) :
    (s.raiseCauses a cs).meteringOf b = s.meteringOf b := by
  induction cs generalizing s with
  | nil => rfl
  | cons c cs ih => exact (ih _).trans (State.meteringOf_raiseCause s a c b)

@[simp] theorem State.meteringOf_stageArm (s : State) (a b : Arm) : (s.stageArm a).meteringOf b = s.meteringOf b := by
  unfold State.stageArm
  dsimp only
  repeat' split
  all_goals simp

@[simp] theorem State.meteringOf_endClosing (s : State) (a b : Arm) : (s.endClosing a).meteringOf b = s.meteringOf b := by
  have hoverrun : (s.modifyRunning a fun x => { x with flow := { x.flow with overrun := true } }).meteringOf b = s.meteringOf b :=
    State.meteringOf_modifyRunning (by intro; rfl) a b
  unfold State.endClosing
  dsimp only
  repeat' split
  all_goals simp [hoverrun]

@[simp] theorem State.meteringOf_countClosing (s : State) (a : Arm) (n : Nat) (b : Arm) :
    (s.countClosing a n).meteringOf b = s.meteringOf b := by
  unfold State.countClosing
  dsimp only
  repeat' split
  all_goals simp

@[simp] theorem State.meteringOf_flowInterval (s : State) (a : Arm) (n : Nat) (cs : List StopCause) (b : Arm) :
    (s.flowInterval a n cs).meteringOf b = s.meteringOf b := by
  unfold State.flowInterval
  dsimp only
  repeat' split
  all_goals simp

@[simp] theorem State.meteringOf_paceLine (s : State) (g : Nat) (x : LineRecord) (b : Arm) :
    (s.paceLine g x).1.meteringOf b = s.meteringOf b := by
  unfold State.paceLine
  dsimp only
  repeat' split
  all_goals simp

@[simp] theorem State.meteringOf_paceLines (s : State) (g : Nat) (xs : List LineRecord) (b : Arm) :
    (s.paceLines g xs).1.meteringOf b = s.meteringOf b := by
  induction xs generalizing s with
  | nil => rfl
  | cons x xs ih => exact (ih _).trans (State.meteringOf_paceLine s g x b)

@[simp] theorem State.meteringOf_pace (s : State) (a b : Arm) : (s.pace a).1.meteringOf b = s.meteringOf b := by
  unfold State.pace
  repeat' split
  all_goals simp

/-- The interval handed on leaves every compartment's metering as the computation left it. -/
theorem State.meteringOf_handOn (s : State) (a : Arm) (n : Nat) (cs : List StopCause) (order : IntervalOrder) (b : Arm) :
    (s.handOn a n cs order).meteringOf b = s.meteringOf b := by
  cases order <;> simp [State.handOn, State.paceArm]

/-! ### The interval handed on (R95, R113, R136) -/

theorem State.handOn_me (s : State) (a : Arm) (n : Nat) (cs : List StopCause) (order : IntervalOrder) :
    (s.handOn a n cs order).me = s.me := by
  cases order <;> simp [State.handOn]

theorem State.handOn_ic (s : State) (a : Arm) (n : Nat) (cs : List StopCause) (order : IntervalOrder) :
    (s.handOn a n cs order).ic = s.ic := by
  cases order <;> simp [State.handOn]

theorem State.flowInterval_of_idle (h : (s.fc.get a).state = .idle) (n : Nat) (cs : List StopCause) :
    s.flowInterval a n cs = s := by
  unfold State.flowInterval
  rw [h]

theorem State.pace_of_idle (h : (s.fc.get a).state = .idle) : s.pace a = (s, []) := by
  have hstill : ¬s.armFlowing a = true := by simp [State.armFlowing_iff, h]
  unfold State.pace
  split
  · rw [if_neg hstill]
  · rfl

/-- An interval of an IDLE arm is handed on to no effect. -/
theorem State.handOn_of_idle (h : (s.fc.get a).state = .idle) (n : Nat) (cs : List StopCause) (order : IntervalOrder) :
    s.handOn a n cs order = s := by
  cases order <;> simp [State.handOn, State.paceArm, State.pace_of_idle h, State.flowInterval_of_idle h, State.raiseCauses]

end Sys2Proof.Machine
end

section
/-! The nine stages of an interval, the crediting of the compartment, and the faults (R28, R29, R95 to R108). -/

namespace Sys2Proof.Machine

variable {s u : State} {a : Arm} {p : MeterParameters} {m : MeteringChannel} {h : Handover} {part : Option MeteringPart}

/-! ### The stages one by one (R98 to R103) -/

theorem MeterParameters.mfAt_of_none (hk : p.kMilli = none) (rate : Nat) : p.mfAt rate = 100000 := by
  rw [MeterParameters.mfAt, hk]
  rfl

theorem MeterParameters.mfAt_of_ne_none (hk : p.kMilli ≠ none) (rate : Nat) : p.mfAt rate = p.mf.at rate := by
  obtain ⟨k, hk⟩ := Option.ne_none_iff_exists'.mp hk
  rw [MeterParameters.mfAt, hk]

theorem MeteringChannel.rate_afterRaw (m : MeteringChannel) (k : Nat) (h : Handover) :
    (m.afterRaw k h).rate = min 9999 ((m.rawMl k h :: m.rateWindow.take 3).sum * 60 / 1000) := rfl

theorem MeterParameters.good_iff {raw : Nat} :
    p.good raw = true ↔ raw ≠ 0 ∧ raw ≠ 65535 ∧ -4000 ≤ p.temperature raw ∧ p.temperature raw ≤ 7000 := by
  simp [MeterParameters.good, and_assoc]

theorem samples_iff : samples part = true ↔ ∀ x, part = some x → x.phase = .sampling := by
  cases part <;> simp [samples]

/-- The window after stage 6. -/
def MeterParameters.windowAfter (p : MeterParameters) (m : MeteringChannel) (part : Option MeteringPart) (raw : Nat) : List Int :=
  if samples part && p.good raw then acceptSample m.temperatures (p.temperature raw) else m.temperatures

theorem MeterParameters.windowAfter_of_taken {raw : Nat} (hgood : p.good raw = true) (hsamples : samples part = true) :
    p.windowAfter m part raw =
      if 4 < (m.temperatures ++ [p.temperature raw]).length then (m.temperatures ++ [p.temperature raw]).tail
      else m.temperatures ++ [p.temperature raw] := by
  simp [MeterParameters.windowAfter, hgood, hsamples, acceptSample]

theorem MeterParameters.windowAfter_of_not_taken {raw : Nat} (h : ¬(p.good raw = true ∧ samples part = true)) :
    p.windowAfter m part raw = m.temperatures := by
  refine if_neg fun hboth => h ?_
  rw [Bool.and_eq_true] at hboth
  exact hboth.symm

theorem workingTemperature_of_ne_nil {window : List Int} (hne : window ≠ []) :
    workingTemperature window = some (window.sum.tdiv window.length) := by
  cases window with
  | nil => exact absurd rfl hne
  | cons _ _ => rfl

theorem NvRecords.fallbackOf_of_none {r : NvRecords} {code : Nat} (hp : r.products.find code = none) :
    r.fallbackOf code = 1500 := by
  rw [NvRecords.fallbackOf, hp]
  rfl

theorem NvRecords.fallbackOf_of_some {r : NvRecords} {code : Nat} {x : ProductRecord} (hp : r.products.find code = some x) :
    r.fallbackOf code = x.fallback := by
  rw [NvRecords.fallbackOf, hp]

theorem NvRecords.alphaOf_of_none {r : NvRecords} {code : Nat} (hp : r.products.find code = none) : r.alphaOf code = 0 := by
  rw [NvRecords.alphaOf, hp]

theorem NvRecords.alphaOf_of_some {r : NvRecords} {code : Nat} {x : ProductRecord} (hp : r.products.find code = some x) :
    r.alphaOf code = x.alpha := by
  rw [NvRecords.alphaOf, hp]

theorem pulseErrorMark_iff {r : ArmRecord} {c : IntervalCounts} :
    pulseErrorMark r c = true ↔ r.mode = .dual ∧ (r.fidelity < c.nA - c.nB ∨ r.fidelity < c.nB - c.nA) := by
  simp only [pulseErrorMark, Bool.and_eq_true, Bool.or_eq_true, decide_eq_true_iff]
  constructor
  · rintro ⟨⟨hmode, -⟩, hdiffer⟩
    exact ⟨hmode, hdiffer⟩
  · rintro ⟨hmode, hdiffer⟩
    exact ⟨⟨hmode, by omega⟩, hdiffer⟩

/-! ### The computation as a whole -/

/-- The result of an interval from what its stages give in turn: the meter factor, the window, the working temperature, the
temperature used, the correction factor and the unauthorized flow. -/
theorem meterInterval_eq {mf factor counter grossNum netNum : Nat} {window : List Int} {working : Option Int} {used : Int}
    (hmf : p.mfAt (m.afterRaw p.k h).rate = mf) (hgross : m.rawMl p.k h * mf + m.grossResidue = grossNum)
    (hwindow : p.windowAfter m part h.raw = window) (hworking : workingTemperature window = working)
    (hused : working.getD p.fallback = used) (hfactor : vcf p.alpha used = factor)
    (hnet : grossNum / 100000 * factor + m.netResidue = netNum)
    (hcounter : (if part.isSome then m.unauthorized else min 999999999999 (m.unauthorized + grossNum / 100000)) = counter) :
    meterInterval p m part h =
      { channel :=
          { m.afterRaw p.k h with
            grossResidue := grossNum % 100000, netResidue := netNum % 100000
            gross := (m.gross + grossNum / 100000) % 1000000000000, net := (m.net + netNum / 100000) % 1000000000000
            unauthorized := counter, temperatures := window, shownTemperature := working, shownUnauthorized := counter }
        part := part.map fun x => x.after p h (m.reverseMl p.k h) (grossNum / 100000) (netNum / 100000) working.isNone used
        forward := h.nA
        causes := part.elim [] fun x => x.causes p h (m.reverseMl p.k h)
        unauthorized := decide (m.unauthorized ≤ 5000) && decide (5000 < counter) } := by
  subst hmf hgross hwindow hworking hused hfactor hnet hcounter
  cases part <;> rfl

/-! ### The compartment's part and its faults (R96, R97, R103 to R105) -/

section Part

variable {x : MeteringPart} {mark good : Prop} [Decidable mark] [Decidable good]

theorem MeteringPart.after_eq (hmark : h.mark = decide mark) (hgood : p.good h.raw = decide good) (x : MeteringPart)
    (reverseMl grossInc netInc : Nat) (working : Option Int) (used : Int) :
    x.after p h reverseMl grossInc netInc working.isNone used =
      { openGross := x.openGross, openNet := x.openNet, gross := x.gross + grossInc, net := x.net + netInc
        weighted := x.weighted + (grossInc : Nat) * used
        pulseErrors := min 65535 (x.pulseErrors + if mark then 1 else 0), reverse := x.reverse + reverseMl
        phase := if 0 < h.nA then .sampling else x.phase
        tempSubstituted := x.tempSubstituted || decide (working = none ∧ 0 < grossInc ∧ ¬(x.phase = .waiting ∧ 0 < h.nA))
        probeFault := x.probeFault || decide (x.phase = .sampling ∧ ¬good)
        vcfClamped := x.vcfClamped || decide (vcfUnclamped p.alpha used < 90000 ∨ 110000 < vcfUnclamped p.alpha used)
        pulseErrorsSeen := x.pulseErrorsSeen || decide mark } := by
  have hsubstituted : (working.isNone && decide (0 < grossInc) && !firstFlowing (some x) h.nA) =
      decide (working = none ∧ 0 < grossInc ∧ ¬(x.phase = .waiting ∧ 0 < h.nA)) := by
    rw [Bool.eq_iff_iff]
    simp [firstFlowing, and_assoc]
  have hprobe : (decide (x.phase = .sampling) && !p.good h.raw) = decide (x.phase = .sampling ∧ ¬good) := by
    rw [hgood, Bool.decide_and, decide_not]
  have hclamped : vcfIsClamped p.alpha used =
      decide (vcfUnclamped p.alpha used < 90000 ∨ 110000 < vcfUnclamped p.alpha used) := by
    rw [vcfIsClamped, Bool.decide_or]
  simp only [MeteringPart.after, hsubstituted, hprobe, hclamped, hmark, decide_eq_true_iff]
  rfl

theorem MeteringPart.causes_eq (hmark : h.mark = decide mark) (hgood : p.good h.raw = decide good) (x : MeteringPart)
    (reverseMl : Nat) :
    x.causes p h reverseMl =
      (if (mark ∧ 10 < x.pulseErrors + 1) ∨ (0 < reverseMl ∧ 2000 < x.reverse + reverseMl) then [StopCause.pulseFault] else [])
        ++ (if x.phase = .sampling ∧ ¬good ∧ p.atcRequired = true then [StopCause.probeFault] else []) := by
  simp only [MeteringPart.causes, hmark, hgood, Bool.and_eq_true, Bool.or_eq_true, Bool.not_eq_true', decide_eq_true_iff,
    decide_eq_false_iff_not, and_assoc]
  rfl

end Part

/-! ### The crediting (R94, R108) -/

/-- The channel and the running record as the computation leaves them. -/
def State.computed (s : State) (a : Arm) (r : MeterResult) : State :=
  { s with
    me := s.me.set a r.channel
    running :=
      match r.part with
      | some x => s.running.modify a (Option.map fun y => { y with metering := x })
      | none => s.running }

theorem State.credit_eq (s : State) (a : Arm) (r : MeterResult) :
    s.credit a r =
      if r.unauthorized then (s.computed a r).raiseFlag (.unauthorizedFlow a) else s.computed a r := by
  unfold State.credit State.computed
  cases r.part <;> rfl

theorem State.computed_running_of_none {r : MeterResult} (h : r.part = none) : (s.computed a r).running = s.running := by
  rw [State.computed, h]

theorem State.computed_running_of_some {r : MeterResult} {x : MeteringPart} {y : Running} (h : r.part = some x)
    (hy : s.running.get a = some y) : (s.computed a r).running = s.running.set a (some { y with metering := x }) := by
  rw [State.computed, h]
  show s.running.modify a _ = _
  rw [PerArm.modify, hy]
  rfl

theorem State.meteringOf_credit (s : State) (a : Arm) (r : MeterResult) (b : Arm) :
    (s.credit a r).meteringOf b = (s.computed a r).meteringOf b := by
  rw [State.credit_eq]
  split
  · exact State.meteringOf_raiseFlag ..
  · rfl

/-- An event that sets one flag where a condition holds, and nothing else of the Link Controller. -/
theorem State.becomes_raiseFlag_if {c : Bool} {P : Prop} [Decidable P] (hc : c = true ↔ P) (hlc : u.lc = s.lc) (e : FlagEvent) :
    s.becomes (.next (if c then u.raiseFlag e else u)) (if P then [e] else []) u := by
  have hu : s.flagged u [] := State.flagged_congr (State.flagged_refl s) hlc
  by_cases hP : P
  · rw [if_pos hP, if_pos (hc.mpr hP)]
    exact State.becomes_of_parts (State.flagged_raiseFlag hu e) rfl rfl
  · rw [if_neg hP, if_neg (hc.not.mpr hP)]
    exact State.becomes_of_parts hu rfl rfl

theorem State.active_eq_some {y : Running} (h : s.active a = some y) : s.running.get a = some y := by
  unfold State.active at h
  split at h
  · cases h
  · exact h

theorem exec_meteringIntervalEnd (hrun : s.condition = .running) (a : Arm) (raw : Nat) (order : IntervalOrder) :
    exec (.meteringIntervalEnd a raw order) s = .next (s.intervalEnd a raw order) :=
  congrArg Host.Outcome.next (if_pos (decide_eq_true hrun))

/-- The result of an interval end of an arm that hands its counts over. -/
def State.intervalResult (s : State) (a : Arm) (raw : Nat) : MeterResult :=
  meterInterval (s.meterParameters a) (s.me.get a) ((s.active a).map Running.metering) (s.handoverOf a raw)

theorem State.intervalResult_of_active {raw : Nat} {y : Option Running} (h : s.active a = y) :
    s.intervalResult a raw =
      meterInterval (s.meterParameters a) (s.me.get a) (y.map Running.metering) (s.handoverOf a raw) := by
  rw [State.intervalResult, h]

/-- The part with the counts of arm `a` handed over. -/
def State.handed (s : State) (a : Arm) (raw : Nat) : State := s.takeHandover a (s.handoverOf a raw)

/-- The part as the computation of an interval of arm `a` leaves it, before its results are handed on. -/
def State.metered (s : State) (a : Arm) (raw : Nat) : State := (s.handed a raw).credit a (s.intervalResult a raw)

theorem State.metered_eq (s : State) (a : Arm) (raw : Nat) :
    s.metered a raw =
      if (s.intervalResult a raw).unauthorized then
        ((s.handed a raw).computed a (s.intervalResult a raw)).raiseFlag (.unauthorizedFlow a)
      else (s.handed a raw).computed a (s.intervalResult a raw) := State.credit_eq ..

theorem State.metered_me (s : State) (a : Arm) (raw : Nat) :
    (s.metered a raw).me = s.me.set a (s.intervalResult a raw).channel := by
  rw [State.metered_eq]
  split <;> rfl

theorem State.metered_ic (s : State) (a : Arm) (raw : Nat) : (s.metered a raw).ic = (s.handed a raw).ic := State.credit_ic ..

theorem State.metered_fc (s : State) (a : Arm) (raw : Nat) : (s.metered a raw).fc = s.fc := State.credit_fc ..

theorem State.meteringOf_metered {raw : Nat} {x : MeteringPart} {y : Running} (hx : (s.intervalResult a raw).part = some x)
    (hy : s.running.get a = some y) : (s.metered a raw).meteringOf a = some x := by
  have hrunning := State.computed_running_of_some (s := s.handed a raw) hx hy
  rw [State.metered, State.meteringOf_credit, State.meteringOf, hrunning, PerArm.get_set_self]
  rfl

theorem State.intervalEnd_eq (s : State) (a : Arm) (raw : Nat) (order : IntervalOrder) :
    s.intervalEnd a raw order =
      (s.metered a raw).handOn a (s.intervalResult a raw).forward
        (s.intervalResult a raw).causes order := rfl

/-- Settles O45: the stages in turn give the channel, the crediting the compartment, and neither recipient of the interval touches
the compartment's metering again. -/
theorem intervalIsComputed : Obligations.IntervalIsComputed := by
  intro a raw order s hrun arm m c k rawMl window mf grossNum temperature good active samples temperatures working used factor
    netNum unauthorized channel mark meters reverseMl credited causes
  have hactive : s.active a = active := by
    by_cases hidle : (s.fc.get a).state = .idle <;> simp [active, State.active, State.armIdle, hidle]
  have hrunning : ∀ y, active = some y → s.running.get a = some y := fun y hy => State.active_eq_some (hactive.trans hy)
  clear_value active
  have hmark : (s.handoverOf a raw).mark = decide mark := by
    rw [Bool.eq_iff_iff, decide_eq_true_iff]
    exact pulseErrorMark_iff
  have hgood : (s.meterParameters a).good raw = decide good := by
    rw [Bool.eq_iff_iff, decide_eq_true_iff]
    exact MeterParameters.good_iff
  have hsampling : Machine.samples (active.map Running.metering) = true ↔
      ∀ y, active = some y → y.metering.phase = .sampling := by
    rw [samples_iff]
    simp
  have hmf : (s.meterParameters a).mfAt (m.afterRaw (s.meterParameters a).k (s.handoverOf a raw)).rate = mf := by
    rw [MeteringChannel.rate_afterRaw]
    by_cases hk : arm.kMilli = none
    · exact (MeterParameters.mfAt_of_none hk _).trans (if_pos hk).symm
    · exact (MeterParameters.mfAt_of_ne_none hk _).trans (if_neg hk).symm
  have hwindow : (s.meterParameters a).windowAfter m (active.map Running.metering) raw = temperatures := by
    by_cases htaken : good ∧ ∀ y, active = some y → y.metering.phase = .sampling
    · rw [MeterParameters.windowAfter_of_taken (hgood.trans (decide_eq_true htaken.1)) (hsampling.mpr htaken.2)]
      exact (if_pos htaken).symm
    · rw [MeterParameters.windowAfter_of_not_taken (by rw [hgood, decide_eq_true_iff, hsampling]; exact htaken)]
      exact (if_neg htaken).symm
  have hworking : workingTemperature temperatures = working := by
    by_cases hnil : temperatures = []
    · rw [hnil]
      exact (if_pos hnil).symm
    · exact (workingTemperature_of_ne_nil hnil).trans (if_neg hnil).symm
  have hused : working.getD (s.meterParameters a).fallback = used := by
    show working.getD (s.wc.fallbackOf arm.product) = used
    cases hp : s.wc.products.find arm.product with
    | none => simp only [used, hp, NvRecords.fallbackOf_of_none hp]
    | some x => simp only [used, hp, NvRecords.fallbackOf_of_some hp]
  have halpha : (s.meterParameters a).alpha = match s.wc.products.find arm.product with | none => 0 | some p => p.alpha := by
    show s.wc.alphaOf arm.product = _
    cases hp : s.wc.products.find arm.product with
    | none => exact NvRecords.alphaOf_of_none hp
    | some x => exact NvRecords.alphaOf_of_some hp
  have hfactor : vcf (s.meterParameters a).alpha used = factor := congrArg (vcf · used) halpha
  have hcounter : (if (active.map Running.metering).isSome then m.unauthorized
      else min 999999999999 (m.unauthorized + grossNum / 100000)) = unauthorized := by
    by_cases hnone : active = none
    · rw [Option.isSome_map, hnone, Option.isSome_none, if_neg Bool.false_ne_true]
      exact (if_pos hnone).symm
    · rw [Option.isSome_map, if_pos (Option.isSome_iff_ne_none.mpr hnone)]
      exact (if_neg hnone).symm
  have hgross : m.rawMl (s.meterParameters a).k (s.handoverOf a raw) * mf + m.grossResidue = grossNum := rfl
  have hnet : grossNum / 100000 * factor + m.netResidue = netNum := rfl
  have hresult := (State.intervalResult_of_active (raw := raw) hactive).trans
    (meterInterval_eq hmf hgross hwindow hworking hused hfactor hnet hcounter)
  have hchannel : (s.intervalResult a raw).channel = channel := by
    rw [hresult]
    rfl
  have hcredited : ∀ y, y.after (s.meterParameters a) (s.handoverOf a raw) reverseMl (grossNum / 100000) (netNum / 100000)
      working.isNone used = credited y := by
    intro y
    rw [MeteringPart.after_eq hmark hgood, halpha]
    rfl
  have hpart : (s.intervalResult a raw).part = active.map fun y => credited y.metering := by
    rw [hresult, Option.map_map]
    exact congrArg (Option.map · active) (funext fun y => hcredited y.metering)
  have hcauses : (s.intervalResult a raw).causes = causes := by
    rw [hresult]
    show ((active.map Running.metering).elim [] fun x => x.causes (s.meterParameters a) (s.handoverOf a raw) reverseMl) = causes
    cases active with
    | none => rfl
    | some y => exact MeteringPart.causes_eq hmark hgood y.metering reverseMl
  have hraised : (s.intervalResult a raw).unauthorized = true ↔ m.unauthorized ≤ 5000 ∧ 5000 < unauthorized := by
    rw [hresult, Bool.and_eq_true, decide_eq_true_iff, decide_eq_true_iff]
  have hic : (s.handed a raw).ic = { s.ic with meters := meters } := by
    have hhanded : s.handoverOf a raw = { nA := c.nA, nB := c.nB, reverse := c.reverse, mark := decide mark, raw := raw } := by
      rw [← hmark]
      rfl
    rw [State.handed, hhanded]
    rfl
  have hmetering : ∀ y, active = some y → (s.metered a raw).meteringOf a = some (credited y.metering) := fun y hy =>
    State.meteringOf_metered (hpart.trans (congrArg _ hy)) (hrunning y hy)
  refine ⟨s.metered a raw, _, exec_meteringIntervalEnd hrun a raw order, ?_, ?_, ?_, ?_, fun y hy => ?_,
    fun hidle => ?_⟩
  · have hbecomes := State.becomes_raiseFlag_if (s := s)
      (u := (s.handed a raw).computed a (s.intervalResult a raw)) hraised rfl (.unauthorizedFlow a)
    rw [← State.metered_eq] at hbecomes
    refine Eq.mp (congrArg (s.becomes _ _) ?_) hbecomes
    refine State.eq_of_parts rfl rfl hic rfl rfl rfl rfl (congrArg (s.me.set a) hchannel) rfl ?_ rfl rfl rfl rfl
    cases active with
    | none => exact State.computed_running_of_none (s := s.handed a raw) hpart
    | some y => exact State.computed_running_of_some (s := s.handed a raw) hpart (hrunning y rfl)
  · rw [State.intervalEnd_eq, hcauses]
    cases order <;> rfl
  · rw [State.intervalEnd_eq, State.handOn_me, State.metered_me, hchannel]
  · rw [State.intervalEnd_eq, State.handOn_ic, State.metered_ic, hic]
  · have hkept := State.meteringOf_handOn (s.metered a raw) a (s.intervalResult a raw).forward
      (s.intervalResult a raw).causes order a
    rw [← State.intervalEnd_eq, hmetering y hy] at hkept
    exact Option.map_eq_some_iff.mp hkept
  · rw [State.intervalEnd_eq]
    exact State.handOn_of_idle (by rw [State.metered_fc, hidle]) ..

end Sys2Proof.Machine
end

section
/-! An accepted START: the checks it passes, the compartment it opens, and the stage it enters (R23, R69, R83, R84, R90, R109,
R114 to R116, R135, R150). -/

namespace Sys2Proof.Machine

variable {s u : State} {l : Link} {a : Arm} {b : Bay} {n : Nat} {o : Order} {c : Compartment} {lines : List RecipeLine}

/-! ### The loading permissive condition and the serving channels (R23, R135) -/

theorem State.permissivesPresent_iff : s.permissivesPresent b = true ↔ ∀ p, s.accepts (.permissive p b) = true := by
  simp only [State.permissivesPresent, Bool.and_eq_true]
  constructor
  · rintro ⟨⟨hground, hoverfill⟩, hvapour⟩ p
    cases p with
    | ground => exact hground
    | overfill => exact hoverfill
    | vapour => exact hvapour
  · exact fun h => ⟨⟨h .ground, h .overfill⟩, h .vapour⟩

theorem State.loadingPermissive_iff :
    s.loadingPermissive a = true ↔
      (∀ p, s.accepts (.permissive p a.bay) = true) ∧ s.accepts (.parked a) = true ∧ s.accepts .emergencyStop = true := by
  simp only [State.loadingPermissive, Bool.and_eq_true, State.permissivesPresent_iff, State.notParked, State.stopInactive,
    and_assoc]

theorem Channel.toNat_inj {c d : Channel} (h : c.toNat = d.toNat) : c = d := by
  rw [← Option.some_inj, ← Channel.ofNat?_toNat c, h, Channel.ofNat?_toNat]

theorem Arm.toNat_lowerChannel (a : Arm) : a.lowerChannel.toNat = 2 * a.toNat := by cases a <;> rfl

theorem Arm.toNat_upperChannel (a : Arm) : a.upperChannel.toNat = 2 * a.toNat + 1 := by cases a <;> rfl

/-- The channel that serves a type on an arm known to have one for it: the lower where that is assigned it, else the upper. -/
def State.channelFor (s : State) (a : Arm) (t : Additive) : Channel :=
  if (s.wc.injectors.get a.lowerChannel).additive = some t then a.lowerChannel else a.upperChannel

theorem State.servingChannel_of_assigned {t : Additive}
    (h : (s.wc.injectors.get a.lowerChannel).additive = some t ∨ (s.wc.injectors.get a.upperChannel).additive = some t) :
    s.servingChannel a t = some (s.channelFor a t) := by
  unfold State.servingChannel State.channelFor
  split
  · rfl
  · rename_i hlower
    rw [if_pos (h.resolve_left hlower)]

theorem State.lineRecords_of_assigned
    (h : ∀ x ∈ lines, (s.wc.injectors.get a.lowerChannel).additive = some x.additive
      ∨ (s.wc.injectors.get a.upperChannel).additive = some x.additive) :
    s.lineRecords a lines =
      lines.map fun x =>
        { additive := x.additive, dose := x.dose, channel := s.channelFor a x.additive, requested := 0, injected := 0 } := by
  rw [State.lineRecords, ← List.filterMap_eq_map]
  refine List.filterMap_congr fun x hx => ?_
  rw [State.servingChannel_of_assigned (h x hx)]
  rfl

/-! ### The checks (R69, R83) -/

/-- A START of compartment `c` on arm `a` at bay `b` passes every check. -/
structure State.Startable (s : State) (b : Bay) (a : Arm) (n : Nat) (o : Order) (c : Compartment) : Prop where
  loading : (s.bsc.get b).status = .loading
  notClosing : (s.bsc.get b).closePending = false
  number : compartmentNumberOk c.number = true
  arm : s.startArmOk b a = true
  compartment : s.startCompartment b c.number = some (n, o, c)
  checks : s.startChecks b a c = none

theorem startOwner_of_startable (h : s.Startable b a n o c) :
    startOwner l b (a.toNat, c.number) s =
      (s.startArm b a n o c).accept
        (natBytes 2 c.remaining ++ natBytes 1 ((s.startArm b a n o c).fc.get a).state.code) := by
  simp [startOwner, h.loading, h.notClosing, h.number, h.arm, h.compartment, h.checks]

theorem State.startArmOk_of {k : Nat} (hbay : a.bay = b) (hidle : (s.fc.get a).state = .idle)
    (hk : (s.wc.arms.get a).kMilli = some k) : s.startArmOk b a = true := by
  simp [State.startArmOk, State.armIdle, hbay, hidle, hk]

theorem State.startCompartment_of (horder : (s.bsc.get b).order = some n) (ho : s.ob.orders.find n = some o)
    (hc : (o.compartments.find? fun x => x.number = c.number) = some c) (hplan : c.number ∈ (s.bsc.get b).plan)
    (hstatus : c.status = .pending ∨ c.status = .partLoaded) (hcancel : o.cancelPending = false) :
    s.startCompartment b c.number = some (n, o, c) := by
  have hheld : s.heldOrder b = some (n, o) := by simp [State.heldOrder, horder, ho]
  have hfound : o.compartment c.number = some c := hc
  have hstartable : o.startable c = true := by simp [Order.startable, hstatus, hcancel]
  simp only [State.startCompartment, hheld, hfound, hstartable, Bool.and_true, List.contains_iff_mem.mpr hplan, if_true]

theorem State.driverActive_of {driver : Nat} {d : DriverRecord} (hdriver : (s.bsc.get b).driver = some driver)
    (hd : s.wc.drivers.find driver = some d) (hactive : d.status = .active) : s.driverActive b = true := by
  simp [State.driverActive, hdriver, hd, hactive]

theorem State.recipeLines_of_none (h : c.recipe = none) : s.recipeLines c = some [] := by
  rw [State.recipeLines, h]

theorem State.recipeLines_of_some {code : Nat} {y : RecipeRecord} (h : c.recipe = some code)
    (hy : s.wc.recipes.find code = some y) (hproduct : y.product = c.product) : s.recipeLines c = some y.lines := by
  simp [State.recipeLines, h, NvRecords.usableRecipe, hy, hproduct]

theorem State.startChecks_of (hproduct : (s.wc.arms.get a).product = c.product) (hdriver : s.driverActive b = true)
    (hrecipe : s.recipeLines c = some lines) (hserved : ∀ x ∈ lines, (s.servingChannel a x.additive).isSome = true)
    (hstock : ∀ x ∈ lines, (s.wc.stock.get x.additive).reserve < (s.wc.stock.get x.additive).stock)
    (hpermissive : s.loadingPermissive a = true) (hnotes : s.notesHeld + s.reservations < 64)
    (hleft : c.delivered < c.planned) : s.startChecks b a c = none := by
  have hslots : ¬Config.maxNotes ≤ s.notesHeld + s.reservations := not_le.mpr hnotes
  have hremaining : c.remaining ≠ 0 := Nat.sub_ne_zero_of_lt hleft
  have hall : (lines.all fun x => (s.servingChannel a x.additive).isSome) = true := List.all_eq_true.mpr hserved
  have hstocked : (lines.all fun x => (s.wc.stock.get x.additive).reserve < (s.wc.stock.get x.additive).stock) = true :=
    List.all_eq_true.mpr fun x hx => decide_eq_true (hstock x hx)
  simp only [State.startChecks, hproduct, hdriver, hrecipe, hall, hstocked, hpermissive, hslots, hremaining, ne_eq,
    not_true_eq_false, Bool.not_true, Bool.false_eq_true, if_false]

/-! ### The compartment opened (R84, R109, R135, R150) -/

/-- The channels as they take up their lines, the first line at position `i`. -/
def takenUp (channels : PerChannel ChannelState) (cs : List Channel) (i : Nat) : PerChannel ChannelState :=
  (cs.zipIdx i).foldl (fun k p => k.set p.1 { k.get p.1 with serving := some p.2, owed := 0, failed := 0 }) channels

theorem State.serveLines_eq (s : State) (i : Nat) (xs : List LineRecord) :
    s.serveLines i xs =
      { s with adu := { s.adu with channels := takenUp s.adu.channels (xs.map LineRecord.channel) i } } := by
  induction xs generalizing s i with
  | nil => rfl
  | cons x xs ih => exact ih _ _

theorem State.modifyOrder_of_find (h : s.ob.orders.find n = some o) (f : Order → Order) :
    s.modifyOrder n f = s.setOrders (s.ob.orders.put n (f o)) := by
  rw [State.modifyOrder, h]

/-- The part with the compartment opened on arm `a`, before the arm takes its stage. -/
def State.opened (s : State) (b : Bay) (a : Arm) (n : Nat) (o : Order) (c : Compartment) : State :=
  { s with
    ns := { s.ns with reserved := s.ns.reserved.set a true }
    ob := { orders := s.ob.orders.put n (o.modifyCompartment c.number fun y => y.started a) }
    running := s.running.set a (some (s.openRecord b a n o c))
    me := s.me.set a { s.me.get a with temperatures := [] }
    adu :=
      { s.adu with
        channels := takenUp s.adu.channels ((s.openRecord b a n o c).lines.map LineRecord.channel) 0 } }

theorem State.startArm_eq (ho : s.ob.orders.find n = some o) :
    s.startArm b a n o c = (s.opened b a n o c).enterStage a (s.startStage a c) := by
  have horder := State.modifyOrder_of_find (s := s.setNs { s.ns with reserved := s.ns.reserved.set a true }) ho
    fun x => x.modifyCompartment c.number fun y => y.started a
  simp only [State.startArm, horder, State.serveLines_eq]
  rfl

/-- The record opened, with the lines of its recipe. -/
theorem State.openRecord_of_lines {driver : Nat} (hrecipe : s.recipeLines c = some lines)
    (hdriver : (s.bsc.get b).driver = some driver)
    (h : ∀ x ∈ lines, (s.wc.injectors.get a.lowerChannel).additive = some x.additive
      ∨ (s.wc.injectors.get a.upperChannel).additive = some x.additive) :
    s.openRecord b a n o c =
      { metering :=
          { openGross := (s.me.get a).gross, openNet := (s.me.get a).net, gross := 0, net := 0, weighted := 0
            pulseErrors := 0, reverse := 0, phase := .waiting, tempSubstituted := false, probeFault := false
            vcfClamped := false, pulseErrorsSeen := false }
        flow :=
          { bay := b, order := n, compartment := c.number, preset := (c.planned - c.delivered) * 1000, basis := c.basis
            endReason := none, overrun := false }
        lines := lines.map fun x =>
          { additive := x.additive, dose := x.dose, channel := s.channelFor a x.additive, requested := 0, injected := 0 }
        note :=
          { bay := b, driver := driver, order := n, vehicle := o.vehicle, compartment := c.number, product := c.product
            recipe := c.recipe, preset := c.planned - c.delivered, startTime := s.timestamp } } := by
  rw [State.openRecord, hrecipe, hdriver, Option.getD_some, State.lineRecords_of_assigned h]
  rfl

/-! ### The stage entered (R90, R114 to R116) -/

theorem impliedStage_of_lead {r : ArmRecord} {lead preset : Nat} (h : preset ≤ lead) :
    impliedStage r lead preset 0 = .closing := if_pos (by omega)

/-- A compartment of more than the lead begins in TOP_OFF, in HIGH_FLOW where no start volume is asked, and otherwise in
LOW_START. -/
theorem impliedStage_state {r : ArmRecord} {lead preset : Nat} (h : lead < preset) :
    (impliedStage r lead preset 0).state =
      if preset ≤ r.topOffVolume * 1000 then .topOff else if r.startVolume * 1000 ≤ 0 then .highFlow else .lowStart := by
  rw [impliedStage, if_neg (by omega), Nat.zero_add]
  repeat' split
  all_goals rfl

theorem impliedStage_ne_closing {r : ArmRecord} {lead preset : Nat} (h : lead < preset) :
    impliedStage r lead preset 0 ≠ .closing := by
  rw [impliedStage, if_neg (by omega)]
  repeat' split
  all_goals simp

theorem State.enterStage_of_ne_closing {stage : Stage} (h : stage ≠ .closing) :
    s.enterStage a stage = s.enterFlow a stage.state := by
  cases stage with
  | closing => exact absurd rfl h
  | lowStart | highFlow | topOff => rfl

theorem State.enterFlow_eq (s : State) (a : Arm) (st : ArmState) :
    s.enterFlow a st =
      { s with
        fc := s.fc.set a
          { s.fc.get a with
            state := st
            command := regulate ((s.wc.arms.get a).setpoint st) (s.wc.arms.get a).deadband (s.me.get a).rate
            pauseTimer := none
            noFlowTimer :=
              if regulate ((s.wc.arms.get a).setpoint st) (s.wc.arms.get a).deadband (s.me.get a).rate = .openValve then
                some ((s.wc.arms.get a).noFlowTime * 1000)
              else none }
        bsc := s.deadmanStarted a } := by
  unfold State.enterFlow State.deadmanStarted
  dsimp only
  cases hother : s.armFlowing a.other with
  | true =>
    rw [State.armFlowing] at hother
    simp only [hother, if_true]
    rfl
  | false =>
    rw [State.armFlowing] at hother
    simp only [hother]
    rfl

theorem ArmRecord.setpoint_of_flowing (r : ArmRecord) {st : ArmState} (h : st ∈ [ArmState.lowStart, .highFlow, .topOff]) :
    r.setpoint st = if st = .highFlow then r.highRate else r.lowRate := by
  revert h
  cases st <;> simp [ArmRecord.setpoint]

/-- The inactivity timer stands while an arm of the bay is at work (R87). -/
theorem State.refreshInactivity_of_busy (hbay : a.bay = b) (h : (s.fc.get a).state ≠ .idle) :
    s.refreshInactivity b = { s with bsc := s.bsc.modify b fun x => { x with inactivityTimer := none } } := by
  have hbusy : s.armsIdle b = false := by
    rw [State.armsIdle, List.all_eq_false]
    exact ⟨a, Bay.mem_arms_iff.mpr hbay, by simpa [State.armIdle] using h⟩
  simp only [State.refreshInactivity, hbusy, Bool.and_false, Bool.false_eq_true, if_false]
  rfl

/-- A START of more than the lead: the arm flows in `st`, its command chosen from the present rate. -/
theorem State.startArm_of_flow {st : ArmState} (ho : s.ob.orders.find n = some o)
    (hlead : (s.fc.get a).lead < (c.planned - c.delivered) * 1000)
    (hst : st = if (c.planned - c.delivered) * 1000 ≤ (s.wc.arms.get a).topOffVolume * 1000 then .topOff
      else if (s.wc.arms.get a).startVolume * 1000 ≤ 0 then .highFlow else .lowStart) :
    s.startArm b a n o c =
      { s.opened b a n o c with
        fc := s.fc.set a
          { s.fc.get a with
            state := st
            command := regulate (if st = .highFlow then (s.wc.arms.get a).highRate else (s.wc.arms.get a).lowRate)
              (s.wc.arms.get a).deadband (s.me.get a).rate
            pauseTimer := none
            noFlowTimer :=
              if regulate (if st = .highFlow then (s.wc.arms.get a).highRate else (s.wc.arms.get a).lowRate)
                  (s.wc.arms.get a).deadband (s.me.get a).rate = .openValve then
                some ((s.wc.arms.get a).noFlowTime * 1000)
              else none }
        bsc := s.deadmanStarted a } := by
  have hstage : (s.startStage a c).state = st := (impliedStage_state hlead).trans hst.symm
  have hflowing : st ∈ [ArmState.lowStart, .highFlow, .topOff] := by
    rw [hst]
    repeat' split
    all_goals simp
  have hrate : ((s.opened b a n o c).me.get a).rate = (s.me.get a).rate := by
    rw [State.opened, PerArm.get_set_self]
    rfl
  have hne : s.startStage a c ≠ .closing := impliedStage_ne_closing hlead
  rw [State.startArm_eq ho, State.enterStage_of_ne_closing hne, hstage, State.enterFlow_eq, hrate,
    ArmRecord.setpoint_of_flowing _ hflowing]
  rfl

/-- A START of no more than the lead: the arm goes straight to CLOSING, COMPLETE. -/
theorem State.startArm_of_lead (ho : s.ob.orders.find n = some o) (hidle : (s.fc.get a).state = .idle)
    (hlead : (c.planned - c.delivered) * 1000 ≤ (s.fc.get a).lead) :
    s.startArm b a n o c =
      { s.opened b a n o c with
        running := s.running.set a
          (some { s.openRecord b a n o c with
            flow := { (s.openRecord b a n o c).flow with endReason := some .complete } })
        fc := s.fc.set a
          { s.fc.get a with
            state := .closing, command := .close, closingCount := 0, closingTimer := some 10000, noFlowTimer := none
            pauseTimer := none } } := by
  have hstage : s.startStage a c = .closing := impliedStage_of_lead hlead
  have hstill : (s.opened b a n o c).armFlowing a = false := by
    show (s.fc.get a).state.flowing = false
    rw [hidle]
    rfl
  have hrunning : ((s.opened b a n o c).setEndReason a .complete).running = s.running.set a
      (some { s.openRecord b a n o c with
        flow := { (s.openRecord b a n o c).flow with endReason := some .complete } }) := by
    rw [State.setEndReason, State.modifyRunning_running, PerArm.modify, State.opened, PerArm.get_set_self, PerArm.set_set]
    rfl
  rw [State.startArm_eq ho, hstage, ← hrunning]
  exact State.enterClosing_of_not_flowing _ _ _ hstill

/-- The answer to a START that leaves its arm in `st`, from what it makes of the part with PLAN_RESET of the link cleared. -/
theorem State.answers_of_start {v : State} {r : Request} {st : ArmState}
    (h : s.asksAs (.panel b) l r 0x28#8 formTwoBytes (a.toNat, c.number)) (hbay : a.bay = b)
    (hstartable : (s.setPlanReset l false).Startable b a n o c) (hv : (s.setPlanReset l false).startArm b a n o c = v)
    (hlc : v.lc = (s.setPlanReset l false).lc) (hst : (v.fc.get a).state = st) (hbusy : st ≠ .idle) :
    s.answers (exec (.start l) s) l r .ok (natBytes 2 c.remaining ++ natBytes 1 st.code) false []
      { v with bsc := v.bsc.modify b fun x => { x with inactivityTimer := none } } := by
  have howner := startOwner_of_startable (l := l) hstartable
  rw [hv, hst] at howner
  have hlinked : s.linked (s.setPlanReset l false) l false [] := State.linked_setPlanReset (State.linked_refl s l)
  refine State.answers_of_bay h.1 h.2 howner rfl rfl (State.linked_congr hlinked hlc) ?_
  exact (if_pos rfl).trans (State.refreshInactivity_of_busy hbay (by rwa [State.accept_state, hst]))

/-- Settles O16: a START that passes every check opens the compartment and enters the stage its volume implies; and the loading
permissive condition and the serving channel member by member. -/
theorem acceptedStartOpensTheCompartment : Obligations.AcceptedStartOpensTheCompartment := by
  refine ⟨?_, fun a s => ⟨State.loadingPermissive_iff, fun lower upper hlower hupper t => ?_⟩⟩
  · intro l b r a lower upper n driver o c lines d k s hasks hloading hopen hbay hidle hk hlo hhi horder ho hc hplan hstatus
      hcancel hproduct hdriver hd hactive hlines hlower hupper hserved hpermissive hparked hstop hnotes hleft litres arm serving
      record opened
    obtain rfl := Channel.toNat_inj (hlower.trans (Arm.toNat_lowerChannel a).symm)
    obtain rfl := Channel.toNat_inj (hupper.trans (Arm.toNat_upperChannel a).symm)
    have hrecipe : s.recipeLines c = some lines := by
      cases hrec : c.recipe with
      | none =>
        simp only [hrec] at hlines
        rw [hlines]
        exact State.recipeLines_of_none hrec
      | some code =>
        simp only [hrec] at hlines
        obtain ⟨y, hy, hyproduct, rfl⟩ := hlines
        exact State.recipeLines_of_some hrec hy hyproduct
    have hassigned := fun x hx => (hserved x hx).1
    have hchecks : s.startChecks b a c = none :=
      State.startChecks_of hproduct (State.driverActive_of hdriver hd hactive) hrecipe
        (fun x hx => by rw [State.servingChannel_of_assigned (hassigned x hx)]; rfl) (fun x hx => (hserved x hx).2)
        (State.loadingPermissive_iff.mpr ⟨by rwa [hbay], hparked, hstop⟩) hnotes hleft
    have hstartable : (s.setPlanReset l false).Startable b a n o c :=
      ⟨hloading, hopen, within_iff.mpr ⟨hlo, hhi⟩, State.startArmOk_of hbay hidle hk,
        State.startCompartment_of horder ho hc hplan hstatus hcancel, hchecks⟩
    have hrecord : (s.setPlanReset l false).openRecord b a n o c = record :=
      State.openRecord_of_lines hrecipe hdriver hassigned
    have hchannels : record.lines.map LineRecord.channel = lines.map serving := List.map_map
    have hopened : (s.setPlanReset l false).opened b a n o c =
        { opened with running := s.running.set a (some record), lc := (s.setPlanReset l false).lc } := by
      rw [State.opened, hrecord, hchannels]
      rfl
    refine ⟨fun st hlead hst => ?_, fun hlead => ?_⟩
    · have harm := State.startArm_of_flow (s := s.setPlanReset l false) (b := b) ho hlead hst
      have hbusy : st ≠ .idle := by
        rw [hst]
        repeat' split
        all_goals simp
      rw [hopened] at harm
      exact State.answers_of_start hasks hbay hstartable harm rfl (by rw [PerArm.get_set_self]) hbusy
    · have harm := State.startArm_of_lead (s := s.setPlanReset l false) (b := b) ho hidle hlead
      rw [hopened, hrecord] at harm
      exact State.answers_of_start hasks hbay hstartable harm rfl (by rw [PerArm.get_set_self]) (by simp)
  · obtain rfl := Channel.toNat_inj (hlower.trans (Arm.toNat_lowerChannel a).symm)
    obtain rfl := Channel.toNat_inj (hupper.trans (Arm.toNat_upperChannel a).symm)
    rfl

end Sys2Proof.Machine
end

section
/-! What a step can do to the records, the driver bindings, the note slots and the Order Table's form, whatever the command: a chain
of a few kinds of moves. The laws of these blocks are then kept move by move (R37, R39, R149, R163, R164). -/

namespace Sys2Proof.Machine

variable {s t u : State} {a : Arm} {b : Bay} {w : NvRecords} {q : List NvEntry} {c : NvContents} {k m : Nat}

/-! ### The records and the entries that wait -/

/-- The entries that wait to be written, in the order of their writes: the write buffer's, then the queue's. -/
def NvController.waiting (n : NvController) : List NvEntry := n.buffer.toList ++ n.queue

/-- What a reset rebuilds is the store with the waiting entries written in their order (R163). -/
theorem NvController.rebuilt_eq (n : NvController) : n.rebuilt = n.store.writeAll n.waiting := rfl

/-- From `s` to `t` the working copies become `w`, the live stock aside, and the queue `q`, but that the NVC may have begun the write of
its oldest entry; the store stays. -/
structure State.Books (s t : State) (w : NvRecords) (q : List NvEntry) : Prop where
  records : t.wc = { w with stock := t.wc.stock }
  store : t.nvc.store = s.nvc.store
  waiting : t.nvc.waiting = s.nvc.buffer.toList ++ q
  queue : t.nvc.queue <:+ q

theorem State.Books.of_eq (wc : t.wc = s.wc) (nvc : t.nvc = s.nvc) : s.Books t s.wc s.nvc.queue :=
  ⟨by rw [wc], by rw [nvc], by rw [nvc]; rfl, by rw [nvc]⟩

theorem State.Books.trans (h : s.Books t w q) (h' : t.Books u t.wc t.nvc.queue) : s.Books u w q :=
  ⟨by rw [h'.records, h.records], h'.store.trans h.store, h'.waiting.trans h.waiting, h'.queue.trans h.queue⟩

/-- The next write begun takes at most the oldest entry into the buffer. -/
theorem NvController.advance_waiting (n : NvController) (arms : List Arm) :
    (n.advance arms).store = n.store ∧ (n.advance arms).waiting = n.waiting ∧ (n.advance arms).queue <:+ n.queue := by
  have hcp : ∀ l, (n.checkpointNext l).store = n.store ∧ (n.checkpointNext l).waiting = n.waiting
      ∧ (n.checkpointNext l).queue <:+ n.queue := fun l => by cases l <;> exact ⟨rfl, rfl, List.suffix_rfl⟩
  have htake : ∀ e l, n.buffer = none → n.queue = e :: l →
      ({ n with buffer := some e, queue := l } : NvController).waiting = n.waiting ∧ l <:+ n.queue := fun e l hb hq => by
    simp [NvController.waiting, hb, hq]
  unfold NvController.advance
  split
  · exact ⟨rfl, rfl, List.suffix_rfl⟩
  · rename_i hfree
    have hb : n.buffer = none := by
      cases hb : n.buffer
      · rfl
      · simp [hb] at hfree
    split
    · exact ⟨rfl, rfl, List.suffix_rfl⟩
    · split
      · rename_i e l _ hq; exact ⟨rfl, htake e l hb hq⟩
      · exact ⟨rfl, rfl, List.suffix_rfl⟩
      · rename_i e l _ hq; exact ⟨rfl, htake e l hb hq⟩
      · exact hcp _
      · exact hcp _
      · exact ⟨rfl, rfl, List.suffix_rfl⟩

/-- A commit writes the working copy and hands the entry to the queue. -/
theorem State.books_commit (s : State) (c : NvContents) (cls : EntryClass) :
    s.Books (s.commit c cls) (s.wc.write c) (enqueue s.nvc.queue { contents := c, cls := cls }) := by
  refine ⟨by simp, ?_, ?_, ?_⟩ <;> rw [State.commit_nvc] <;> split
  all_goals first
    | exact (NvController.advance_waiting _ _).1
    | exact (NvController.advance_waiting _ _).2.1
    | exact (NvController.advance_waiting _ _).2.2
    | rfl

/-! ### What else the laws speak of -/

/-- From `s` to `t` the keyed tables outside the records keep their form, no driver is bound or unbound, a bay with a driver becomes
neither LOCKED nor OUT_OF_SERVICE, no note slot is reserved, and a reservation is returned only with its arm IDLE; an arm without one
stays IDLE. -/
structure State.Aside (s t : State) : Prop where
  orders : s.ob.orders.wf = true → t.ob.orders.wf = true
  bound : t.pt = s.pt
  driver : ∀ b, (t.bsc.get b).driver = (s.bsc.get b).driver
  status : ∀ b, ((t.bsc.get b).status = .locked ∨ (t.bsc.get b).status = .outOfService) →
    ((s.bsc.get b).status = .locked ∨ (s.bsc.get b).status = .outOfService) ∨ (s.bsc.get b).driver = none
  fewer : ∀ a, t.ns.reserved.get a = true → s.ns.reserved.get a = true
  kept : ∀ a, t.armIdle a = false → s.ns.reserved.get a = true → t.ns.reserved.get a = true
  idle : ∀ a, t.armIdle a = false → s.armIdle a = false ∨ s.ns.reserved.get a = true

theorem State.Aside.trans (h : s.Aside t) (h' : t.Aside u) : s.Aside u where
  orders := fun hw => h'.orders (h.orders hw)
  bound := h'.bound.trans h.bound
  driver := fun b => (h'.driver b).trans (h.driver b)
  status := fun b hb => by
    rcases h'.status b hb with ht | ht
    · exact h.status b ht
    · exact Or.inr ((h.driver b).symm.trans ht)
  fewer := fun a ha => h.fewer a (h'.fewer a ha)
  kept := fun a ha hs => by
    rcases h'.idle a ha with ht | ht
    · exact h'.kept a ha (h.kept a ht hs)
    · exact h'.kept a ha ht
  idle := fun a ha => by
    rcases h'.idle a ha with ht | ht
    · exact h.idle a ht
    · exact Or.inr (h.fewer a ht)

theorem State.Aside.refl (s : State) : s.Aside s where
  orders := id
  bound := rfl
  driver := fun _ => rfl
  status := fun _ => Or.inl
  fewer := fun _ => id
  kept := fun _ _ => id
  idle := fun _ => Or.inl

/-- The records and all that `State.Aside` names stay. -/
structure State.Still (s t : State) : Prop where
  books : s.Books t s.wc s.nvc.queue
  aside : s.Aside t

theorem State.Still.trans (h : s.Still t) (h' : t.Still u) : s.Still u :=
  ⟨h.books.trans h'.books, h.aside.trans h'.aside⟩

/-- Blocks that are the same change nothing of what the laws speak of. -/
theorem State.Aside.of_eq (pt : t.pt = s.pt := by simp) (ob : t.ob = s.ob := by simp) (bsc : t.bsc = s.bsc := by simp)
    (fc : t.fc = s.fc := by simp) (reserved : t.ns.reserved = s.ns.reserved := by simp) : s.Aside t where
  orders := by rw [ob]; exact id
  bound := pt
  driver := by rw [bsc]; exact fun _ => rfl
  status := by rw [bsc]; exact fun _ => Or.inl
  fewer := by rw [reserved]; exact fun _ => id
  kept := by rw [reserved]; exact fun _ _ => id
  idle := fun a => by rw [State.armIdle, State.armIdle, fc]; exact Or.inl

theorem State.Still.of_eq (wc : t.wc = s.wc := by simp) (pt : t.pt = s.pt := by simp) (ob : t.ob = s.ob := by simp)
    (bsc : t.bsc = s.bsc := by simp) (fc : t.fc = s.fc := by simp) (reserved : t.ns.reserved = s.ns.reserved := by simp)
    (nvc : t.nvc = s.nvc := by simp) : s.Still t :=
  ⟨State.Books.of_eq wc nvc, State.Aside.of_eq pt ob bsc fc reserved⟩

theorem State.Still.refl (s : State) : s.Still s := State.Still.of_eq

theorem State.still_advanceNv (s : State) : s.Still s.advanceNv := by
  refine ⟨?_, State.Aside.of_eq⟩
  unfold State.advanceNv
  split
  · obtain ⟨hstore, hwaiting, hqueue⟩ := s.nvc.advance_waiting s.armsNotIdle
    exact ⟨rfl, hstore, hwaiting, hqueue⟩
  · exact State.Books.of_eq rfl rfl

/-! ### Moves of one arm -/

/-- From `s` to `t` only arm `a`'s flow changes, with what its shots, its bay's dead-man timer and the flags follow: the bays' states
and drivers, the reservations, the records and the other arms stay. -/
structure State.OnArm (a : Arm) (s t : State) : Prop where
  wc : t.wc = s.wc
  pt : t.pt = s.pt
  ob : t.ob = s.ob
  nvc : t.nvc = s.nvc
  reserved : t.ns.reserved = s.ns.reserved
  driver : ∀ b, (t.bsc.get b).driver = (s.bsc.get b).driver
  status : ∀ b, (t.bsc.get b).status = (s.bsc.get b).status
  others : ∀ x, x ≠ a → t.fc.get x = s.fc.get x

theorem State.OnArm.trans (h : State.OnArm a s t) (h' : State.OnArm a t u) : State.OnArm a s u where
  wc := h'.wc.trans h.wc
  pt := h'.pt.trans h.pt
  ob := h'.ob.trans h.ob
  nvc := h'.nvc.trans h.nvc
  reserved := h'.reserved.trans h.reserved
  driver := fun b => (h'.driver b).trans (h.driver b)
  status := fun b => (h'.status b).trans (h.status b)
  others := fun x hx => (h'.others x hx).trans (h.others x hx)

theorem State.OnArm.of_eq (wc : t.wc = s.wc := by simp) (pt : t.pt = s.pt := by simp) (ob : t.ob = s.ob := by simp)
    (bsc : t.bsc = s.bsc := by simp) (fc : t.fc = s.fc := by simp) (reserved : t.ns.reserved = s.ns.reserved := by simp)
    (nvc : t.nvc = s.nvc := by simp) : State.OnArm a s t :=
  ⟨wc, pt, ob, nvc, reserved, by simp [bsc], by simp [bsc], by simp [fc]⟩

theorem State.OnArm.refl (s : State) : State.OnArm a s s := State.OnArm.of_eq

/-- Where an arm that was IDLE without a reservation stays IDLE, the laws' blocks stay. -/
theorem State.OnArm.still (h : State.OnArm a s t)
    (hidle : t.armIdle a = false → s.armIdle a = false ∨ s.ns.reserved.get a = true) : s.Still t := by
  refine ⟨State.Books.of_eq h.wc h.nvc, ?_⟩
  exact
    { orders := by rw [h.ob]; exact id
      bound := h.pt
      driver := h.driver
      status := fun b => by rw [h.status]; exact Or.inl
      fewer := by rw [h.reserved]; exact fun _ => id
      kept := by rw [h.reserved]; exact fun _ _ => id
      idle := fun x hx => by
        by_cases hxa : x = a
        · subst hxa; exact hidle hx
        · rw [State.armIdle, h.others x hxa] at hx
          exact Or.inl hx }

theorem State.OnArm.ite {p : Prop} [Decidable p] (h : State.OnArm a s t) (h' : State.OnArm a s u) :
    State.OnArm a s (if p then t else u) := by split <;> assumption

theorem State.OnArm.modifyFc (h : State.OnArm a s t) (f : FlowController → FlowController) : State.OnArm a s (t.modifyFc a f) :=
  h.trans ⟨rfl, rfl, rfl, rfl, rfl, fun _ => rfl, fun _ => rfl, fun _ hx => PerArm.get_modify_of_ne _ _ hx⟩

/-- A change of a bay that keeps its driver and its state. -/
theorem State.OnArm.modifyBay (h : State.OnArm a s t) (b : Bay) {f : BayController → BayController}
    (hf : ∀ x, (f x).driver = x.driver ∧ (f x).status = x.status := by exact fun _ => ⟨rfl, rfl⟩) :
    State.OnArm a s (t.modifyBay b f) := by
  refine h.trans ⟨rfl, rfl, rfl, rfl, rfl, fun x => ?_, fun x => ?_, fun _ _ => rfl⟩ <;>
    simp only [State.modifyBay_bsc, PerBay.get_modify] <;> split
  exacts [(hf _).1, rfl, (hf _).2, rfl]

theorem State.OnArm.flowLeft (h : State.OnArm a s t) : State.OnArm a s (t.flowLeft a) :=
  (h.trans (State.OnArm.of_eq : State.OnArm a t (t.dosingLeft a))).modifyBay _ fun x => by split <;> exact ⟨rfl, rfl⟩

theorem State.OnArm.raiseFlag (h : State.OnArm a s t) (e : FlagEvent) : State.OnArm a s (t.raiseFlag e) := h.trans State.OnArm.of_eq

theorem State.OnArm.cutShots (h : State.OnArm a s t) (cut : Channel → Bool) : State.OnArm a s (t.cutShots cut) :=
  h.trans State.OnArm.of_eq

theorem State.OnArm.modifyRunning (h : State.OnArm a s t) (b : Arm) (f : Running → Running) :
    State.OnArm a s (t.modifyRunning b f) := h.trans State.OnArm.of_eq

theorem State.OnArm.setHeld (h : State.OnArm a s t) (held : PerArm Bool) :
    State.OnArm a s (t.setNs { t.ns with held := held }) := h.trans State.OnArm.of_eq

theorem State.OnArm.setEndReason (h : State.OnArm a s t) (r : EndReason) : State.OnArm a s (t.setEndReason a r) :=
  h.modifyRunning a _

theorem State.OnArm.enterClosing (h : State.OnArm a s t) (r : EndReason) : State.OnArm a s (t.enterClosing a r) :=
  State.OnArm.ite ((h.modifyFc _).setEndReason r).flowLeft ((h.modifyFc _).setEndReason r)

theorem State.OnArm.enterPaused (h : State.OnArm a s t) : State.OnArm a s (t.enterPaused a) := (h.modifyFc _).flowLeft

theorem State.OnArm.enterEnding (h : State.OnArm a s t) : State.OnArm a s (t.enterEnding a) :=
  State.OnArm.ite ((h.modifyFc _).setHeld _) (h.modifyFc _)

theorem State.OnArm.raiseCause (h : State.OnArm a s t) (cause : StopCause) : State.OnArm a s (t.raiseCause a cause) := by
  have hjoined : State.OnArm a s (((t.modifyFc a fun y => { y with causes := joinCause cause y.causes }).raiseFlag
      (.causeRaised a)).cutShots fun k => k.arm = a) := ((h.modifyFc _).raiseFlag _).cutShots _
  unfold State.raiseCause
  refine State.OnArm.ite h ?_
  dsimp only
  split
  case h_1 | h_2 | h_3 | h_4 => exact hjoined.enterClosing _
  case h_5 | h_6 | h_7 => exact hjoined.enterPaused
  case h_8 => exact hjoined

theorem State.OnArm.raiseCauses (h : State.OnArm a s t) (causes : List StopCause) : State.OnArm a s (t.raiseCauses a causes) := by
  unfold State.raiseCauses
  induction causes generalizing t with
  | nil => exact h
  | cons cause rest ih => exact ih (h.raiseCause cause)

theorem State.OnArm.enterFlow (h : State.OnArm a s t) (st : ArmState) : State.OnArm a s (t.enterFlow a st) :=
  State.OnArm.ite (h.modifyFc _) ((h.modifyFc _).modifyBay _)

theorem State.OnArm.enterStage (h : State.OnArm a s t) (stage : Stage) : State.OnArm a s (t.enterStage a stage) := by
  cases stage
  case closing => exact h.enterClosing _
  all_goals exact h.enterFlow _

theorem State.OnArm.stageArm (h : State.OnArm a s t) : State.OnArm a s (t.stageArm a) := by
  unfold State.stageArm
  split
  · refine State.OnArm.ite ?_ h
    split
    · exact h.enterClosing _
    all_goals exact h.modifyFc _
  · exact h

theorem State.OnArm.endClosing (h : State.OnArm a s t) : State.OnArm a s (t.endClosing a) := by
  unfold State.endClosing
  split
  · refine State.OnArm.enterEnding (State.OnArm.ite (State.OnArm.modifyFc ?_ _) ?_) <;>
      exact State.OnArm.ite ((h.modifyRunning _ _).raiseFlag _) h
  · exact h.enterEnding

theorem State.OnArm.countClosing (h : State.OnArm a s t) (n : Nat) : State.OnArm a s (t.countClosing a n) :=
  State.OnArm.ite (h.modifyFc _).endClosing (h.modifyFc _)

theorem State.OnArm.flowInterval (h : State.OnArm a s t) (n : Nat) (causes : List StopCause) :
    State.OnArm a s (t.flowInterval a n causes) := by
  have hraised := h.raiseCauses causes
  unfold State.flowInterval
  split
  case h_1 => exact h
  case h_5 => exact hraised.countClosing n
  case h_6 | h_7 => exact hraised
  all_goals exact State.OnArm.ite (hraised.stageArm.modifyFc _) hraised.stageArm

/-! ### What an arm's flow leaves still -/

theorem State.armIdle_iff : s.armIdle a = true ↔ (s.fc.get a).state = .idle := decide_eq_true_iff

theorem State.armIdle_eq_false_iff : s.armIdle a = false ↔ (s.fc.get a).state ≠ .idle := decide_eq_false_iff_not

theorem State.still_raiseCause (s : State) (a : Arm) (cause : StopCause) : s.Still (s.raiseCause a cause) := by
  by_cases h : s.armIdle a = true
  · rw [State.raiseCause_of_held (Or.inl (State.armIdle_iff.mp h))]
    exact State.Still.refl s
  · exact ((State.OnArm.refl s).raiseCause cause).still fun _ => Or.inl (by simpa using h)

theorem State.still_raiseOn (s : State) (arms : List Arm) (cause : StopCause) : s.Still (s.raiseOn arms cause) := by
  unfold State.raiseOn
  induction arms generalizing s with
  | nil => exact State.Still.refl s
  | cons a rest ih => exact (s.still_raiseCause a cause).trans (ih _)

theorem State.still_raiseCauses (s : State) (a : Arm) (causes : List StopCause) : s.Still (s.raiseCauses a causes) := by
  unfold State.raiseCauses
  induction causes generalizing s with
  | nil => exact State.Still.refl s
  | cons cause rest ih => exact (s.still_raiseCause a cause).trans (ih _)

theorem State.still_flowInterval (s : State) (a : Arm) (n : Nat) (causes : List StopCause) :
    s.Still (s.flowInterval a n causes) := by
  by_cases h : (s.fc.get a).state = .idle
  · rw [State.flowInterval_of_idle h]
    exact State.Still.refl s
  · exact ((State.OnArm.refl s).flowInterval n causes).still fun _ => Or.inl (State.armIdle_eq_false_iff.mpr h)

end Sys2Proof.Machine
end

section
/-! The moves a command is made of. -/

namespace Sys2Proof.Machine

variable {s t u : State} {a : Arm} {b : Bay} {w : NvRecords} {q : List NvEntry} {c : NvContents} {k m : Nat}

/-! ### The moves -/

/-- What may be committed without a note: a driver in step with the attempt limit where the others are, a limit that every driver is in
step with, the release of the oldest note, and every other record. -/
def State.admits (s : State) : NvContents → Prop
  | .driver _ (some d) => s.attemptLaw → d.inStep s.wc.rack.attemptLimit = true
  | .rack r => 1 ≤ r.attemptLimit ∧ ∀ e ∈ s.wc.drivers, e.2.inStep r.attemptLimit = true
  | .release n => ∃ oldest rest, s.wc.notes = oldest :: rest ∧ oldest.number = n
  | .note _ _ => False
  | .driver _ none | .product _ _ | .recipe _ _ | .arm _ _ | .injector _ _ | .pump _ _ | .bayService _ _ | .audit _ | .stock _
  | .totals _ _ => True

/-- The moves from which every command but a reset is made, with the number of notes each makes. -/
inductive State.Move : Nat → State → State → Prop
  | still {s t : State} (h : s.Still t) : Move 0 s t
  | enter {s t : State} (c : NvContents) (cls : EntryClass) (h : s.admits c)
      (books : s.Books t (s.wc.write c) (enqueue s.nvc.queue { contents := c, cls := cls })) (aside : s.Aside t) : Move 0 s t
  | note {s t : State} (a : Arm) (n : NoteRecord) (cls : EntryClass) (hnumber : n.number = s.wc.nextNote)
      (hworks : s.armIdle a = false)
      (books : s.Books t (s.wc.write (.note n (noteNumberAfter n.number)))
        (enqueue s.nvc.queue { contents := .note n (noteNumberAfter n.number), cls := cls }))
      (aside : s.Aside t) (hreturned : t.ns.reserved.get a = false) : Move 1 s t
  | bind {s : State} (b : Bay) (n : Nat) (hlocked : (s.bsc.get b).status = .locked) (hfree : s.boundBay n = none) :
      Move 0 s (s.bindDriver b n)
  | unbind {s : State} (b : Bay) : Move 0 s (s.unbind b)
  | written {s : State} (e : NvEntry) (h : s.nvc.buffer = some e) :
      Move 0 s (s.setNvc { s.nvc with store := s.nvc.store.write e.contents, buffer := none })
  | reserve {s : State} (a : Arm) (h : s.notesHeld + s.reservations < Config.maxNotes) :
      Move 0 s (s.setNs { s.ns with reserved := s.ns.reserved.set a true })

/-- Moves in turn, with the number of notes they make. -/
inductive State.Chain (s : State) : Nat → State → Prop
  | refl : Chain s 0 s
  | step {k m : Nat} {t u : State} (h : Chain s k t) (h' : State.Move m t u) : Chain s (k + m) u

theorem State.Chain.still (h : s.Chain k t) (h' : t.Still u) : s.Chain k u := h.step (.still h')

theorem State.Chain.trans (h : s.Chain k t) (h' : t.Chain m u) : s.Chain (k + m) u := by
  induction h' with
  | refl => exact h
  | step _ hmove ih => rw [← Nat.add_assoc]; exact ih.step hmove

/-- A property that every move keeps is kept by the moves in turn. -/
theorem State.Chain.keeps {P : State → Prop} (h : s.Chain k t) (hs : P s) (hmove : ∀ {m s t}, State.Move m s t → P s → P t) :
    P t := by
  induction h with
  | refl => exact hs
  | step _ h' ih => exact hmove h' ih

theorem State.Chain.commit (h : s.Chain k t) {c : NvContents} (hc : t.admits c) (cls : EntryClass) :
    s.Chain k (t.commit c cls) :=
  h.step (.enter c cls hc (t.books_commit c cls) State.Aside.of_eq)

theorem State.Chain.unbind (h : s.Chain k t) (b : Bay) : s.Chain k (t.unbind b) := h.step (.unbind b)

theorem State.Chain.ite {p : Prop} [Decidable p] (h : p → s.Chain k t) (h' : ¬p → s.Chain k u) :
    s.Chain k (if p then t else u) := by
  split
  · exact h (by assumption)
  · exact h' (by assumption)

/-! ### Sessions and orders -/

theorem State.Chain.raiseFlag (h : s.Chain k t) (e : FlagEvent) : s.Chain k (t.raiseFlag e) := h.still State.Still.of_eq

theorem State.Chain.modifyLink (h : s.Chain k t) (l : Link) (f : StationLink → StationLink) : s.Chain k (t.modifyLink l f) :=
  h.still State.Still.of_eq

theorem State.Chain.modifyFc (h : s.Chain k t) (a : Arm) {f : FlowController → FlowController}
    (hf : ∀ x, x.state = .idle → (f x).state = .idle := by exact fun _ => id) : s.Chain k (t.modifyFc a f) := by
  refine h.still (((State.OnArm.refl t).modifyFc f).still fun hworks => Or.inl ?_)
  rw [State.armIdle_eq_false_iff] at hworks ⊢
  exact fun hs => hworks (by simpa using hf _ hs)

theorem State.Chain.modifyBay (h : s.Chain k t) (b : Bay) {f : BayController → BayController}
    (hf : ∀ x, (f x).driver = x.driver ∧ (f x).status = x.status := by exact fun _ => ⟨rfl, rfl⟩) :
    s.Chain k (t.modifyBay b f) :=
  h.still (((State.OnArm.refl (a := .arm0) t).modifyBay b hf).still Or.inl)

/-- The Order Table replaced by one in its canonical form. -/
theorem State.Chain.setOrders (h : s.Chain k t) {orders : Assoc Order} (hwf : t.ob.orders.wf = true → orders.wf = true) :
    s.Chain k (t.setOrders orders) :=
  h.still ⟨State.Books.of_eq rfl rfl, { State.Aside.refl t with orders := hwf }⟩

theorem State.Chain.modifyOrder (h : s.Chain k t) (n : Nat) (f : Order → Order) : s.Chain k (t.modifyOrder n f) := by
  unfold State.modifyOrder
  split
  · exact h.setOrders fun hwf => Assoc.wf_put hwf _ _
  · exact h

theorem State.Chain.refreshInactivity (h : s.Chain k t) (b : Bay) : s.Chain k (t.refreshInactivity b) :=
  h.modifyBay b

theorem State.Chain.resetSelection (h : s.Chain k t) (b : Bay) (l : Link) : s.Chain k (t.resetSelection b l) :=
  (h.modifyBay b).modifyLink l _

theorem State.Chain.dropOrder (h : s.Chain k t) (b : Bay) : s.Chain k (t.dropOrder b) := h.modifyBay b

theorem State.Chain.releaseOrder (h : s.Chain k t) (b : Bay) : s.Chain k (t.releaseOrder b) := by
  unfold State.releaseOrder
  split
  · exact (h.modifyOrder _ _).modifyBay b
  · exact h

theorem State.Chain.deadmanCauseLeft (h : s.Chain k t) (b : Bay) : s.Chain k (t.deadmanCauseLeft b) :=
  .ite (fun _ => h) fun _ => h.modifyBay b

/-- A bay moves to LOCKED or OUT_OF_SERVICE from the other of these, or without a driver. -/
theorem State.Chain.moveBay (h : s.Chain k t) (b : Bay) {st : BayStatus}
    (hst : (st = .locked ∨ st = .outOfService) →
      ((t.bsc.get b).status = .locked ∨ (t.bsc.get b).status = .outOfService) ∨ (t.bsc.get b).driver = none) :
    s.Chain k (t.moveBay b st) := by
  refine .ite (fun _ => h) fun _ => State.Chain.raiseFlag ?_ _
  refine h.still ⟨State.Books.of_eq rfl rfl, ?_⟩
  refine { State.Aside.refl t with driver := fun x => ?_, status := fun x hx => ?_ }
  · rw [State.modifyBay_bsc, PerBay.get_modify]
    split <;> rfl
  · rw [State.modifyBay_bsc, PerBay.get_modify] at hx
    split at hx
    · rename_i hxb
      subst hxb
      exact hst hx
    · exact Or.inl hx

/-- A bay moves to a state in which it may have a driver. -/
theorem State.Chain.moveBay_manned (h : s.Chain k t) (b : Bay) {st : BayStatus} (hst : st ∉ [BayStatus.locked, .outOfService]) :
    s.Chain k (t.moveBay b st) := h.moveBay b fun hx => absurd hx (by simpa using hst)

/-- After an unbinding the bay has no driver. -/
theorem State.unbind_driver (s : State) (b : Bay) : ((s.unbind b).bsc.get b).driver = none := by
  unfold State.unbind
  split
  · simp
  · assumption

/-- A bay whose driver is unbound moves to LOCKED or OUT_OF_SERVICE. -/
theorem State.Chain.leaveUnbound (h : s.Chain k t) (b : Bay) {f : BayController → BayController} (dest : BayStatus)
    (hf : ∀ x, (f x).driver = x.driver ∧ (f x).status = x.status := by exact fun _ => ⟨rfl, rfl⟩) :
    s.Chain k (((t.unbind b).modifyBay b f).moveBay b dest) := by
  refine ((h.unbind b).modifyBay b hf).moveBay b fun _ => Or.inr ?_
  rw [State.modifyBay_bsc, PerBay.get_modify_self, (hf _).1]
  exact t.unbind_driver b

theorem State.Chain.closeSession (h : s.Chain k t) (b : Bay) (dest : BayStatus) : s.Chain k (t.closeSession b dest) :=
  (h.releaseOrder b).leaveUnbound b dest

theorem State.Chain.abandonIdent (h : s.Chain k t) (b : Bay) : s.Chain k (t.abandonIdent b) :=
  h.leaveUnbound b .locked

/-! ### The hand-over -/

theorem State.Chain.completeCancellation (h : s.Chain k t) (n : Nat) : s.Chain k (t.completeCancellation n) := by
  unfold State.completeCancellation
  split
  · refine .ite (fun _ => ?_) fun _ => h
    have hcancelled := h.modifyOrder n Order.cancelled
    split
    · have hdropped := hcancelled.dropOrder (by assumption)
      exact .ite (fun _ => hdropped) fun _ => (hdropped.moveBay_manned _ (by decide)).refreshInactivity _
    · exact hcancelled
  · exact h

theorem State.Chain.armReachedIdle (h : s.Chain k t) (b : Bay) : s.Chain k (t.armReachedIdle b) :=
  .ite
    (fun _ => .ite (fun _ => h.closeSession b _) fun _ => .ite (fun _ => h.refreshInactivity b) fun _ => h)
    fun _ => h

/-- What a hand-over leaves aside from the records: the arm IDLE, and its slot's reservation returned. -/
theorem State.Aside.of_returned (a : Arm) (orders : s.ob.orders.wf = true → t.ob.orders.wf = true) (pt : t.pt = s.pt)
    (bsc : t.bsc = s.bsc) (fc : t.fc = s.fc.modify a FlowController.handedOver)
    (reserved : t.ns.reserved = s.ns.reserved.set a false) : s.Aside t := by
  have hne : ∀ x, t.armIdle x = false → x ≠ a := by
    rintro x hx rfl
    simp [State.armIdle, fc, FlowController.handedOver] at hx
  refine { State.Aside.refl s with
    orders := orders, bound := pt, driver := by simp [bsc], status := by simp only [bsc]; exact fun _ => Or.inl
    fewer := fun x hx => ?_, kept := fun x hx hs => ?_, idle := fun x hx => Or.inl ?_ }
  · rw [reserved, PerArm.get_set] at hx
    split at hx
    · exact absurd hx (by simp)
    · exact hx
  · rwa [reserved, PerArm.get_set_of_ne _ _ (hne x hx)]
  · have hxa := hne x hx
    rwa [State.armIdle, fc, PerArm.get_modify_of_ne _ _ hxa] at hx

theorem State.armToIdle_reserved (s : State) (a : Arm) : (s.armToIdle a).ns.reserved = s.ns.reserved := by
  simp [State.armToIdle]

theorem State.armToIdle_fc (s : State) (a : Arm) : (s.armToIdle a).fc = s.fc.modify a FlowController.handedOver := by
  simp [State.armToIdle]

theorem State.modifyOrder_wf {n : Nat} (f : Order → Order) (h : s.ob.orders.wf = true) :
    (s.modifyOrder n f).ob.orders.wf = true := by
  unfold State.modifyOrder
  split
  · exact Assoc.wf_put h _ _
  · exact h

/-- A compartment with nothing delivered returns its arm's reservation. -/
theorem State.still_return (s : State) (a : Arm) (n : Nat) (f : Order → Order) :
    s.Still (((s.setNs { s.ns with reserved := s.ns.reserved.set a false }).modifyOrder n f).armToIdle a) := by
  refine ⟨State.Books.of_eq (by simp) (by simp), State.Aside.of_returned a ?_ (by simp) (by simp) ?_ ?_⟩
  · rw [State.armToIdle_ob]
    exact fun h => State.modifyOrder_wf f h
  · simp [State.armToIdle_fc]
  · simp [State.armToIdle_reserved]

/-- The state with other Flow Controllers: a hand-over's, while its note's entries join the queue, with its arm counted as IDLE. -/
def State.withFc (s : State) (fc : PerArm FlowController) : State := { s with fc := fc }

theorem State.Chain.commit_withFc {fc : PerArm FlowController} (h : s.Chain k (t.withFc fc)) {c : NvContents}
    (hc : (t.withFc fc).admits c) (cls : EntryClass) : s.Chain k ((t.commit c cls).withFc fc) := by
  obtain ⟨hrecords, hstore, hwaiting, hqueue⟩ := t.books_commit c cls
  have haside : (t.withFc fc).Aside ((t.commit c cls).withFc fc) :=
    State.Aside.of_eq (t.commit_pt c cls) (t.commit_ob c cls) (t.commit_bsc c cls) rfl
      (congrArg NoteStore.reserved (t.commit_ns c cls))
  exact h.step (.enter (t := (t.commit c cls).withFc fc) c cls hc ⟨hrecords, hstore, hwaiting, hqueue⟩ haside)

/-- A note and its arm's totals and the stock enter, and the reservation is returned, while the arm becomes IDLE. -/
theorem State.Chain.addNote (h : s.Chain k t) (a : Arm) {n : NoteRecord} (hnumber : n.number = t.wc.nextNote)
    (hworks : t.armIdle a = false) :
    s.Chain (k + 1) ((t.addNote a n).withFc (t.fc.modify a FlowController.handedOver)) := by
  have hparts := t.noted_parts a n
  rw [State.addNote_eq]
  generalize t.noted a n = v at hparts ⊢
  obtain ⟨hrecords, hstore, hwaiting, hqueue⟩ := v.books_commit (.note n (noteNumberAfter n.number)) .endClass
  have hwc : v.wc = t.wc := by rw [hparts]
  have hnvc : v.nvc = t.nvc := by rw [hparts]
  rw [hwc] at hrecords
  rw [hnvc] at hstore hwaiting hqueue
  have hentered : s.Chain (k + 1)
      ((v.commit (.note n (noteNumberAfter n.number)) .endClass).withFc (t.fc.modify a FlowController.handedOver)) := by
    refine h.step (.note a n .endClass hnumber hworks ⟨hrecords, hstore, hwaiting, hqueue⟩
      (State.Aside.of_returned a ?_ ?_ ?_ rfl ?_) ?_)
    · rw [State.withFc, State.commit_ob, hparts]; exact id
    · rw [State.withFc, State.commit_pt, hparts]
    · rw [State.withFc, State.commit_bsc, hparts]
    · rw [State.withFc, State.commit_ns, hparts]
    · rw [State.withFc, State.commit_ns, hparts]; exact PerArm.get_set_self ..
  exact (hentered.commit_withFc (c := .totals _ _) trivial .endClass).commit_withFc (c := .stock _) trivial .endClass

/-- A compartment with a note handed over: the note, its arm's totals and the stock enter, and the arm returns to IDLE. -/
theorem State.Chain.note (h : s.Chain k t) (a : Arm) {n : NoteRecord} (m : Nat) (f : Order → Order)
    (hnumber : n.number = t.wc.nextNote) (hworks : t.armIdle a = false) : s.Chain (k + 1) (((t.addNote a n).modifyOrder m f).armToIdle a) := by
  refine (h.addNote a hnumber hworks).still ?_
  have hfc : (t.addNote a n).fc = t.fc := by simp
  generalize t.addNote a n = v at hfc ⊢
  have hidle : (((v.modifyOrder m f).armToIdle a).fc) = (v.withFc (t.fc.modify a FlowController.handedOver)).fc := by
    rw [State.armToIdle_fc, State.modifyOrder_fc, hfc, State.withFc]
  have hreserved : ((v.modifyOrder m f).armToIdle a).ns.reserved = v.ns.reserved := by
    rw [State.armToIdle_reserved, State.modifyOrder_ns]
  have hstill : (v.withFc (t.fc.modify a FlowController.handedOver)).Still
      ((v.withFc (t.fc.modify a FlowController.handedOver)).setOrders ((v.modifyOrder m f).armToIdle a).ob.orders) := by
    refine ⟨State.Books.of_eq rfl rfl, { State.Aside.refl (v.withFc _) with orders := ?_ }⟩
    rw [State.setOrders, State.armToIdle_ob]
    exact State.modifyOrder_wf (s := v) f
  exact hstill.trans (State.Still.of_eq (by simp [State.withFc]) (by simp [State.withFc]) rfl (by simp [State.withFc]) hidle
    hreserved (by simp [State.withFc]))

/-- What a command does: moves in turn, with at most four notes, one of each arm. -/
def State.Does (s t : State) : Prop := ∃ k ≤ 4, s.Chain k t

theorem State.Chain.handOver (h : s.Chain k t) (hworks : t.armIdle a = false) : ∃ m ≤ k + 1, s.Chain m (t.handOver a) := by
  unfold State.handOver
  split
  · rename_i r _
    obtain ⟨m, hm, htaken⟩ : ∃ m ≤ k + 1, s.Chain m ((t.takeCompartment a r).armToIdle a) := by
      unfold State.takeCompartment
      split
      · exact ⟨k, by omega, h.still (t.still_return a _ _)⟩
      · exact ⟨k + 1, le_rfl, h.note a _ _ rfl hworks⟩
    have hcancelled := htaken.completeCancellation r.flow.order
    refine ⟨m, hm, State.Chain.armReachedIdle (State.Chain.modifyBay ?_ _) _⟩
    exact .ite (fun _ => hcancelled.deadmanCauseLeft _) fun _ => hcancelled
  · exact ⟨k, by omega, h⟩

theorem State.handOverReady_works (h : s.handOverReady a = true) : s.armIdle a = false := by
  have hending : (s.fc.get a).state = .ending := by
    unfold State.handOverReady at h
    simp only [Bool.and_eq_true, decide_eq_true_eq] at h
    obtain ⟨⟨⟨⟨⟨_, hending⟩, _⟩, _⟩, _⟩, _⟩ := h
    exact hending
  rw [State.armIdle_eq_false_iff, hending]
  decide

theorem State.Chain.takeFreed (h : s.Chain 0 t) (before : State) : s.Does (t.takeFreed before) := by
  have hfold : ∀ (arms : List Arm) (k : Nat) (t : State), s.Chain k t → ∃ m ≤ k + arms.length,
      s.Chain m (arms.foldl (fun t a => if !before.handOverReady a && t.handOverReady a then t.handOver a else t) t) := by
    intro arms
    induction arms with
    | nil => exact fun k t h => ⟨k, le_rfl, h⟩
    | cons a rest ih =>
      intro k t h
      rw [List.foldl_cons]
      have hfirst : ∃ m ≤ k + 1, s.Chain m (if !before.handOverReady a && t.handOverReady a then t.handOver a else t) := by
        split
        · rename_i hready
          exact h.handOver (State.handOverReady_works (by simp_all))
        · exact ⟨k, by omega, h⟩
      obtain ⟨m, hm, hchain⟩ := hfirst
      obtain ⟨m', hm', hrest⟩ := ih m _ hchain
      exact ⟨m', by rw [List.length_cons]; omega, hrest⟩
  exact hfold Arm.all 0 t h

end Sys2Proof.Machine
end

section
/-! What each request and each event does, as moves in turn. -/

namespace Sys2Proof.Machine

-- One after the other: a thread for each of these proofs would pass the memory the check allows.
set_option Elab.async false

variable {s t u : State} {a : Arm} {b : Bay} {c : NvContents} {k m : Nat} {l : Link}

/-! ### Flow, shots and causes -/

theorem State.Chain.onArm (h : s.Chain k t) (h' : State.OnArm a t u) (hworks : t.armIdle a = false) : s.Chain k u :=
  h.still (h'.still fun _ => Or.inl hworks)

theorem State.Chain.raiseCause (h : s.Chain k t) (a : Arm) (cause : StopCause) : s.Chain k (t.raiseCause a cause) :=
  h.still (t.still_raiseCause a cause)

theorem State.Chain.raiseCauses (h : s.Chain k t) (a : Arm) (causes : List StopCause) : s.Chain k (t.raiseCauses a causes) :=
  h.still (t.still_raiseCauses a causes)

theorem State.Chain.raiseOn (h : s.Chain k t) (arms : List Arm) (cause : StopCause) : s.Chain k (t.raiseOn arms cause) :=
  h.still (t.still_raiseOn arms cause)

theorem State.Chain.flowInterval (h : s.Chain k t) (a : Arm) (n : Nat) (causes : List StopCause) :
    s.Chain k (t.flowInterval a n causes) := h.still (t.still_flowInterval a n causes)

theorem State.Chain.advanceNv (h : s.Chain k t) : s.Chain k t.advanceNv := h.still t.still_advanceNv

/-! ### The Bay requests -/

theorem State.Chain.refuseBayState (h : s.Chain k t) (b : Bay) (l : Link) : s.Chain k (t.refuseBayState b l).state := by
  unfold State.refuseBayState
  split
  · exact h.resetSelection b l
  · exact h

theorem cardOwner_chain (s : State) (l : Link) (b : Bay) (n : Nat) : s.Chain 0 (cardOwner l b n s).state := by
  unfold cardOwner
  split
  · exact State.Chain.refl.refuseBayState b l
  · rename_i hlocked
    split
    · exact .refl
    · split
      · exact .refl
      · repeat' split
        case isFalse hbound =>
          exact State.Chain.refl.step (.bind b n (not_not.mp hlocked) (by simpa using hbound))
        all_goals exact .refl

/-- The attempt limit allows a driver's count to return to 0. -/
theorem State.inStep_of_zero {d : DriverRecord} (h : s.attemptLaw) (hd : d.failed = 0) :
    d.inStep s.wc.rack.attemptLimit = true := by
  obtain ⟨hlimit, -⟩ := h
  unfold DriverRecord.inStep
  cases d.status
  · simpa [hd] using by omega
  · simp [hd]

/-- A driver's record is in step where all are. -/
theorem State.inStep_of_find {n : Nat} {d : DriverRecord} (h : s.attemptLaw) (hd : s.wc.drivers.find n = some d) :
    d.inStep s.wc.rack.attemptLimit = true := h.2 _ (Assoc.mem_of_find hd)

theorem State.judgePin_chain (s : State) (b : Bay) {n : Nat} {d : DriverRecord} (p : PinField) (hd : s.wc.drivers.find n = some d) :
    s.Chain 0 (s.judgePin b n d p).state := by
  unfold State.judgePin
  split
  · exact State.Chain.refl.abandonIdent b
  · rename_i hactive
    split
    · exact .refl
    · split
      · refine State.Chain.moveBay_manned (State.Chain.modifyBay (.ite (fun _ => .refl) fun _ => ?_) b) b (by decide)
        exact State.Chain.refl.commit (c := .driver n (some _)) (fun hlaw => State.inStep_of_zero hlaw rfl) _
      · unfold State.pinFailed
        dsimp only
        split
        · rename_i hlt
          refine (State.Chain.refl.commit (c := .driver n (some _)) (fun hlaw => ?_) _).modifyBay b
          unfold DriverRecord.inStep
          cases hst : d.status
          · simpa using hlt
          · exact absurd (by cases h : d.status <;> simp_all) hactive
        · refine State.Chain.abandonIdent (State.Chain.refl.commit (c := .driver n (some _)) (fun hlaw => ?_) _) b
          have hstep := State.inStep_of_find hlaw hd
          unfold DriverRecord.inStep at hstep ⊢
          cases hst : d.status
          · simp only [hst, decide_eq_true_eq] at hstep ⊢
            omega
          · exact absurd hst hactive

theorem pinOwner_chain (s : State) (l : Link) (b : Bay) (p : PinField) : s.Chain 0 (pinOwner l b p s).state := by
  unfold pinOwner
  split
  · exact State.Chain.refl.refuseBayState b l
  · repeat' split
    case h_1 hd => exact s.judgePin_chain b p hd
    all_goals exact .refl

theorem State.Chain.claimOrder (h : s.Chain k t) (b : Bay) (n : Nat) : s.Chain k (t.claimOrder b n) :=
  State.Chain.modifyBay (State.Chain.modifyOrder (.ite (fun _ => h) fun _ => h.releaseOrder b) n _) b

theorem selectOwner_chain (s : State) (l : Link) (b : Bay) (n : Nat) : s.Chain 0 (selectOwner l b n s).state := by
  unfold selectOwner
  split
  case h_1 =>
    split
    · exact .refl
    · exact ((State.Chain.refl.claimOrder b n).modifyBay b).moveBay_manned b (by decide)
  case h_2 =>
    dsimp only
    have hreset := (State.Chain.refl (s := s)).resetSelection b l
    split
    · exact hreset
    · exact hreset.claimOrder b n
  all_goals exact .refl

theorem planningOwner_chain (s : State) (l : Link) (b : Bay) (judge : Selection → Except ResultCode Selection) :
    s.Chain 0 (planningOwner l b judge s).state := by
  unfold planningOwner
  repeat' split
  case h_1 => exact State.Chain.refl.modifyBay b
  case h_2 => exact State.Chain.refl.resetSelection b l
  case isTrue => exact .refl

theorem commitOwner_chain (s : State) (l : Link) (b : Bay) : s.Chain 0 (commitOwner l b s).state := by
  have hreset := (State.Chain.refl (s := s)).resetSelection b l
  unfold commitOwner
  dsimp only
  repeat' split
  case h_1.isFalse => exact (State.Chain.refl.modifyBay b).moveBay_manned b (by decide)
  case isTrue => exact .refl
  all_goals exact hreset

theorem newPlanOwner_chain (s : State) (l : Link) (b : Bay) : s.Chain 0 (newPlanOwner l b s).state := by
  unfold newPlanOwner
  repeat' split
  · exact State.Chain.refl.refuseBayState b l
  · exact .refl
  · exact (State.Chain.refl.modifyBay b).moveBay_manned b (by decide)

/-- A START that passes its checks finds a free note slot (R83, check 8). -/
theorem State.startChecks_slot {x : Compartment} (h : s.startChecks b a x = none) :
    s.notesHeld + s.reservations < Config.maxNotes := by
  unfold State.startChecks at h
  by_contra hfull
  simp only [Nat.not_lt.mp hfull, if_true] at h
  revert h
  repeat' split
  all_goals simp

theorem State.Chain.startArm (h : s.Chain k t) (b : Bay) (a : Arm) (order : Nat) (o : Order) (x : Compartment)
    (hslot : t.notesHeld + t.reservations < Config.maxNotes) : s.Chain k (t.startArm b a order o x) := by
  have hordered := (h.step (.reserve a hslot)).modifyOrder order fun x' => x'.modifyCompartment x.number fun y => y.started a
  refine State.Chain.still (hordered.still ?_)
    (State.OnArm.still (State.OnArm.enterStage (State.OnArm.refl _) _) fun _ => Or.inr ?_)
  · exact State.Still.of_eq
  · simp

theorem startOwner_chain (s : State) (l : Link) (b : Bay) (x : Nat × Nat) : s.Chain 0 (startOwner l b x s).state := by
  unfold startOwner
  dsimp only
  repeat' split
  case isTrue => exact State.Chain.refl.refuseBayState b l
  case h_2 hchecks => exact State.Chain.refl.startArm b _ _ _ _ (State.startChecks_slot hchecks)
  all_goals exact .refl

theorem armOwner_chain (s : State) (l : Link) (b : Bay) (n : Nat) {flow : Arm → State → Answer}
    (h : ∀ a, s.Chain 0 (flow a s).state) : s.Chain 0 (armOwner l b n flow s).state := by
  unfold armOwner
  repeat' split
  · exact State.Chain.refl.refuseBayState b l
  · exact .refl
  · exact .refl
  · exact h _

theorem stopFlow_chain (s : State) (a : Arm) : s.Chain 0 (stopFlow a s).state := by
  unfold stopFlow
  split
  · exact State.Chain.refl.raiseCause a _
  · exact .refl

theorem State.armIdle_of_paused (h : (s.fc.get a).state = .paused) : s.armIdle a = false := by
  rw [State.armIdle_eq_false_iff, h]
  decide

theorem resumeFlow_chain (s : State) (a : Arm) : s.Chain 0 (resumeFlow a s).state := by
  unfold resumeFlow
  split
  · rename_i hresumable
    simp only [Bool.and_eq_true, decide_eq_true_eq] at hresumable
    split
    · exact State.Chain.refl.onArm ((State.OnArm.refl s).enterStage _) (State.armIdle_of_paused hresumable.1.1)
    · exact .refl
  · exact .refl

theorem State.Chain.removeCause (h : s.Chain k t) (a : Arm) (cause : StopCause) : s.Chain k (t.removeCause a cause) := by
  have hremoved := h.modifyFc a (f := fun x =>
    { x with causes := x.causes.filter (· ≠ cause), releaseMark := if cause = .officeStop then false else x.releaseMark })
    fun _ => id
  exact .ite (fun _ => hremoved.deadmanCauseLeft _) fun _ => hremoved

theorem ackFlow_chain (s : State) (cause : StopCause) (a : Arm) : s.Chain 0 (ackFlow cause a s).state := by
  unfold ackFlow
  split
  · exact State.Chain.refl.removeCause a cause
  · exact .refl

theorem ackOwner_chain (s : State) (l : Link) (b : Bay) (x : Nat × Nat) : s.Chain 0 (ackOwner l b x s).state := by
  unfold ackOwner
  repeat' split
  · exact State.Chain.refl.refuseBayState b l
  · exact .refl
  · exact armOwner_chain s l b _ fun a => ackFlow_chain s _ a

theorem State.Chain.endPaused (h : s.Chain k t) (a : Arm) (r : EndReason) (hpaused : (t.fc.get a).state = .paused) :
    s.Chain k ((t.setEndReason a r).enterEnding a) :=
  h.onArm (((State.OnArm.refl t).setEndReason r).enterEnding) (State.armIdle_of_paused hpaused)

theorem finishFlow_chain (s : State) (a : Arm) : s.Chain 0 (finishFlow a s).state := by
  unfold finishFlow
  split
  · exact State.Chain.refl.endPaused a _ (by assumption)
  · exact .refl

theorem signOffOwner_chain (s : State) (b : Bay) : s.Chain 0 (signOffOwner b s).state := by
  have hclosed := (State.Chain.refl (s := s)).closeSession b .locked
  unfold signOffOwner
  repeat' split
  case h_5 | h_6 | h_4.isFalse => exact .refl
  all_goals exact hclosed

/-! ### The Office requests -/

theorem State.writeSetting_chain (s : State) (held : Bool) {c : NvContents} (hc : s.admits c) :
    s.Chain 0 (s.writeSetting held c).state := by
  unfold State.writeSetting
  repeat' split
  · exact .refl
  · exact .refl
  · exact State.Chain.refl.commit hc _

/-- The record WRITE_DRIVER writes is in step where the one before it was (R39 to R41). -/
theorem DriverFields.record_inStep (x : DriverFields) (st : DriverStatus) (h : s.attemptLaw) (n : Nat) :
    (x.record (s.wc.drivers.find n) st).inStep s.wc.rack.attemptLimit = true := by
  cases hold : s.wc.drivers.find n with
  | none => exact State.inStep_of_zero h rfl
  | some d =>
    have hstep := State.inStep_of_find h hold
    obtain ⟨hlimit, -⟩ := h
    unfold DriverRecord.inStep at hstep ⊢
    simp only [DriverFields.record, failedAfter]
    obtain ⟨pin, status, failed, classes, expiry⟩ := d
    cases status <;> cases st <;> simp_all <;> omega

theorem writeDriverOwner_chain (s : State) (x : DriverFields) : s.Chain 0 (writeDriverOwner x s).state := by
  unfold writeDriverOwner
  repeat' split
  case h_2.isFalse.isFalse => exact s.writeSetting_chain _ fun h => x.record_inStep _ h _
  all_goals exact .refl

theorem deleteDriverOwner_chain (s : State) (n : Nat) : s.Chain 0 (deleteDriverOwner n s).state := by
  unfold deleteDriverOwner
  repeat' split
  case isFalse.isFalse.isFalse => exact s.writeSetting_chain _ trivial
  all_goals exact .refl

theorem resetPinOwner_chain (s : State) (x : Nat × PinField) : s.Chain 0 (resetPinOwner x s).state := by
  unfold resetPinOwner
  repeat' split
  case h_2 => exact s.writeSetting_chain _ fun h => State.inStep_of_zero h rfl
  all_goals exact .refl

theorem readDriverOwner_chain (s : State) (x : Nat × Nat) : s.Chain 0 (readDriverOwner x s).state := by
  unfold readDriverOwner
  split <;> exact .refl

theorem writeOrderOwner_chain (s : State) (x : OrderFields) : s.Chain 0 (writeOrderOwner x s).state := by
  have hwritten := (State.Chain.refl (s := s)).setOrders (orders := s.ob.orders.put x.number x.order)
    fun h => Assoc.wf_put h _ _
  unfold writeOrderOwner
  repeat' split
  all_goals first
    | exact hwritten
    | exact .refl

theorem deleteOrderOwner_chain (s : State) (n : Nat) : s.Chain 0 (deleteOrderOwner n s).state := by
  unfold deleteOrderOwner
  repeat' split
  case h_2.isFalse => exact State.Chain.refl.setOrders fun h => Assoc.wf_remove h _
  all_goals exact .refl

theorem readOrderOwner_chain (s : State) (x : Nat × Nat) : s.Chain 0 (readOrderOwner x s).state := by
  unfold readOrderOwner
  split <;> exact .refl

theorem State.Chain.cancelOrder (h : s.Chain k t) (n : Nat) (o : Order) : s.Chain k (t.cancelOrder n o) := by
  have hcancelled := h.modifyOrder n Order.cancelled
  unfold State.cancelOrder
  split
  case h_1 | h_2 => exact hcancelled
  case h_3 => exact h
  case h_4 =>
    refine .ite (fun _ => h) fun _ => .ite (fun _ => State.Chain.raiseOn (h.modifyOrder n _) _ _) fun _ => ?_
    unfold State.takeFromSession
    split
    · exact ((hcancelled.dropOrder _).moveBay_manned _ (by decide)).refreshInactivity _
    · exact hcancelled

theorem cancelOrderOwner_chain (s : State) (n : Nat) : s.Chain 0 (cancelOrderOwner n s).state := by
  unfold cancelOrderOwner
  repeat' split
  case h_2 => exact State.Chain.refl.cancelOrder n _
  all_goals exact .refl

theorem writeRecipeOwner_chain (s : State) (x : RecipeFields) : s.Chain 0 (writeRecipeOwner x s).state := by
  unfold writeRecipeOwner
  repeat' split
  case h_2.isFalse.isFalse.isFalse => exact s.writeSetting_chain _ trivial
  all_goals exact .refl

theorem State.Chain.takeOut (h : s.Chain k t) (b : Bay) : s.Chain k (t.takeOut b) := by
  have hset := h.commit (c := .bayService b true) trivial .setting
  unfold State.takeOut
  split
  case h_1 hlocked => exact hset.moveBay b fun _ => Or.inl (Or.inl (by simpa using hlocked))
  case h_2 | h_3 | h_4 => exact hset.closeSession b _
  case h_5 => exact .ite (fun _ => hset.closeSession b _) fun _ => (hset.modifyBay b).raiseOn _ _
  case h_6 => exact h

theorem State.Chain.bringIn (h : s.Chain k t) (b : Bay) : s.Chain k (t.bringIn b) := by
  have hset := h.commit (c := .bayService b false) trivial .setting
  exact .ite (fun hout => hset.moveBay b fun _ => Or.inl (Or.inr (by simpa using hout))) fun _ => hset.modifyBay b

theorem setServiceOwner_chain (s : State) (x : Nat × Nat) : s.Chain 0 (setServiceOwner x s).state := by
  unfold setServiceOwner
  repeat' split
  case h_1.isFalse.isFalse => exact State.Chain.refl.takeOut _
  case h_2.isFalse.isFalse => exact State.Chain.refl.bringIn _
  all_goals exact .refl

theorem State.Chain.officeStopArm (h : s.Chain k t) (a : Arm) : s.Chain k (t.officeStopArm a) :=
  .ite (fun _ => h.modifyFc a) fun _ => h.raiseCause a _

theorem State.Chain.officeReleaseArm (h : s.Chain k t) (a : Arm) : s.Chain k (t.officeReleaseArm a) :=
  .ite (fun _ => h.modifyFc a) fun _ => h

/-- Moves on several arms in turn. -/
theorem State.Chain.foldl {f : State → Arm → State} (hf : ∀ t a, s.Chain k t → s.Chain k (f t a)) (h : s.Chain k t)
    (arms : List Arm) : s.Chain k (arms.foldl f t) := by
  induction arms generalizing t with
  | nil => exact h
  | cons a rest ih => exact ih (hf t a h)

theorem officeStopOwner_chain (s : State) (n : Nat) : s.Chain 0 (officeStopOwner n s).state := by
  unfold officeStopOwner
  split
  · exact State.Chain.foldl (fun _ a h => h.officeStopArm a) .refl _
  · exact .refl

theorem officeReleaseOwner_chain (s : State) (n : Nat) : s.Chain 0 (officeReleaseOwner n s).state := by
  unfold officeReleaseOwner
  split
  · exact State.Chain.foldl (fun _ a h => h.officeReleaseArm a) .refl _
  · exact .refl

theorem State.Chain.judgeReserve (h : s.Chain k t) (before after : StockRecord) : s.Chain k (t.judgeReserve before after) :=
  .ite (fun _ => h.raiseFlag _) fun _ => h

theorem setStockOwner_chain (s : State) (x : StockFields) : s.Chain 0 (setStockOwner x s).state := by
  unfold setStockOwner
  dsimp only
  repeat' split
  case h_2.isFalse.isFalse => exact (State.Chain.refl.commit (c := .stock _) trivial _).judgeReserve _ _
  all_goals exact .refl

theorem readNoteOwner_chain (s : State) (n : Nat) : s.Chain 0 (readNoteOwner n s).state := by
  unfold readNoteOwner
  split <;> exact .refl

theorem State.Does.refl (s : State) : s.Does s := ⟨0, by omega, .refl⟩

theorem releaseNoteOwner_does (s : State) (n : Nat) : s.Does (releaseNoteOwner n s).state := by
  unfold releaseNoteOwner
  repeat' split
  case h_2.isTrue oldest rest hnotes hn =>
    exact (State.Chain.refl.commit (c := .release n) ⟨oldest, rest, hnotes, hn⟩ _).takeFreed s
  all_goals exact State.Does.refl s

/-! ### The Service requests -/

theorem State.Chain.logSealed (h : s.Chain k t) (subject : AuditSubject) (changes : List ParameterChange) :
    s.Chain k (t.logSealed subject changes) := h.commit (c := .audit _) trivial _

theorem writeProductOwner_chain (s : State) (x : ProductFields) : s.Chain 0 (writeProductOwner x s).state := by
  unfold writeProductOwner
  dsimp only
  repeat' split
  case h_2.isFalse => exact (State.Chain.refl.commit (c := .product _ _) trivial _).logSealed _ _
  case isFalse.isFalse => exact s.writeSetting_chain _ trivial
  all_goals exact .refl

theorem State.Chain.writeArm (h : s.Chain k t) (a : Arm) (new : ArmRecord) : s.Chain k (t.writeArm a new) := by
  have hwritten := h.commit (c := .arm a new) trivial .setting
  unfold State.writeArm
  dsimp only
  split
  · exact hwritten.modifyFc a
  · exact (hwritten.logSealed _ _).modifyFc a

theorem writeArmOwner_chain (s : State) (x : ArmFields) : s.Chain 0 (writeArmOwner x s).state := by
  unfold writeArmOwner
  repeat' split
  case h_2.isFalse => exact State.Chain.refl.writeArm _ _
  all_goals exact .refl

theorem writeInjectorOwner_chain (s : State) (x : InjectorFields) : s.Chain 0 (writeInjectorOwner x s).state := by
  unfold writeInjectorOwner
  repeat' split
  case h_1.isFalse => exact s.writeSetting_chain _ trivial
  all_goals exact .refl

theorem writePumpOwner_chain (s : State) (x : Nat × Nat) : s.Chain 0 (writePumpOwner x s).state := by
  unfold writePumpOwner
  repeat' split
  case h_1.isFalse => exact s.writeSetting_chain _ trivial
  all_goals exact .refl

/-- WRITE_RACK takes an attempt limit of at least 1 (R39). -/
theorem RackFields.one_le_attemptLimit {x : RackFields} {r : RackConfig} (h : x.config = some r) : 1 ≤ r.attemptLimit := by
  unfold RackFields.config at h
  split at h
  · obtain rfl := Option.some.inj h
    exact le_max_left ..
  · exact absurd h (by simp)

theorem writeRackOwner_chain (s : State) (x : RackFields) : s.Chain 0 (writeRackOwner x s).state := by
  unfold writeRackOwner
  repeat' split
  case h_2.isFalse hconfig hstep =>
    exact s.writeSetting_chain _ ⟨RackFields.one_le_attemptLimit hconfig, by simpa using hstep⟩
  all_goals exact .refl

theorem readAuditOwner_chain (s : State) (n : Nat) : s.Chain 0 (readAuditOwner n s).state := by
  unfold readAuditOwner
  split <;> exact .refl

end Sys2Proof.Machine
end

section
/-! What each event but a reset does, and each command in full, as moves in turn. -/

namespace Sys2Proof.Machine

-- One after the other: a thread for each of these proofs would pass the memory the check allows.
set_option Elab.async false

variable {s t u : State} {a : Arm} {b : Bay} {c : NvContents} {k m : Nat} {l : Link}

/-! ### Link, field and timer events -/

theorem State.Chain.does (h : s.Chain 0 t) : s.Does t := ⟨0, by omega, h⟩

/-- A change of the NVC that keeps the store and the waiting entries. -/
theorem State.Chain.setNvc (h : s.Chain k t) {n : NvController} (hstore : n.store = t.nvc.store := by exact rfl)
    (hbuffer : n.buffer = t.nvc.buffer := by exact rfl) (hqueue : n.queue = t.nvc.queue := by exact rfl) :
    s.Chain k (t.setNvc n) := by
  refine h.still ⟨⟨rfl, hstore, ?_, ?_⟩, State.Aside.of_eq⟩
  · simp [NvController.waiting, hbuffer, hqueue]
  · simp [hqueue]

theorem State.serveUnknown_chain (s : State) (l : Link) : s.Chain 0 (s.serveUnknown l) := by
  unfold State.serveUnknown
  split
  case h_1 => exact .ite (fun _ => State.Chain.refl.still State.Still.of_eq) fun _ => .refl
  case h_2 | h_3 => exact .refl

theorem State.Chain.setReceiver (h : s.Chain k t) (l : Link) (r : Receiver) : s.Chain k (t.setReceiver l r) := h.modifyLink l _

theorem State.Chain.discardFrame (h : s.Chain k t) (l : Link) : s.Chain k (t.discardFrame l) := (h.setReceiver l _).raiseFlag _

theorem State.Chain.offerFrame (h : s.Chain k t) (l : Link) (r : Request) : s.Chain k (t.offerFrame l r) := by
  refine .ite (fun _ => h) fun _ => ?_
  split
  · exact h.modifyLink l _
  all_goals exact h.raiseFlag _

theorem State.takeCharacter_chain (s : State) (l : Link) (c : Byte) (stop : Bool) : s.Chain 0 (s.takeCharacter l c stop) := by
  unfold State.takeCharacter
  split
  · exact .ite (fun _ => State.Chain.refl.setReceiver l _) fun _ => .refl
  · refine .ite (fun _ => ?_) fun _ => State.Chain.refl.discardFrame l
    unfold State.collect
    split
    · exact State.Chain.refl.setReceiver l _
    · exact State.Chain.refl.discardFrame l
    · exact (State.Chain.refl.setReceiver l _).offerFrame l _

theorem State.gapTimeout_chain (s : State) (l : Link) : s.Chain 0 (s.gapTimeout l) := by
  unfold State.gapTimeout
  split
  · exact .refl
  · exact State.Chain.refl.discardFrame l

theorem State.responseSent_chain (s : State) (l : Link) : s.Chain 0 (s.responseSent l) := by
  unfold State.responseSent
  split
  · exact State.Chain.refl.modifyLink l _
  all_goals exact .refl

theorem State.Chain.cutShots (h : s.Chain k t) (cut : Channel → Bool) : s.Chain k (t.cutShots cut) := h.still State.Still.of_eq

theorem State.Chain.emptyQueues (h : s.Chain k t) : s.Chain k t.emptyQueues := h.still State.Still.of_eq

theorem State.Chain.serveAll (h : s.Chain k t) : s.Chain k t.serveAll := h.still State.Still.of_eq

theorem State.Chain.setButton (h : s.Chain k t) (b : Bay) (x : Button) : s.Chain k (t.setButton b x) :=
  h.still State.Still.of_eq

theorem State.Chain.buttonAccepted (h : s.Chain k t) (b : Bay) (first : Bool) (level : LineLevel) :
    s.Chain k (t.buttonAccepted b first level) := by
  unfold State.buttonAccepted
  split
  case h_2 => exact .ite (fun _ => (h.setButton b _).modifyBay b) fun _ => h.setButton b _
  all_goals exact h.setButton b _

theorem State.Chain.changeAccepted (h : s.Chain k t) (i : DiscreteInput) (first : Bool) (level : LineLevel) :
    s.Chain k (t.changeAccepted i first level) := by
  unfold State.changeAccepted
  split
  case h_1 => exact (h.cutShots _).raiseOn _ _
  case h_3 => exact h.raiseCause _ _
  case h_5 => exact ((h.raiseOn _ _).cutShots _).emptyQueues
  case h_6 => exact h.serveAll
  case h_7 => exact h.buttonAccepted _ _ _
  case h_2 | h_4 | h_8 => exact h

theorem State.debounce_chain (s : State) (i : DiscreteInput) : s.Chain 0 (s.debounce i) := by
  have hset : s.Chain 0 (s.setInput i (s.ic.inputs.get i).accept) := State.Chain.refl.still State.Still.of_eq
  unfold State.debounce
  exact .ite (fun _ => hset) fun _ => (hset.raiseFlag _).changeAccepted _ _ _

/-- A change of the live stock alone. -/
theorem State.Chain.setStockOf (h : s.Chain k t) (x : Additive) (r : StockRecord) : s.Chain k (t.setStockOf x r) := by
  refine h.still ⟨⟨?_, ?_, ?_, ?_⟩, State.Aside.of_eq⟩ <;> simp [State.setStockOf, NvController.waiting]

theorem State.Chain.draw (h : s.Chain k t) (x : Additive) (ml : Nat) : s.Chain k (t.draw x ml) := by
  have hset := (h.setStockOf x { t.wc.stock.get x with stock := (t.wc.stock.get x).stock - ml }).judgeReserve (t.wc.stock.get x)
    { t.wc.stock.get x with stock := (t.wc.stock.get x).stock - ml }
  exact .ite (fun _ => hset.raiseOn _ _) fun _ => hset

theorem State.takePulse_chain (h : s.Chain k t) (c : Channel) : s.Chain k (t.takePulse c) := by
  unfold State.takePulse
  dsimp only
  split
  · refine State.Chain.draw ?_ _ _
    split <;> exact h.still State.Still.of_eq
  · split <;> exact h.still State.Still.of_eq

theorem State.Chain.pace (h : s.Chain k t) (a : Arm) : s.Chain k (t.pace a).1 := h.still State.Still.of_eq

theorem State.Chain.credit (h : s.Chain k t) (a : Arm) (r : MeterResult) : s.Chain k (t.credit a r) := h.still State.Still.of_eq

theorem State.intervalEnd_chain (s : State) (a : Arm) (raw : Nat) (order : IntervalOrder) :
    s.Chain 0 (s.intervalEnd a raw order) := by
  have htaken : s.Chain 0 (s.takeHandover a (s.handoverOf a raw)) :=
    State.Chain.refl.still (State.Still.of_eq rfl rfl rfl rfl rfl rfl rfl)
  have hcredited := htaken.credit a ((s.takeHandover a (s.handoverOf a raw)).meterResult a (s.handoverOf a raw))
  unfold State.intervalEnd State.handOn
  dsimp only
  cases order
  case flowFirst => exact ((hcredited.flowInterval a _ _).pace a).raiseCauses a _
  case dosingFirst => exact ((hcredited.pace a).raiseCauses a _).flowInterval a _ _
  case leavingLast => exact ((hcredited.pace a).flowInterval a _ _).raiseCauses a _

theorem State.shotShort_chain (s : State) (p : Additive) : s.Chain 0 (s.shotShort p) := by
  unfold State.shotShort
  dsimp only
  repeat' split
  case h_1.isTrue.isFalse => exact State.Chain.raiseCause (State.Chain.refl.still State.Still.of_eq) _ _
  all_goals exact State.Chain.refl.still State.Still.of_eq

theorem State.Chain.modifyPump (h : s.Chain k t) (p : Additive) (f : PumpState → PumpState) : s.Chain k (t.modifyPump p f) :=
  h.still State.Still.of_eq

theorem State.Chain.serve (h : s.Chain k t) (p : Additive) : s.Chain k (t.serve p) := h.still State.Still.of_eq

theorem State.restEnded_chain (s : State) (p : Additive) : s.Chain 0 (s.restEnded p) := (State.Chain.refl.modifyPump p _).serve p

theorem State.endClosing_chain (s : State) (a : Arm) (h : (s.fc.get a).state = .closing) : s.Chain 0 (s.endClosing a) :=
  State.Chain.refl.onArm (State.OnArm.refl s).endClosing (by rw [State.armIdle_eq_false_iff, h]; decide)

theorem State.deadmanExpired_chain (s : State) (x : DeadmanExpiry) : s.Chain 0 (s.deadmanExpired x) := by
  have hstop : s.Chain 0 (s.deadmanStop x) := (State.Chain.refl.modifyBay x.bay).raiseOn _ _
  unfold State.deadmanExpired
  repeat' split
  case h_1 => exact State.Chain.refl.modifyBay x.bay
  case isFalse.isFalse => exact .refl
  all_goals exact hstop

/-! ### Store, supply and restoration events -/

theorem State.Chain.does_handOver (h : s.Chain 0 t) (hworks : t.armIdle a = false) : s.Does (t.handOver a) := by
  obtain ⟨m, hm, hchain⟩ := h.handOver hworks
  exact ⟨m, by omega, hchain⟩

theorem State.writeComplete_does (s : State) : s.Does s.writeComplete := by
  unfold State.writeComplete
  split
  · rename_i e he
    exact ((State.Chain.refl.step (.written e he)).advanceNv).takeFreed s
  · exact State.Does.refl s

theorem State.checkpointComplete_chain (s : State) : s.Chain 0 s.checkpointComplete := by
  unfold State.checkpointComplete
  split
  · exact (State.Chain.refl.setNvc).advanceNv
  all_goals exact .refl

theorem State.areaCleared_does (s : State) : s.Does s.areaCleared := by
  unfold State.areaCleared
  split
  · exact ((State.Chain.refl.setNvc).advanceNv).takeFreed s
  all_goals exact State.Does.refl s

theorem State.Chain.holdHandOvers (h : s.Chain k t) : s.Chain k t.holdHandOvers :=
  h.still (State.Still.of_eq rfl rfl rfl rfl rfl rfl rfl)

theorem State.Chain.drain (h : s.Chain k t) : s.Chain k (t.setNvc { t.nvc with phase := .draining }).advanceNv :=
  h.setNvc.advanceNv

theorem State.warn_chain (s : State) (begun : PerLink Bool) : s.Chain 0 (s.warn begun) := by
  have hdropped : s.Chain 0 ((s.setWarning true).dropUnanswered begun) :=
    State.Chain.refl.still (State.Still.of_eq rfl rfl rfl rfl rfl rfl rfl)
  have hcut := ((hdropped.raiseOn Arm.all .powerFail).cutShots fun _ => true).emptyQueues
  exact hcut.holdHandOvers.drain

theorem State.endWarning_does (s : State) : s.Does s.endWarning := by
  have hserved : s.Chain 0 ((s.setWarning false).serveAll) := State.Chain.serveAll (State.Chain.refl.still State.Still.of_eq)
  exact ((hserved.setNvc).advanceNv).takeFreed s

theorem State.completeRestoration_chain (s : State) : s.Chain 0 s.completeRestoration := by
  have hrunning : s.Chain 0 (s.setCondition .running) := State.Chain.refl.still State.Still.of_eq
  have hcleared := hrunning.setNvc (n := { s.nvc with area := .const none })
  refine State.Chain.advanceNv (hcleared.still ?_)
  exact State.Still.of_eq rfl rfl rfl rfl rfl rfl rfl

/-! ### Every command but a reset -/

variable {α : Type} {form : Walk α}

theorem State.serveRequest_does {code : Byte} {cls : RequestClass} {owner : α → State → Answer}
    (h : ∀ y, s.Does (owner y s).state) : s.Does (s.serveRequest l code cls form owner) :=
  State.serveRequest_keeps s.Does (State.Does.refl s)
    (fun t _ _ _ ⟨k, hk, ht⟩ => ⟨k, hk, ht.still State.Still.of_eq⟩) fun y _ => h y

theorem State.serveRequest_chain {code : Byte} {cls : RequestClass} {owner : α → State → Answer}
    (h : ∀ y, s.Chain 0 (owner y s).state) : s.Does (s.serveRequest l code cls form owner) :=
  State.serveRequest_does fun y => (h y).does

theorem State.serveBay_chain {code : Byte} {owner : Bay → α → State → Answer}
    (h : ∀ b y (t : State), t.Chain 0 (owner b y t).state) : s.Does (s.serveBay l code form owner) := by
  have hreset : s.Chain 0 (s.setPlanReset l false) := State.Chain.refl.modifyLink l _
  have howner : ∀ b y, s.Chain 0 (owner b y (s.setPlanReset l false)).state := fun b y => by
    simpa using hreset.trans (h b y _)
  exact State.Chain.does (State.serveBay_keeps (form := form) (code := code) (s.Chain 0) .refl
    (fun t _ _ _ ht => ht.still State.Still.of_eq) (fun b y _ => howner b y) fun b y _ _ => (howner b y).refreshInactivity b)

theorem readBayOwner_chain (s : State) (n : Nat) : s.Chain 0 (readBayOwner n s).state := by
  unfold readBayOwner
  split <;> exact .refl

theorem readArmOwner_chain (s : State) (n : Nat) : s.Chain 0 (readArmOwner n s).state := by
  unfold readArmOwner
  split <;> exact .refl

/-- A request is served by moves in turn. -/
theorem exec_request_does {c : Instr} {x : Link × Byte × RequestClass} (h : c.request = some x) (s : State) :
    ∃ t, exec c s = .next t ∧ s.Does t := by
  cases c <;> cases h <;> refine ⟨_, rfl, ?_⟩
  case identify | readStatus | readClock | readStock => exact State.serveRequest_chain fun _ => .refl
  case readBay => exact State.serveRequest_chain (readBayOwner_chain s)
  case readArm => exact State.serveRequest_chain (readArmOwner_chain s)
  case setClock => exact State.serveRequest_chain fun _ => State.Chain.refl.still State.Still.of_eq
  case card l => exact State.serveBay_chain fun b y t => cardOwner_chain t l b y
  case pin l => exact State.serveBay_chain fun b y t => pinOwner_chain t l b y
  case selectOrder l => exact State.serveBay_chain fun b y t => selectOwner_chain t l b y
  case markFirst l | markLast l | exclude l => exact State.serveBay_chain fun b y t => planningOwner_chain t l b _
  case commitPlan l => exact State.serveBay_chain fun b _ t => commitOwner_chain t l b
  case newPlan l => exact State.serveBay_chain fun b _ t => newPlanOwner_chain t l b
  case start l => exact State.serveBay_chain fun b y t => startOwner_chain t l b y
  case stop l => exact State.serveBay_chain fun b y t => armOwner_chain t l b y (stopFlow_chain t)
  case resume l => exact State.serveBay_chain fun b y t => armOwner_chain t l b y (resumeFlow_chain t)
  case ackCause l => exact State.serveBay_chain fun b y t => ackOwner_chain t l b y
  case finish l => exact State.serveBay_chain fun b y t => armOwner_chain t l b y (finishFlow_chain t)
  case signOff => exact State.serveBay_chain fun b _ t => signOffOwner_chain t b
  case writeDriver => exact State.serveRequest_chain (writeDriverOwner_chain s)
  case deleteDriver => exact State.serveRequest_chain (deleteDriverOwner_chain s)
  case resetPin => exact State.serveRequest_chain (resetPinOwner_chain s)
  case readDriver => exact State.serveRequest_chain (readDriverOwner_chain s)
  case writeOrder => exact State.serveRequest_chain (writeOrderOwner_chain s)
  case deleteOrder => exact State.serveRequest_chain (deleteOrderOwner_chain s)
  case readOrder => exact State.serveRequest_chain (readOrderOwner_chain s)
  case cancelOrder => exact State.serveRequest_chain (cancelOrderOwner_chain s)
  case writeRecipe => exact State.serveRequest_chain (writeRecipeOwner_chain s)
  case setBayService => exact State.serveRequest_chain (setServiceOwner_chain s)
  case officeStop => exact State.serveRequest_chain (officeStopOwner_chain s)
  case officeRelease => exact State.serveRequest_chain (officeReleaseOwner_chain s)
  case setStock => exact State.serveRequest_chain (setStockOwner_chain s)
  case readNote => exact State.serveRequest_chain (readNoteOwner_chain s)
  case releaseNote => exact State.serveRequest_does (releaseNoteOwner_does s)
  case writeProduct => exact State.serveRequest_chain (writeProductOwner_chain s)
  case writeArm => exact State.serveRequest_chain (writeArmOwner_chain s)
  case writeInjector => exact State.serveRequest_chain (writeInjectorOwner_chain s)
  case writePump => exact State.serveRequest_chain (writePumpOwner_chain s)
  case writeRack => exact State.serveRequest_chain (writeRackOwner_chain s)
  case readAudit => exact State.serveRequest_chain (readAuditOwner_chain s)

/-- An event but a reset acts by moves in turn, or not at all. -/
theorem exec_event_does {c : Instr} (h : c.request = none) (hreset : c.isReset = false) (s : State) :
    ∃ t, exec c s = .next t ∧ s.Does t := by
  have acts : ∀ (p : Prop) [Decidable p] (t : State), (p → s.Chain 0 t) → s.Does (if p then t else s) :=
    fun p _ t ht => (State.Chain.ite ht fun _ => .refl).does
  have acts_does : ∀ (p : Prop) [Decidable p] (t : State), (p → s.Does t) → s.Does (if p then t else s) :=
    fun p _ t ht => by split <;> [exact ht ‹_›; exact State.Does.refl s]
  cases c <;> cases h <;> cases hreset <;> refine ⟨_, rfl, ?_⟩
  case unknownRequest l => exact (s.serveUnknown_chain l).does
  case characterReceived => exact acts _ _ fun _ => s.takeCharacter_chain _ _ _
  case gapTimeout => exact acts _ _ fun _ => s.gapTimeout_chain _
  case responseSent => exact acts _ _ fun _ => s.responseSent_chain _
  case discreteLineChange => exact acts _ _ fun _ => State.Chain.refl.still State.Still.of_eq
  case debounceExpiry => exact acts _ _ fun _ => s.debounce_chain _
  case stuckTimerExpiry => exact acts _ _ fun _ => (State.Chain.refl.setButton _ _).raiseFlag _
  case productMeterEdge => exact acts _ _ fun _ => State.Chain.refl.still (State.Still.of_eq rfl rfl rfl rfl rfl rfl rfl)
  case additivePulse => exact acts _ _ fun _ => State.takePulse_chain (State.Chain.refl.still State.Still.of_eq) _
  case meteringIntervalEnd => exact acts _ _ fun _ => s.intervalEnd_chain _ _ _
  case shotTimerExpiry => exact acts _ _ fun _ => s.shotShort_chain _
  case restTimerExpiry => exact acts _ _ fun _ => s.restEnded_chain _
  case closingTimerExpiry a => exact acts _ _ fun h => s.endClosing_chain a (by simp_all)
  case noFlowTimerExpiry a =>
    exact acts _ _ fun _ => (State.Chain.refl.modifyFc a).raiseCause a _
  case pauseTimerExpiry a => exact acts _ _ fun h => State.Chain.refl.endPaused a _ (by simp_all)
  case pinTimerExpiry b => exact acts _ _ fun _ => State.Chain.refl.abandonIdent b
  case inactivityTimerExpiry b => exact acts _ _ fun _ => State.Chain.refl.closeSession b _
  case deadmanTimerExpiry x => exact acts _ _ fun _ => s.deadmanExpired_chain x
  case handOver a => exact acts_does _ _ fun h => State.Chain.refl.does_handOver (State.handOverReady_works h)
  case nvWriteComplete => exact acts_does _ _ fun _ => s.writeComplete_does
  case checkpointWriteComplete => exact acts _ _ fun _ => s.checkpointComplete_chain
  case checkpointAreaCleared => exact acts_does _ _ fun _ => s.areaCleared_does
  case powerFailWarningAssert begun => exact acts _ _ fun _ => s.warn_chain begun
  case powerFailWarningDeassert => exact acts_does _ _ fun _ => s.endWarning_does
  case rackClockTick => exact (State.Chain.refl.still State.Still.of_eq).does
  case resetAsserted =>
    exact (State.Chain.ite (fun _ => .refl) fun _ => State.Chain.refl.still State.Still.of_eq).does
  case restorationComplete => exact acts _ _ fun _ => s.completeRestoration_chain
  case mainPowerLoss => exact (State.Chain.refl.still State.Still.of_eq).does
  case backupSupplyRanFlat => exact acts _ _ fun _ => State.Chain.refl.setNvc

/-- Every command but a reset is made of moves in turn. -/
theorem exec_does {c : Instr} (hreset : c.isReset = false) (h : exec c s = .next t) : s.Does t := by
  obtain ⟨t', ht', hdoes⟩ : ∃ t', exec c s = .next t' ∧ s.Does t' := by
    cases hrequest : c.request with
    | some x => exact exec_request_does hrequest s
    | none => exact exec_event_does hrequest hreset s
  cases ht'.symm.trans h
  exact hdoes

end Sys2Proof.Machine
end

section
/-! The laws of the tables, the driver binding, the note slots and the attempt limit, move by move (R37, R39, R55, R58, R61, R74,
R149). -/

namespace Sys2Proof.Machine

variable {s t u : State} {a : Arm} {b : Bay} {c : NvContents} {k m : Nat} {w : NvRecords} {q : List NvEntry}

/-! ### The tables -/

theorem State.Books.tablesLaw (h : s.Books t w q) (hw : w.tablesLaw) : t.wc.tablesLaw := by
  rw [h.records]
  exact hw

theorem State.bindDriver_parts (s : State) (b : Bay) (n : Nat) :
    (s.bindDriver b n).pt.bound = s.pt.bound.put n b ∧ (s.bindDriver b n).wc = s.wc ∧ (s.bindDriver b n).nvc = s.nvc
      ∧ (s.bindDriver b n).ob = s.ob ∧ (s.bindDriver b n).ns = s.ns ∧ (s.bindDriver b n).fc = s.fc := by
  simp [State.bindDriver]

theorem State.Move.tablesLaw (h : State.Move m s t) (hs : s.tablesLaw) : t.tablesLaw := by
  obtain ⟨hcopies, hstore, horders, hbound⟩ := hs
  cases h with
  | still h => exact ⟨h.books.tablesLaw hcopies, h.books.store ▸ hstore, h.aside.orders horders, h.aside.bound ▸ hbound⟩
  | enter c cls _ books aside =>
    exact ⟨books.tablesLaw (NvRecords.tablesLaw_write hcopies _), books.store ▸ hstore, aside.orders horders,
      aside.bound ▸ hbound⟩
  | note a n cls _ _ books aside _ =>
    exact ⟨books.tablesLaw (NvRecords.tablesLaw_write hcopies _), books.store ▸ hstore, aside.orders horders,
      aside.bound ▸ hbound⟩
  | bind b n _ _ =>
    obtain ⟨hpt, hwc, hnvc, hob, -⟩ := s.bindDriver_parts b n
    exact ⟨hwc ▸ hcopies, hnvc ▸ hstore, hob ▸ horders, hpt ▸ Assoc.wf_put hbound _ _⟩
  | unbind b =>
    unfold State.unbind
    split
    · exact ⟨hcopies, hstore, horders, Assoc.wf_remove hbound _⟩
    · exact ⟨hcopies, hstore, horders, hbound⟩
  | written e _ => exact ⟨hcopies, NvRecords.tablesLaw_write hstore _, horders, hbound⟩
  | reserve a _ => exact ⟨hcopies, hstore, horders, hbound⟩

/-! ### The binding -/

theorem State.bindingLaw_of_aside (h : s.Aside t) (hs : s.bindingLaw) : t.bindingLaw := by
  obtain ⟨hagree, hnone⟩ := hs
  refine ⟨fun d b => ?_, fun b hb => ?_⟩
  · rw [State.boundBay, h.bound, h.driver]
    exact hagree d b
  · rw [h.driver]
    rcases h.status b hb with hstatus | hdriver
    · exact hnone b hstatus
    · exact hdriver

theorem State.moveBay_get (s : State) (b x : Bay) (st : BayStatus) :
    (s.moveBay b st).bsc.get x = if x = b then { s.bsc.get b with status := st } else s.bsc.get x := by
  unfold State.moveBay
  split
  · rename_i hst
    split
    · subst_vars; rfl
    · rfl
  · rw [State.raiseFlag_bsc, State.modifyBay_bsc, PerBay.get_modify]
    split
    · subst_vars; rfl
    · rfl

theorem State.bindDriver_bsc (s : State) (b x : Bay) (n : Nat) :
    ((s.bindDriver b n).bsc.get x).driver = (if x = b then some n else (s.bsc.get x).driver)
      ∧ ((s.bindDriver b n).bsc.get x).status = (if x = b then .ident else (s.bsc.get x).status) := by
  rw [State.bindDriver, State.moveBay_get, State.modifyBay_bsc, PerBay.get_modify_self, PerBay.get_modify]
  split <;> exact ⟨rfl, rfl⟩

theorem State.bindingLaw_bindDriver {n : Nat} (hs : s.bindingLaw) (hlocked : (s.bsc.get b).status = .locked)
    (hfree : s.boundBay n = none) : (s.bindDriver b n).bindingLaw := by
  obtain ⟨hagree, hnone⟩ := hs
  have hdriver := hnone b (Or.inl hlocked)
  refine ⟨fun d x => ?_, fun x hx => ?_⟩
  · rw [State.boundBay, (s.bindDriver_parts b n).1, Assoc.find_put, (s.bindDriver_bsc b x n).1]
    have hboundBay : s.pt.bound.find d = some x ↔ (s.bsc.get x).driver = some d := hagree d x
    by_cases hdn : d = n <;> by_cases hxb : x = b
    · rw [if_pos hdn, if_pos hxb, hdn, hxb]
      exact iff_of_true rfl rfl
    · rw [if_pos hdn, if_neg hxb, ← hboundBay, hdn, show s.pt.bound.find n = none from hfree]
      exact iff_of_false (fun h => hxb (Option.some.inj h).symm) nofun
    · rw [if_neg hdn, if_pos hxb, hboundBay, hxb, hdriver]
      exact iff_of_false nofun fun h => hdn (Option.some.inj h).symm
    · rw [if_neg hdn, if_neg hxb]
      exact hboundBay
  · rw [(s.bindDriver_bsc b x n).2] at hx
    rw [(s.bindDriver_bsc b x n).1]
    split at hx
    · simp at hx
    · rename_i hxb
      rw [if_neg hxb]
      exact hnone x hx

theorem State.unbind_bsc (s : State) (b x : Bay) :
    ((s.unbind b).bsc.get x).driver = (if x = b then none else (s.bsc.get x).driver)
      ∧ ((s.unbind b).bsc.get x).status = (s.bsc.get x).status := by
  unfold State.unbind
  split
  · rw [State.modifyBay_bsc, PerBay.get_modify, State.setBound_bsc]
    split <;> exact ⟨rfl, rfl⟩
  · split
    · subst_vars; exact ⟨by assumption, rfl⟩
    · exact ⟨rfl, rfl⟩

theorem State.bindingLaw_unbind (hs : s.bindingLaw) : (s.unbind b).bindingLaw := by
  obtain ⟨hagree, hnone⟩ := hs
  refine ⟨fun d x => ?_, fun x hx => ?_⟩
  · rw [(s.unbind_bsc b x).1]
    have hboundBay : s.pt.bound.find d = some x ↔ (s.bsc.get x).driver = some d := hagree d x
    unfold State.unbind
    split
    · rename_i n hn
      have hb : s.boundBay n = some b := (hagree n b).mpr hn
      rw [State.boundBay, State.modifyBay_pt, State.setBound_pt]
      by_cases hdn : d = n
      · rw [hdn, Assoc.find_remove_self]
        refine iff_of_false nofun fun h => ?_
        split at h
        · exact absurd h nofun
        · rename_i hxb
          exact hxb (Option.some.inj (((hagree n x).mpr h).symm.trans hb))
      · rw [Assoc.find_remove_ne _ hdn, hboundBay]
        split
        · rename_i hxb
          rw [hxb, hn]
          exact iff_of_false (fun h => hdn (Option.some.inj h).symm) nofun
        · exact Iff.rfl
    · rename_i hn
      rw [State.boundBay, hboundBay]
      split
      · rename_i hxb
        rw [hxb, hn]
      · exact Iff.rfl
  · rw [(s.unbind_bsc b x).2] at hx
    rw [(s.unbind_bsc b x).1]
    split
    · rfl
    · exact hnone x hx

theorem State.Move.bindingLaw (h : State.Move m s t) (hs : s.bindingLaw) : t.bindingLaw := by
  cases h with
  | still h => exact State.bindingLaw_of_aside h.aside hs
  | enter c cls _ _ aside => exact State.bindingLaw_of_aside aside hs
  | note a n cls _ _ _ aside _ => exact State.bindingLaw_of_aside aside hs
  | bind b n hlocked hfree => exact State.bindingLaw_bindDriver hs hlocked hfree
  | unbind b => exact State.bindingLaw_unbind hs
  | written e _ => exact hs
  | reserve a _ => exact hs

/-! ### The note slots -/

/-- The arms with a property, an arm counted by itself. -/
theorem Arm.length_filter_all (f : Arm → Bool) (a : Arm) :
    (Arm.all.filter f).length = (Arm.all.erase a).countP f + if f a = true then 1 else 0 := by
  rw [← List.countP_eq_length_filter, (List.perm_cons_erase (Arm.mem_all a)).countP_eq, List.countP_cons]

theorem State.reservations_le (h : ∀ a, t.ns.reserved.get a = true → s.ns.reserved.get a = true) :
    t.reservations ≤ s.reservations := by
  unfold State.reservations
  rw [← List.countP_eq_length_filter, ← List.countP_eq_length_filter]
  exact List.countP_mono_left fun a _ => h a

/-- A reservation returned, at least. -/
theorem State.reservations_lt (h : ∀ a, t.ns.reserved.get a = true → s.ns.reserved.get a = true)
    (hs : s.ns.reserved.get a = true) (ht : t.ns.reserved.get a = false) : t.reservations < s.reservations := by
  have hothers : (Arm.all.erase a).countP (fun x => t.ns.reserved.get x)
      ≤ (Arm.all.erase a).countP fun x => s.ns.reserved.get x :=
    List.countP_mono_left fun x _ => h x
  simp only [State.reservations, Arm.length_filter_all _ a, hs, ht, if_true, Bool.false_eq_true, if_false]
  omega

/-- One reservation more, at most. -/
theorem State.reservations_set_le (s : State) (a : Arm) :
    (s.setNs { s.ns with reserved := s.ns.reserved.set a true }).reservations ≤ s.reservations + 1 := by
  have hothers : (Arm.all.erase a).countP (fun x => (s.ns.reserved.set a true).get x)
      ≤ (Arm.all.erase a).countP fun x => s.ns.reserved.get x := by
    refine List.countP_mono_left fun x hx => ?_
    rw [PerArm.get_set_of_ne _ _ ((List.Nodup.mem_erase_iff (by decide)).mp hx).1]
    exact id
  simp only [State.reservations, Arm.length_filter_all _ a, State.setNs_ns]
  split <;> omega

theorem releaseNotes_suffix (n : Nat) (notes : List NoteRecord) : releaseNotes n notes <:+ notes := by
  unfold releaseNotes
  split
  · exact (List.drop_suffix _ _).trans (List.dropWhile_suffix _)
  · exact List.nil_suffix

theorem NvRecords.write_notes_le (hc : s.admits c) : (s.wc.write c).notes.length ≤ s.wc.notes.length := by
  cases c
  case driver n d => cases d <;> exact le_rfl
  case note => exact hc.elim
  case release n => exact (releaseNotes_suffix n _).length_le
  all_goals exact le_rfl

theorem State.Books.notesHeld (h : s.Books t w q) : t.notesHeld = w.notes.length := by
  rw [State.notesHeld, h.records]

/-- Every working arm keeps the reservation it had. -/
theorem State.Aside.reserved (h : s.Aside t) (hs : ∀ a, s.armIdle a = false → s.ns.reserved.get a = true) (a : Arm)
    (ha : t.armIdle a = false) : t.ns.reserved.get a = true :=
  h.kept a ha ((h.idle a ha).elim (hs a) id)

theorem State.Move.notesLaw (h : State.Move m s t) (hs : s.notesLaw) : t.notesLaw := by
  obtain ⟨hslots, hreserved⟩ := hs
  cases h with
  | still h =>
    have hcount := State.reservations_le h.aside.fewer
    have hnotes : t.notesHeld = s.notesHeld := h.books.notesHeld
    exact ⟨by omega, h.aside.reserved hreserved⟩
  | enter c cls hc books aside =>
    have hcount := State.reservations_le aside.fewer
    have hnotes : t.notesHeld ≤ s.notesHeld := books.notesHeld.trans_le (NvRecords.write_notes_le hc)
    exact ⟨by omega, aside.reserved hreserved⟩
  | note a n cls _ hworks books aside hreturned =>
    have hcount := State.reservations_lt aside.fewer (hreserved a hworks) hreturned
    have hnotes : t.notesHeld = s.notesHeld + 1 := books.notesHeld.trans (by simp [NvRecords.write, State.notesHeld])
    exact ⟨by omega, aside.reserved hreserved⟩
  | bind b n _ _ =>
    obtain ⟨-, hwc, -, -, hns, hfc⟩ := s.bindDriver_parts b n
    rw [State.notesLaw, State.notesHeld, State.reservations, hwc, hns]
    refine ⟨hslots, fun a => ?_⟩
    rw [State.armIdle, hfc]
    exact hreserved a
  | unbind b =>
    unfold State.unbind
    split <;> exact ⟨hslots, hreserved⟩
  | written e _ => exact ⟨hslots, hreserved⟩
  | reserve a hfree =>
    have hcount := s.reservations_set_le a
    refine ⟨(Nat.add_le_add_left hcount s.notesHeld).trans hfree, fun x hx => ?_⟩
    rw [State.setNs_ns, PerArm.get_set]
    split
    · rfl
    · exact hreserved x hx

/-! ### The attempt limit -/

theorem State.attemptLaw_of_records (h : t.wc.drivers = s.wc.drivers) (hr : t.wc.rack = s.wc.rack) (hs : s.attemptLaw) :
    t.attemptLaw := by
  rw [State.attemptLaw, h, hr]
  exact hs

theorem State.attemptLaw_write (hc : s.admits c) (hs : s.attemptLaw) :
    1 ≤ (s.wc.write c).rack.attemptLimit
      ∧ ∀ e ∈ (s.wc.write c).drivers, e.2.inStep (s.wc.write c).rack.attemptLimit = true := by
  obtain ⟨hlimit, hstep⟩ := hs
  cases c
  case driver n d =>
    cases d with
    | none => exact ⟨hlimit, fun e he => hstep e (Assoc.mem_remove he)⟩
    | some d =>
      refine ⟨hlimit, fun e he => ?_⟩
      rcases Assoc.mem_put he with rfl | he
      · exact hc ⟨hlimit, hstep⟩
      · exact hstep e he
  case rack r => exact hc
  all_goals exact ⟨hlimit, hstep⟩

theorem State.Move.attemptLaw (h : State.Move m s t) (hs : s.attemptLaw) : t.attemptLaw := by
  cases h with
  | still h => exact State.attemptLaw_of_records (by rw [h.books.records]) (by rw [h.books.records]) hs
  | enter c cls hc books _ =>
    rw [State.attemptLaw, books.records]
    exact State.attemptLaw_write hc hs
  | note a n cls _ _ books _ _ => exact State.attemptLaw_of_records (by rw [books.records]; rfl) (by rw [books.records]; rfl) hs
  | bind b n _ _ =>
    obtain ⟨-, hwc, -⟩ := s.bindDriver_parts b n
    exact State.attemptLaw_of_records (by rw [hwc]) (by rw [hwc]) hs
  | unbind b =>
    unfold State.unbind
    split <;> exact hs
  | written e _ => exact hs
  | reserve a _ => exact hs

end Sys2Proof.Machine
end

section
/-! The working copies and what a reset would rebuild of them, move by move (R163, R164). -/

namespace Sys2Proof.Machine

variable {s t u : State} {a : Arm} {b : Bay} {c : NvContents} {k m : Nat} {r w : NvRecords} {q : List NvEntry} {e : NvEntry}
  {n : NoteRecord} {nvc : NvController}

/-! ### The records but for the live stock and the next note number -/

/-- The records with the stock and the next note number left out: what the law of the copies compares (R163). -/
def NvRecords.lasting (r : NvRecords) : NvRecords := { r with stock := NvRecords.blank.stock, nextNote := 0 }

theorem NvRecords.eq_iff_lasting (r r' : NvRecords) :
    r = { r' with stock := r.stock, nextNote := r.nextNote } ↔ r.lasting = r'.lasting := by
  obtain ⟨⟩ := r
  obtain ⟨⟩ := r'
  simp [NvRecords.lasting]

/-- A write changes the lasting records by the lasting records. -/
theorem NvRecords.lasting_write {r r' : NvRecords} (h : r.lasting = r'.lasting) (c : NvContents) :
    (r.write c).lasting = (r'.write c).lasting := by
  obtain ⟨⟩ := r
  obtain ⟨⟩ := r'
  simp only [NvRecords.lasting, NvRecords.mk.injEq, true_and] at h
  obtain ⟨rfl, rfl, rfl, rfl, rfl, rfl, rfl, rfl, rfl, rfl, rfl⟩ := h
  cases c
  case driver n d => cases d <;> rfl
  all_goals rfl

/-! ### The notes that entries carry -/

/-- The note an entry carries. -/
def NvContents.noteOf : NvContents → Option NoteRecord
  | .note n _ => some n
  | _ => none

/-- The notes of a list of entries, in their order. -/
def notesIn (q : List NvEntry) : List NoteRecord := q.filterMap fun e => e.contents.noteOf

theorem NvController.noteNumbers_eq (nvc : NvController) :
    nvc.noteNumbers = (nvc.store.notes ++ notesIn nvc.waiting).map NoteRecord.number := by
  rw [NvController.noteNumbers, notesIn, List.map_append, List.map_filterMap]
  congr 1
  refine List.filterMap_congr fun e _ => ?_
  cases e.contents <;> rfl

theorem notesIn_append (q q' : List NvEntry) : notesIn (q ++ q') = notesIn q ++ notesIn q' := List.filterMap_append ..

theorem notesIn_cons (e : NvEntry) (q : List NvEntry) : notesIn (e :: q) = e.contents.noteOf.toList ++ notesIn q := by
  rw [notesIn, List.filterMap_cons]
  cases e.contents.noteOf <;> rfl

/-- What a write does to the notes. -/
theorem NvRecords.notes_write (r : NvRecords) (h : c.isRelease = false) : (r.write c).notes = r.notes ++ c.noteOf.toList := by
  cases c
  case note => rfl
  case release => exact absurd h (by simp [NvContents.isRelease])
  case driver n d => cases d <;> exact (List.append_nil _).symm
  all_goals exact (List.append_nil _).symm

theorem NvRecords.notes_write_suffix (r : NvRecords) (c : NvContents) : (r.write c).notes <:+ r.notes ++ c.noteOf.toList := by
  cases h : c.isRelease
  · rw [r.notes_write h]
  · obtain ⟨n, rfl⟩ : ∃ n, c = .release n := by cases c <;> simp_all [NvContents.isRelease]
    exact (List.append_nil r.notes).symm ▸ releaseNotes_suffix n r.notes

/-- The notes once entries are written are the newest of those held before and carried by them. -/
theorem NvRecords.notes_writeAll_suffix (r : NvRecords) (q : List NvEntry) : (r.writeAll q).notes <:+ r.notes ++ notesIn q := by
  induction q generalizing r with
  | nil => simp [NvRecords.writeAll, notesIn]
  | cons e q ih =>
    obtain ⟨older, holder⟩ := r.notes_write_suffix e.contents
    refine (ih (r.write e.contents)).trans ⟨older, ?_⟩
    rw [notesIn_cons, ← List.append_assoc, ← List.append_assoc, holder]

/-- Without releases every note held and carried stays. -/
theorem NvRecords.notes_writeAll (r : NvRecords) (h : ∀ e ∈ q, e.contents.isRelease = false) :
    (r.writeAll q).notes = r.notes ++ notesIn q := by
  induction q generalizing r with
  | nil => simp [NvRecords.writeAll, notesIn]
  | cons e q ih =>
    have hrest := ih (r.write e.contents) fun x hx => h x (List.mem_cons_of_mem _ hx)
    rw [NvRecords.writeAll, List.foldl_cons, hrest, r.notes_write (h e (List.mem_cons_self ..)), notesIn_cons, List.append_assoc]

/-! ### A release (R164) -/

theorem releaseNotes_of_split {number : Nat} {pre post : List NoteRecord} (hn : n.number = number)
    (hpre : number ∉ pre.map NoteRecord.number) : releaseNotes number (pre ++ n :: post) = post := by
  have hall : ∀ x ∈ pre, decide (x.number ≠ number) = true := fun x hx => by
    simpa using fun h : x.number = number => hpre (h ▸ List.mem_map_of_mem hx)
  have hany : (pre ++ n :: post).any (fun x => decide (x.number = number)) = true := by simp [hn]
  rw [releaseNotes, if_pos hany, List.dropWhile_append_of_pos hall, List.dropWhile_cons_of_neg (by simp [hn])]
  rfl

theorem releaseNotes_of_not_mem {number : Nat} {notes : List NoteRecord} (h : number ∉ notes.map NoteRecord.number) :
    releaseNotes number notes = [] := by
  rw [releaseNotes, if_neg]
  simpa using h

/-- A release leaves no note of its number. -/
theorem releaseNotes_not_mem {number : Nat} {notes : List NoteRecord} (h : (notes.map NoteRecord.number).Nodup) :
    number ∉ (releaseNotes number notes).map NoteRecord.number := by
  by_cases hmem : number ∈ notes.map NoteRecord.number
  · obtain ⟨x, hx, rfl⟩ := List.mem_map.mp hmem
    obtain ⟨pre, post, rfl⟩ := List.append_of_mem hx
    rw [List.map_append, List.map_cons, List.nodup_middle, List.nodup_cons, List.mem_append, not_or] at h
    obtain ⟨⟨hpre, hpost⟩, -⟩ := h
    rwa [releaseNotes_of_split rfl hpre]
  · rw [releaseNotes_of_not_mem hmem]
    exact List.not_mem_nil

/-- The settings among the lasting records: all but the notes. -/
def NvRecords.settings (r : NvRecords) : NvRecords := { r.lasting with notes := [] }

theorem NvRecords.lasting_eq_of {r r' : NvRecords} (h : r.settings = r'.settings) (hn : r.notes = r'.notes) :
    r.lasting = r'.lasting := by
  obtain ⟨⟩ := r
  obtain ⟨⟩ := r'
  simp only [NvRecords.settings, NvRecords.lasting, NvRecords.mk.injEq, true_and] at h hn ⊢
  simp [h, hn]

theorem NvRecords.settings_write {r r' : NvRecords} (h : r.settings = r'.settings) (c : NvContents) :
    (r.write c).settings = (r'.write c).settings := by
  obtain ⟨⟩ := r
  obtain ⟨⟩ := r'
  simp only [NvRecords.settings, NvRecords.lasting, NvRecords.mk.injEq, true_and] at h
  obtain ⟨rfl, rfl, rfl, rfl, rfl, rfl, rfl, rfl, rfl, rfl⟩ := h
  cases c
  case driver n d => cases d <;> rfl
  all_goals rfl

/-- Notes and their releases change no setting. -/
theorem NvRecords.settings_write_of_not_keyed (r : NvRecords) (h : c.keyed = false) : (r.write c).settings = r.settings := by
  cases c
  case note | release => rfl
  all_goals exact absurd h (by simp [NvContents.keyed])

/-- Lists of entries with the same settings in the same order write the same settings. -/
theorem NvRecords.settings_writeAll (r : NvRecords) (q : List NvEntry) :
    (r.writeAll q).settings = (r.writeAll (q.filter fun e => e.contents.keyed)).settings := by
  have hcongr : ∀ (q : List NvEntry) {r r' : NvRecords}, r.settings = r'.settings →
      (r.writeAll q).settings = (r'.writeAll q).settings := by
    intro q
    induction q with
    | nil => exact fun h => h
    | cons e q ih => exact fun h => ih (NvRecords.settings_write h e.contents)
  induction q generalizing r with
  | nil => rfl
  | cons e q ih =>
    rw [List.filter_cons]
    split
    · exact ih (r.write e.contents)
    · rename_i h
      exact (hcongr q (r.settings_write_of_not_keyed (by simpa using h))).trans (ih r)

/-! ### A release handed to the queue -/

/-- Entries of one key in the queue: the entry is put in that place. -/
theorem map_absorb_of_split {o : NvEntry} {q1 q2 : List NvEntry} (ho : o.contents.key = e.contents.key)
    (hkeys : ((q1 ++ o :: q2).map fun x => x.contents.key).Nodup) :
    (q1 ++ o :: q2).map e.absorb = q1 ++ e.absorb o :: q2 := by
  rw [List.map_append, List.map_cons, List.nodup_middle, List.nodup_cons, List.mem_append, not_or] at hkeys
  obtain ⟨⟨h1, h2⟩, -⟩ := hkeys
  have hid : ∀ l : List NvEntry, o.contents.key ∉ l.map (fun x => x.contents.key) → l.map e.absorb = l := fun l hl => by
    conv_rhs => rw [← List.map_id l]
    refine List.map_congr_left fun x hx => if_neg fun hk => hl ?_
    rw [ho, ← hk]
    exact List.mem_map_of_mem (f := fun x : NvEntry => x.contents.key) hx
  rw [List.map_append, List.map_cons, hid q1 h1, hid q2 h2]

/-- A release joins the queue behind its notes, or takes the place of its own note; other releases leave (R164). -/
theorem enqueue_release {number : Nat} (he : e.contents = .release number) (hkeys : (q.map fun o => o.contents.key).Nodup)
    (hnone : ∀ o ∈ q, o.contents ≠ .release number) :
    enqueue q e = (q.filter fun o => !o.contents.isRelease) ++ [e]
      ∨ ∃ q1 q2 o e', (q.filter fun o => !o.contents.isRelease) = q1 ++ o :: q2
          ∧ (∃ n next, o.contents = .note n next ∧ n.number = number)
          ∧ e'.contents = .release number ∧ enqueue q e = q1 ++ e' :: q2 := by
  have hdrop : dropOlderReleases e q = q.filter fun o => !o.contents.isRelease := by
    rw [dropOlderReleases, he, NvContents.isRelease, if_pos rfl]
    refine List.filter_congr fun o ho => ?_
    have hne := hnone o ho
    cases hc : o.contents <;> simp_all [NvContents.isRelease, NvContents.key]
  rw [enqueue, hdrop]
  split
  · rename_i hany
    obtain ⟨o, hmem, hkey⟩ := List.any_eq_true.mp hany
    have hkey : o.contents.key = e.contents.key := of_decide_eq_true hkey
    have hnot : o.contents.isRelease = false := by simpa using (List.mem_filter.mp hmem).2
    obtain ⟨q1, q2, hsplit⟩ := List.append_of_mem hmem
    refine Or.inr ⟨q1, q2, o, e.absorb o, hsplit, ?_, ?_, ?_⟩
    · rw [he] at hkey
      cases hc : o.contents <;> simp_all [NvContents.isRelease, NvContents.key]
    · rw [NvEntry.absorb, if_pos hkey, he]
    · rw [hsplit]
      refine map_absorb_of_split hkey (List.Nodup.sublist ?_ hkeys)
      rw [← hsplit]
      exact List.filter_sublist.map _
  · exact Or.inl rfl

theorem filter_keyed_of_filter_release (q : List NvEntry) :
    ((q.filter fun o => !o.contents.isRelease).filter fun o => o.contents.keyed) = q.filter fun o => o.contents.keyed := by
  rw [List.filter_filter]
  refine List.filter_congr fun o _ => ?_
  cases o.contents <;> rfl

theorem notesIn_filter_release (q : List NvEntry) : notesIn (q.filter fun o => !o.contents.isRelease) = notesIn q := by
  rw [notesIn, notesIn, List.filterMap_filter]
  refine List.filterMap_congr fun o _ => ?_
  cases o.contents <;> rfl

/-- A note queued has its number among the keys of the queue. -/
theorem key_of_mem_notesIn (h : n ∈ notesIn q) : ∃ o ∈ q, o.contents.key = .note n.number := by
  obtain ⟨o, ho, hn⟩ := List.mem_filterMap.mp h
  refine ⟨o, ho, ?_⟩
  cases hc : o.contents <;> simp_all [NvContents.noteOf, NvContents.key]

/-- While the oldest note is there, its release does not wait. -/
theorem not_release_of_oldest (hkeys : (q.map fun o => o.contents.key).Nodup)
    (hnumbers : ((r.notes ++ notesIn q).map NoteRecord.number).Nodup) (hn : n ∈ (r.writeAll q).notes) :
    ∀ o ∈ q, o.contents ≠ .release n.number := by
  intro o ho hrelease
  obtain ⟨q1, q2, rfl⟩ := List.append_of_mem ho
  rw [List.map_append, List.map_cons, List.nodup_middle, List.nodup_cons, List.mem_append, not_or] at hkeys
  obtain ⟨⟨-, hq2⟩, -⟩ := hkeys
  have hold : ((r.writeAll q1).notes.map NoteRecord.number).Nodup := by
    refine List.Nodup.sublist ((r.notes_writeAll_suffix q1).sublist.map _) (List.Nodup.sublist ?_ hnumbers)
    rw [notesIn_append, ← List.append_assoc]
    exact (List.sublist_append_left _ _).map _
  have hwritten : (r.writeAll (q1 ++ o :: q2)).notes <:+ releaseNotes n.number (r.writeAll q1).notes ++ notesIn q2 := by
    rw [NvRecords.writeAll, List.foldl_append, List.foldl_cons, hrelease]
    exact NvRecords.notes_writeAll_suffix _ q2
  rcases List.mem_append.mp (hwritten.subset hn) with hmem | hmem
  · exact releaseNotes_not_mem hold (List.mem_map_of_mem hmem)
  · obtain ⟨x, hx, hkey⟩ := key_of_mem_notesIn hmem
    refine hq2 ?_
    rw [hrelease, NvContents.key, ← hkey]
    exact List.mem_map_of_mem (f := fun x : NvEntry => x.contents.key) hx

/-- What the release of the oldest note comes to once all is written: its own write last (R164). -/
theorem NvRecords.writeAll_enqueue_release {rest : List NoteRecord} (he : e.contents = .release n.number)
    (hkeys : (q.map fun o => o.contents.key).Nodup) (hnumbers : ((r.notes ++ notesIn q).map NoteRecord.number).Nodup)
    (holdest : (r.writeAll q).notes = n :: rest) :
    (r.writeAll (enqueue q e)).lasting = ((r.writeAll q).write e.contents).lasting
      ∧ (notesIn (enqueue q e)).Sublist (notesIn q) := by
  have hnone := not_release_of_oldest hkeys hnumbers (n := n) (by rw [holdest]; exact List.mem_cons_self ..)
  have hplain : ∀ o ∈ q.filter (fun o => !o.contents.isRelease), o.contents.isRelease = false := fun o ho => by
    simpa using (List.mem_filter.mp ho).2
  obtain ⟨pre, hpre⟩ := holdest ▸ r.notes_writeAll_suffix q
  have hnumber : n.number ∉ pre.map NoteRecord.number := by
    rw [← hpre, List.map_append, List.map_cons, List.nodup_middle, List.nodup_cons, List.mem_append, not_or] at hnumbers
    exact hnumbers.1.1
  have hleft : releaseNotes n.number (r.notes ++ notesIn q) = rest := by
    rw [← hpre]
    exact releaseNotes_of_split rfl hnumber
  have hafter : ((r.writeAll q).write e.contents).notes = rest := by
    rw [he, NvRecords.write, holdest]
    exact releaseNotes_of_split (pre := []) rfl (by simp)
  have hsettings : ((r.writeAll q).write e.contents).settings = (r.writeAll q).settings :=
    NvRecords.settings_write_of_not_keyed _ (by rw [he]; rfl)
  rcases enqueue_release he hkeys hnone with hq | ⟨q1, q2, o, e', hsplit, ⟨x, next, ho, hx⟩, he', hq⟩
  · refine ⟨NvRecords.lasting_eq_of ?_ ?_, ?_⟩
    · rw [hsettings, NvRecords.settings_writeAll, hq, List.filter_append, filter_keyed_of_filter_release,
        NvRecords.settings_writeAll r q]
      simp [he, NvContents.keyed]
    · rw [hafter, hq, NvRecords.writeAll, List.foldl_append, ← hleft, ← notesIn_filter_release q,
        ← NvRecords.notes_writeAll r hplain]
      simp only [List.foldl_cons, List.foldl_nil, he]
      rfl
    · rw [hq, notesIn_append, notesIn_filter_release]
      simp [notesIn, he, NvContents.noteOf]
  · have hplain1 : ∀ o ∈ q1, o.contents.isRelease = false := fun o ho => hplain o (hsplit ▸ List.mem_append_left _ ho)
    have hplain2 : ∀ o ∈ q2, o.contents.isRelease = false := fun o ho =>
      hplain o (hsplit ▸ List.mem_append_right _ (List.mem_cons_of_mem _ ho))
    have hcarried : notesIn q = notesIn q1 ++ x :: notesIn q2 := by
      rw [← notesIn_filter_release, hsplit, notesIn_append, notesIn_cons, ho]
      rfl
    have hnew : notesIn (enqueue q e) = notesIn q1 ++ notesIn q2 := by
      rw [hq, notesIn_append, notesIn_cons, he']
      rfl
    have hfirst : n.number ∉ (r.notes ++ notesIn q1).map NoteRecord.number := by
      rw [hcarried, ← List.append_assoc, List.map_append, List.map_cons, hx, List.nodup_middle, List.nodup_cons, List.mem_append,
        not_or] at hnumbers
      exact hnumbers.1.1
    have hrest : rest = notesIn q2 := by
      rw [← hleft, hcarried, ← List.append_assoc]
      exact releaseNotes_of_split hx hfirst
    refine ⟨NvRecords.lasting_eq_of ?_ ?_, ?_⟩
    · rw [hsettings, NvRecords.settings_writeAll, NvRecords.settings_writeAll r q, ← filter_keyed_of_filter_release q, hsplit, hq]
      simp [he', ho, NvContents.keyed]
    · rw [hafter, hrest, hq, NvRecords.writeAll, List.foldl_append, List.foldl_cons, he', NvRecords.notes_writeAll _ hplain2]
      rw [NvRecords.write, NvRecords.notes_writeAll r hplain1, releaseNotes_of_not_mem hfirst]
      rfl
    · rw [hnew, hcarried]
      exact (List.sublist_cons_self _ _).append_left _

/-! ### The entries of other keys -/

/-- Records, settings and totals put in the place of their key, or at the end: the notes that wait stay. -/
theorem notesIn_enqueue_keyed (q : List NvEntry) (h : e.contents.keyed = true) : notesIn (enqueue q e) = notesIn q := by
  have hdrop : dropOlderReleases e q = q := by
    rw [dropOlderReleases, if_neg]
    cases hc : e.contents <;> simp_all [NvContents.keyed, NvContents.isRelease]
  have hnote : e.contents.noteOf = none := by cases hc : e.contents <;> simp_all [NvContents.keyed, NvContents.noteOf]
  rw [enqueue, hdrop]
  split
  · rw [notesIn, notesIn, List.filterMap_map]
    refine List.filterMap_congr fun o _ => ?_
    rw [Function.comp_apply, NvEntry.absorb]
    split
    · rename_i hk
      cases hc : e.contents <;> cases ho : o.contents <;> simp_all [NvContents.keyed, NvContents.key, NvContents.noteOf]
    · rfl
  · rw [notesIn_append]
    simp [notesIn, hnote]

/-- An entry with a key of its own joins the queue at its end. -/
theorem enqueue_new (hr : e.contents.isRelease = false) (h : ∀ o ∈ q, o.contents.key ≠ e.contents.key) :
    enqueue q e = q ++ [e] := by
  have hdrop : dropOlderReleases e q = q := by rw [dropOlderReleases, hr, if_neg (by decide)]
  rw [enqueue, hdrop, if_neg]
  simpa using h

/-- A handed entry brings no key but its own. -/
theorem mem_enqueue_key {o : NvEntry} (h : o ∈ enqueue q e) :
    o.contents.key = e.contents.key ∨ ∃ x ∈ q, x.contents.key = o.contents.key := by
  have hmem := List.mem_map_of_mem (f := fun o : NvEntry => o.contents.key) h
  have hdrop : ∀ x ∈ dropOlderReleases e q, x ∈ q := fun x hx => by
    unfold dropOlderReleases at hx
    split at hx
    · exact List.mem_of_mem_filter hx
    · exact hx
  have hold : ∀ k, k ∈ (dropOlderReleases e q).map (fun o => o.contents.key) → ∃ x ∈ q, x.contents.key = k := fun k hk => by
    obtain ⟨x, hx, rfl⟩ := List.mem_map.mp hk
    exact ⟨x, hdrop x hx, rfl⟩
  rw [enqueue_keys] at hmem
  split at hmem
  · exact Or.inr (hold _ hmem)
  · rcases List.mem_append.mp hmem with hmem | hmem
    · exact Or.inr (hold _ hmem)
    · exact Or.inl (List.mem_singleton.mp hmem)

theorem nodup_keys_enqueue (h : (q.map fun o => o.contents.key).Nodup) : ((enqueue q e).map fun o => o.contents.key).Nodup := by
  have hdrop : ((dropOlderReleases e q).map fun o => o.contents.key).Nodup := by
    unfold dropOlderReleases
    split
    · exact h.sublist (List.filter_sublist.map _)
    · exact h
  rw [enqueue_keys]
  split
  · exact hdrop
  · rename_i hnew
    refine List.nodup_append.mpr ⟨hdrop, List.nodup_singleton _, fun k hk k' hk' hkk => hnew ?_⟩
    obtain ⟨x, hx, rfl⟩ := List.mem_map.mp hk
    rw [List.mem_singleton.mp hk'] at hkk
    exact List.any_eq_true.mpr ⟨x, hx, decide_eq_true hkk⟩

/-! ### The invariant -/

/-- The number stands neither in the store nor in an entry that waits (R153). -/
def NvController.unused (nvc : NvController) (number : Nat) : Prop :=
  (∀ x ∈ nvc.store.notes, x.number ≠ number) ∧ ∀ o ∈ nvc.waiting, o.contents.key ≠ .note number

/-- The working copies are those a reset rebuilds, no note number stands twice, and the next `k` note numbers are unused. -/
structure State.Rebuilds (k : Nat) (s : State) : Prop where
  tables : s.nvc.store.tablesLaw
  keys : (s.nvc.queue.map fun o => o.contents.key).Nodup
  copies : s.wc.lasting = s.nvc.rebuilt.lasting
  numbers : s.nvc.noteNumbers.Nodup
  free : ∀ i < k, s.nvc.unused (noteNumberAfter^[i] s.wc.nextNote)

theorem State.Rebuilds.copiesLaw (h : s.Rebuilds k) : s.copiesLaw := ⟨(NvRecords.eq_iff_lasting _ _).mpr h.copies, h.numbers⟩

theorem State.rebuilds_of_laws (htables : s.tablesLaw) (hqueue : s.nvc.queueLaw) (hcopies : s.copiesLaw)
    (hfree : s.nvc.numbersFree s.wc.nextNote) : s.Rebuilds 4 :=
  ⟨htables.2.1, hqueue.1, (NvRecords.eq_iff_lasting _ _).mp hcopies.1, hcopies.2, hfree⟩

/-- The invariant depends on the lasting copies, the next note number and the NVC alone. -/
theorem State.Rebuilds.congr (h : s.Rebuilds k) (hwc : t.wc.lasting = s.wc.lasting) (hnext : t.wc.nextNote = s.wc.nextNote)
    (hnvc : t.nvc = s.nvc) : t.Rebuilds k :=
  ⟨hnvc ▸ h.tables, hnvc ▸ h.keys, by rw [hwc, hnvc, h.copies], hnvc ▸ h.numbers, by rw [hnext, hnvc]; exact h.free⟩

theorem State.Books.lasting (h : s.Books t w q) : t.wc.lasting = w.lasting := by
  rw [h.records]
  rfl

theorem State.Books.nextNote (h : s.Books t w q) : t.wc.nextNote = w.nextNote := by
  rw [h.records]

theorem State.Books.numbers (h : s.Books t w q) :
    t.nvc.noteNumbers = (s.nvc.store.notes ++ notesIn (s.nvc.buffer.toList ++ q)).map NoteRecord.number := by
  rw [NvController.noteNumbers_eq, h.store, h.waiting]

/-- The records a reset lays the queue over. -/
def NvController.base (nvc : NvController) : NvRecords := nvc.store.writeAll nvc.buffer.toList

theorem NvController.writeAll_buffer (nvc : NvController) (q : List NvEntry) :
    nvc.store.writeAll (nvc.buffer.toList ++ q) = nvc.base.writeAll q := List.foldl_append ..

theorem State.Rebuilds.still (h : s.Rebuilds k) (h' : s.Books t s.wc s.nvc.queue) : t.Rebuilds k where
  tables := h'.store ▸ h.tables
  keys := h.keys.sublist (h'.queue.sublist.map _)
  copies := by rw [h'.lasting, NvController.rebuilt_eq, h'.store, h'.waiting]; exact h.copies
  numbers := by rw [h'.numbers]; exact (NvController.noteNumbers_eq _) ▸ h.numbers
  free := fun i hi => by
    obtain ⟨hstore, hwaiting⟩ := h.free i hi
    rw [h'.nextNote]
    exact ⟨by rw [h'.store]; exact hstore, by rw [h'.waiting]; exact hwaiting⟩

/-! ### An entry handed over -/

/-- An entry that the queue takes so that its write comes last, with no note number used again. -/
theorem State.Rebuilds.entered (h : s.Rebuilds m) (books : s.Books t (s.wc.write e.contents) (enqueue s.nvc.queue e))
    (hlast : (s.nvc.base.writeAll (enqueue s.nvc.queue e)).lasting = ((s.nvc.base.writeAll s.nvc.queue).write e.contents).lasting)
    (hnumbers : ((s.nvc.store.notes ++ notesIn (s.nvc.buffer.toList ++ enqueue s.nvc.queue e)).map NoteRecord.number).Nodup)
    (hfree : ∀ i < k, s.nvc.unused (noteNumberAfter^[i] (s.wc.write e.contents).nextNote)
      ∧ e.contents.key ≠ .note (noteNumberAfter^[i] (s.wc.write e.contents).nextNote)) : t.Rebuilds k where
  tables := books.store ▸ h.tables
  keys := (nodup_keys_enqueue h.keys).sublist (books.queue.sublist.map _)
  copies := by
    rw [books.lasting, NvController.rebuilt_eq, books.store, books.waiting, NvController.writeAll_buffer, hlast]
    refine NvRecords.lasting_write ?_ _
    rw [h.copies, NvController.rebuilt_eq, NvController.waiting, NvController.writeAll_buffer]
  numbers := by rw [books.numbers]; exact hnumbers
  free := fun i hi => by
    obtain ⟨⟨hstore, hwaiting⟩, hkey⟩ := hfree i hi
    rw [books.nextNote]
    refine ⟨by rw [books.store]; exact hstore, fun o ho => ?_⟩
    rw [books.waiting] at ho
    rcases List.mem_append.mp ho with ho | ho
    · exact hwaiting o (List.mem_append_left _ ho)
    · rcases mem_enqueue_key ho with hk | ⟨x, hx, hk⟩
      · rw [hk]
        exact hkey
      · rw [← hk]
        exact hwaiting x (List.mem_append_right _ hx)

theorem NvContents.nextNote_write (hc : s.admits c) : (s.wc.write c).nextNote = s.wc.nextNote := by
  cases c
  case driver n d => cases d <;> rfl
  case note => exact hc.elim
  all_goals rfl

theorem State.Rebuilds.notes (h : s.Rebuilds k) : s.wc.notes = (s.nvc.base.writeAll s.nvc.queue).notes := by
  have hnotes := congrArg NvRecords.notes h.copies
  rw [NvController.rebuilt_eq, NvController.waiting, NvController.writeAll_buffer] at hnotes
  exact hnotes

/-- The numbers of the notes in the order a reset lays them down. -/
theorem State.Rebuilds.base_numbers (h : s.Rebuilds k) :
    ((s.nvc.base.notes ++ notesIn s.nvc.queue).map NoteRecord.number).Nodup := by
  have hall := NvController.noteNumbers_eq _ ▸ h.numbers
  rw [NvController.waiting, notesIn_append, ← List.append_assoc] at hall
  exact hall.sublist (((NvRecords.notes_writeAll_suffix _ _).sublist.append_right _).map _)

/-- A note held is in the store or waits, so that its number is not one to come. -/
theorem State.Rebuilds.number_ne (h : s.Rebuilds k) (hn : n ∈ s.wc.notes) {number : Nat} (hunused : s.nvc.unused number) :
    n.number ≠ number := by
  obtain ⟨hstore, hwaiting⟩ := hunused
  have hnotes := congrArg NvRecords.notes h.copies
  have hmem : n ∈ s.nvc.store.notes ++ notesIn s.nvc.waiting :=
    (NvRecords.notes_writeAll_suffix _ _).subset (by
      rw [show s.wc.notes = _ from hnotes] at hn
      exact hn)
  rcases List.mem_append.mp hmem with hmem | hmem
  · exact hstore n hmem
  · obtain ⟨o, ho, hkey⟩ := key_of_mem_notesIn hmem
    exact fun heq => hwaiting o ho (hkey.trans (by rw [heq]))

theorem State.Rebuilds.enter {cls : EntryClass} (h : s.Rebuilds k) (hc : s.admits c)
    (books : s.Books t (s.wc.write c) (enqueue s.nvc.queue { contents := c, cls := cls })) : t.Rebuilds k := by
  have hnext := NvContents.nextNote_write hc
  have hold := NvController.noteNumbers_eq _ ▸ h.numbers
  rw [NvController.waiting, notesIn_append] at hold
  cases hkeyed : c.keyed
  · obtain ⟨n, rfl⟩ : ∃ n, c = .release n := by cases c <;> simp_all [NvContents.keyed, State.admits]
    obtain ⟨oldest, rest, hnotes, rfl⟩ := hc
    obtain ⟨hlast, hsub⟩ := NvRecords.writeAll_enqueue_release (e := { contents := .release oldest.number, cls := cls }) rfl h.keys
      h.base_numbers (h.notes.symm.trans hnotes)
    refine h.entered books hlast ?_ fun i hi => ⟨hnext ▸ h.free i hi, fun hkey => ?_⟩
    · rw [notesIn_append]
      exact hold.sublist (((hsub.append_left _).append_left _).map _)
    · refine h.number_ne (n := oldest) (by rw [hnotes]; exact List.mem_cons_self ..) (h.free i hi) ?_
      rw [hnext] at hkey
      exact NvKey.note.inj hkey
  · have hlast := NvRecords.writeAll_enqueue (e := { contents := c, cls := cls })
      (NvRecords.tablesLaw_writeAll h.tables s.nvc.buffer.toList) hkeyed h.keys
    refine h.entered (e := { contents := c, cls := cls }) books (congrArg NvRecords.lasting hlast) ?_
      fun i hi => ⟨hnext ▸ h.free i hi, fun hkey => ?_⟩
    · rw [notesIn_append, notesIn_enqueue_keyed _ hkeyed]
      exact hold
    · cases c <;> simp_all [NvContents.keyed, NvContents.key]

/-- The next three note numbers differ from the one before them (R153). -/
theorem noteNumberAfter_iterate_ne (number : Nat) {i : Nat} (hi : i < 3) : noteNumberAfter^[i + 1] number ≠ number := by
  have hstep : ∀ n, noteNumberAfter n = n + 1 ∨ noteNumberAfter n = 1 ∧ 999999 ≤ n := fun n => by
    unfold noteNumberAfter Config.maxNoteNumber
    split <;> omega
  have h1 := hstep number
  have h2 := hstep (noteNumberAfter number)
  have h3 := hstep (noteNumberAfter (noteNumberAfter number))
  have hcases : i = 0 ∨ i = 1 ∨ i = 2 := by omega
  rcases hcases with rfl | rfl | rfl <;>
    simp only [Function.iterate_succ, Function.iterate_zero, Function.comp_apply, id_eq] <;> omega

theorem State.Rebuilds.note {cls : EntryClass} (h : s.Rebuilds (k + 1)) (hk : k < 4) (hnumber : n.number = s.wc.nextNote)
    (books : s.Books t (s.wc.write (.note n (noteNumberAfter n.number)))
      (enqueue s.nvc.queue { contents := .note n (noteNumberAfter n.number), cls := cls })) : t.Rebuilds k := by
  obtain ⟨hstore, hwaiting⟩ := h.free 0 (Nat.succ_pos k)
  rw [Function.iterate_zero, id_eq, ← hnumber] at hstore hwaiting
  have hq := enqueue_new (e := { contents := .note n (noteNumberAfter n.number), cls := cls }) (q := s.nvc.queue) rfl
    fun o ho => hwaiting o (List.mem_append_right _ ho)
  refine h.entered (e := { contents := .note n (noteNumberAfter n.number), cls := cls }) books ?_ ?_ fun i hi => ?_
  · rw [hq]
    exact congrArg NvRecords.lasting (List.foldl_append ..)
  · have hold := NvController.noteNumbers_eq _ ▸ h.numbers
    rw [hq, ← List.append_assoc, notesIn_append, ← List.append_assoc, List.map_append]
    refine List.nodup_append.mpr ⟨hold, List.nodup_singleton _, fun x hx y hy => ?_⟩
    rw [List.mem_singleton.mp hy]
    rintro rfl
    obtain ⟨z, hz, hzn⟩ := List.mem_map.mp hx
    rcases List.mem_append.mp hz with hz | hz
    · exact hstore z hz hzn
    · obtain ⟨o, ho, hkey⟩ := key_of_mem_notesIn hz
      exact hwaiting o ho (hkey.trans (congrArg NvKey.note hzn))
  · have hnext : noteNumberAfter^[i] (s.wc.write (.note n (noteNumberAfter n.number))).nextNote
        = noteNumberAfter^[i + 1] s.wc.nextNote := by
      rw [Function.iterate_succ_apply, ← hnumber]
      rfl
    rw [hnext]
    refine ⟨h.free (i + 1) (by omega), fun hkey => ?_⟩
    have := NvKey.note.inj hkey
    exact noteNumberAfter_iterate_ne _ (by omega) (this.symm.trans hnumber)

/-- The write of the buffer's entry completes. -/
theorem State.Rebuilds.written (h : s.Rebuilds k) (he : s.nvc.buffer = some e) :
    (s.setNvc { s.nvc with store := s.nvc.store.write e.contents, buffer := none }).Rebuilds k := by
  have hwaiting : s.nvc.waiting = e :: s.nvc.queue := by rw [NvController.waiting, he]; rfl
  obtain ⟨older, holder⟩ := s.nvc.store.notes_write_suffix e.contents
  refine ⟨NvRecords.tablesLaw_write h.tables _, h.keys, ?_, ?_, fun i hi => ?_⟩
  · have hcopies := h.copies
    rw [NvController.rebuilt_eq, hwaiting] at hcopies
    exact hcopies
  · have hold := NvController.noteNumbers_eq _ ▸ h.numbers
    rw [hwaiting, notesIn_cons, ← List.append_assoc, ← holder, List.append_assoc] at hold
    rw [NvController.noteNumbers_eq]
    exact hold.sublist ((List.sublist_append_right _ _).map _)
  · obtain ⟨hstore, hothers⟩ := h.free i hi
    rw [hwaiting] at hothers
    refine ⟨fun x hx => ?_, fun o ho => hothers o (List.mem_cons_of_mem _ ho)⟩
    have hmem : x ∈ s.nvc.store.notes ++ e.contents.noteOf.toList := by
      rw [← holder]
      exact List.mem_append_right _ hx
    rcases List.mem_append.mp hmem with hmem | hmem
    · exact hstore x hmem
    · have hkey := hothers e (List.mem_cons_self ..)
      cases hc : e.contents <;> simp_all [NvContents.noteOf, NvContents.key]

/-! ### Moves in turn -/

theorem State.Move.rebuilds (h : State.Move m s t) (hk : m + k ≤ 4) (hs : s.Rebuilds (m + k)) : t.Rebuilds k := by
  cases h with
  | still h => exact State.Rebuilds.still (by simpa using hs) h.books
  | enter c cls hc books _ => exact State.Rebuilds.enter (by simpa using hs) hc books
  | note a n cls hnumber _ books _ _ => exact State.Rebuilds.note (Nat.add_comm 1 k ▸ hs) (by omega) hnumber books
  | bind b n _ _ =>
    obtain ⟨-, hwc, hnvc, -⟩ := s.bindDriver_parts b n
    exact State.Rebuilds.congr (by simpa using hs) (by rw [hwc]) (by rw [hwc]) hnvc
  | unbind b =>
    refine State.Rebuilds.congr (by simpa using hs) ?_ ?_ ?_ <;> unfold State.unbind <;> split <;> rfl
  | written e he => exact State.Rebuilds.written (by simpa using hs) he
  | reserve a _ => exact State.Rebuilds.congr (s := s) (by simpa using hs) rfl rfl rfl

theorem State.Chain.rebuilds (h : s.Chain k t) {j : Nat} (hj : k + j ≤ 4) (hs : s.Rebuilds (k + j)) : t.Rebuilds j := by
  induction h generalizing j with
  | refl => simpa using hs
  | step _ hmove ih => exact hmove.rebuilds (by omega) (ih (by omega) (by rwa [← Nat.add_assoc]))

end Sys2Proof.Machine
end

section
/-! The laws of the tables, the driver binding, the note slots, the attempt limit and the working copies over a reset and over every
step (R36, R161 to R164, R168). -/

namespace Sys2Proof.Machine

variable {s t u : State} {a : Arm} {b : Bay} {c : NvContents} {k m : Nat} {n : NoteRecord} {x : ResetLines} {valid : Bool}

/-! ### Recovery notes -/

theorem State.Rebuilds.commit (h : s.Rebuilds k) (hc : s.admits c) (cls : EntryClass) : (s.commit c cls).Rebuilds k :=
  h.enter hc (s.books_commit c cls)

theorem State.Rebuilds.addNote (h : s.Rebuilds (k + 1)) (hk : k < 4) (hnumber : n.number = s.wc.nextNote) :
    (s.addNote a n).Rebuilds k := by
  have hparts := s.noted_parts a n
  have hnoted : (s.noted a n).Rebuilds (k + 1) := h.congr (by rw [hparts]) (by rw [hparts]) (by rw [hparts])
  have hentered := hnoted.note (cls := .endClass) hk (by rw [hparts]; exact hnumber) ((s.noted a n).books_commit _ _)
  rw [State.addNote_eq]
  exact (hentered.commit (c := .totals _ _) trivial _).commit (c := .stock _) trivial _

theorem State.Rebuilds.recover (h : s.Rebuilds (k + 1)) (hk : k < 4) (r : Restoration) (a : Arm) :
    (State.recover r s a).Rebuilds k := by
  unfold State.recover
  split
  · exact (h.addNote (a := a) (n := _) hk rfl).congr rfl rfl rfl
  · exact ⟨h.tables, h.keys, h.copies, h.numbers, fun i hi => h.free i (by omega)⟩

theorem State.Rebuilds.foldl_recover (r : Restoration) (arms : List Arm) (hk : arms.length ≤ 4) (h : s.Rebuilds arms.length) :
    (arms.foldl (State.recover r) s).Rebuilds 0 := by
  induction arms generalizing s with
  | nil => exact h
  | cons a rest ih =>
    rw [List.length_cons] at hk h
    exact ih (by omega) (h.recover (by omega) r a)

/-- The part after a reset, but for the links: as restored, with the recovery notes taken. -/
theorem State.leaveReset_eq (s : State) (x : ResetLines) (valid : Bool) {r : Restoration}
    (hr : s.restorationKind x.blankStrap valid = r) : ∃ lc notes, notes.length = ((s.restored x r).found Arm.all).length
      ∧ s.leaveReset x valid = { (s.restored x r).withNotes Arm.all notes with lc := lc } := by
  have hfold := (State.foldl_recover r Arm.all (by decide) (s.restored x r) rfl).1
  refine ⟨(Arm.all.foldl (State.recover r) (s.restored x r)).lc,
    notesFrom ((s.restored x r).recoveryNote r) (s.restored x r).wc.nextNote ((s.restored x r).found Arm.all), ?_, ?_⟩
  · rw [notesFrom_eq_mapIdx, List.length_mapIdx]
  · rw [State.leaveReset, hr]
    exact hfold

/-! ### What a reset restores -/

theorem State.copiesAfter_tables (h : s.nvc.store.tablesLaw) (r : Restoration) : (s.copiesAfter r).tablesLaw := by
  cases r
  case blank => exact NvRecords.tablesLaw_blank
  case retained => exact NvRecords.tablesLaw_writeAll h s.nvc.waiting
  case lost => exact h

theorem State.nvcAfter_tables (h : s.nvc.store.tablesLaw) (strap : Bool) (r : Restoration) :
    (s.nvcAfter strap r).store.tablesLaw := by
  cases r
  case blank => exact NvRecords.tablesLaw_blank
  all_goals exact h

theorem State.leaveReset_tablesLaw (h : s.tablesLaw) : (s.leaveReset x valid).tablesLaw := by
  obtain ⟨lc, notes, -, heq⟩ := s.leaveReset_eq x valid rfl
  obtain ⟨-, hstore, -, -⟩ := h
  rw [heq]
  exact ⟨State.copiesAfter_tables hstore _, State.nvcAfter_tables hstore _ _, rfl, rfl⟩

theorem State.leaveReset_bindingLaw : (s.leaveReset x valid).bindingLaw := by
  obtain ⟨lc, notes, -, heq⟩ := s.leaveReset_eq x valid rfl
  have hdriver : ∀ b, ((s.leaveReset x valid).bsc.get b).driver = none := fun b => by
    rw [heq]
    simp [State.withNotes, State.restored, BayController.fresh]
  refine ⟨fun d b => ?_, fun b _ => hdriver b⟩
  rw [hdriver, heq]
  simp [State.boundBay, State.withNotes, State.restored, Assoc.find]

/-- With retained memory and the law of the copies, the working copies are those before the reset (R163). -/
theorem State.copiesAfter_retained (h : s.copiesLaw) : s.copiesAfter .retained = s.wc := h.1.symm

theorem State.leaveReset_attemptLaw (hkept : s.restorationKind x.blankStrap valid ≠ .lost) (hcopies : s.copiesLaw)
    (h : s.attemptLaw) : (s.leaveReset x valid).attemptLaw := by
  obtain ⟨lc, notes, -, heq⟩ := s.leaveReset_eq x valid rfl
  have hrecords : ∀ r, r ≠ .lost → 1 ≤ (s.copiesAfter r).rack.attemptLimit
      ∧ ∀ e ∈ (s.copiesAfter r).drivers, e.2.inStep (s.copiesAfter r).rack.attemptLimit = true := fun r hr => by
    cases r
    case blank => exact State.attemptLaw_reset
    case retained => rw [State.copiesAfter_retained hcopies]; exact h
    case lost => exact absurd rfl hr
  rw [heq]
  exact hrecords _ hkept

/-- Where every running record found has its reservation, each recovery note takes the slot reserved for it. -/
theorem State.withNotes_slots {notes : List NoteRecord} (hlen : notes.length = (s.found Arm.all).length)
    (h : ∀ a, (s.running.get a).isSome = true → s.ns.reserved.get a = true) :
    (s.withNotes Arm.all notes).notesHeld + (s.withNotes Arm.all notes).reservations = s.notesHeld + s.reservations := by
  have hcount : ∀ (f g : Arm → Bool) (arms : List Arm), (∀ a, g a = true → f a = true) →
      arms.countP (fun a => f a && !g a) + arms.countP g = arms.countP f := fun f g arms hfg => by
    induction arms with
    | nil => rfl
    | cons a rest ih =>
      have ha := hfg a
      simp only [List.countP_cons]
      cases hf : f a <;> cases hg : g a <;> simp_all <;> omega
  have hfound : (s.found Arm.all).length = Arm.all.countP fun a => (s.running.get a).isSome := by
    rw [State.found, List.length_filterMap_eq_countP]
    exact List.countP_congr fun a _ => by simp
  have hreserved : (s.withNotes Arm.all notes).reservations =
      Arm.all.countP fun a => s.ns.reserved.get a && !(s.running.get a).isSome := by
    rw [State.reservations, ← List.countP_eq_length_filter]
    refine List.countP_congr fun a _ => ?_
    rw [State.withNotes, State.takenReserved, PerArm.get_tabulate, State.taken_all]
  have hall := hcount (fun a => s.ns.reserved.get a) (fun a => (s.running.get a).isSome) Arm.all h
  have hheld : (s.withNotes Arm.all notes).notesHeld = s.notesHeld + notes.length := List.length_append
  have hbefore : s.reservations = Arm.all.countP fun a => s.ns.reserved.get a := List.countP_eq_length_filter.symm
  omega

theorem State.leaveReset_notesLaw (hkept : s.restorationKind x.blankStrap valid ≠ .lost) (hcopies : s.copiesLaw)
    (htotals : s.totalsLaw) (h : s.notesLaw) : (s.leaveReset x valid).notesLaw := by
  obtain ⟨hslots, hreserved⟩ := h
  obtain ⟨lc, notes, hlen, heq⟩ := s.leaveReset_eq x valid rfl
  generalize s.restorationKind x.blankStrap valid = r at hkept hlen heq
  have hrestored : (s.restored x r).notesHeld + (s.restored x r).reservations ≤ Config.maxNotes
      ∧ ∀ a, ((s.restored x r).running.get a).isSome = true → (s.restored x r).ns.reserved.get a = true := by
    cases r
    case lost => exact absurd rfl hkept
    case blank =>
      refine ⟨?_, fun a ha => ?_⟩
      · simp [State.notesHeld, State.reservations, State.restored, State.copiesAfter, NvRecords.blank, State.reservedAfter]
      · simp [State.restored, State.runningAfter] at ha
    case retained =>
      have hmarks : ∀ a, (s.restored x .retained).ns.reserved.get a = s.ns.reserved.get a := fun a => PerArm.get_tabulate ..
      refine ⟨?_, fun a ha => ?_⟩
      · have hheld : (s.restored x .retained).notesHeld = s.notesHeld :=
          congrArg (fun w : NvRecords => w.notes.length) (State.copiesAfter_retained hcopies)
        have hcount : (s.restored x .retained).reservations = s.reservations := by simp only [State.reservations, hmarks]
        rwa [hheld, hcount]
      · have hrunning : (s.running.get a).isSome = true := by simpa [State.restored, State.runningAfter] using ha
        rw [hmarks]
        refine hreserved a ?_
        rw [← (htotals a).1, Option.isNone_eq_false_iff]
        exact hrunning
  have hsame := State.withNotes_slots hlen hrestored.2
  rw [heq]
  refine ⟨hsame.trans_le hrestored.1, fun a ha => ?_⟩
  simp [State.armIdle, State.withNotes, State.restored, FlowController.fresh] at ha

theorem State.leaveReset_copiesLaw (h : (s.restored x (s.restorationKind x.blankStrap valid)).Rebuilds 4) :
    (s.leaveReset x valid).copiesLaw := (State.Rebuilds.foldl_recover _ Arm.all le_rfl h).copiesLaw

/-- With retained memory, or afresh, the copies restored are those rebuilt. -/
theorem State.restored_rebuilds {r : Restoration} (hr : r ≠ .lost) (h : s.Rebuilds 4) : (s.restored x r).Rebuilds 4 := by
  cases r
  case lost => exact absurd rfl hr
  case blank =>
    exact ⟨NvRecords.tablesLaw_blank, List.nodup_nil, rfl, List.nodup_nil, fun i _ =>
      ⟨fun n hn => absurd hn (by simp [State.restored, State.nvcAfter, NvRecords.blank]),
        fun o ho => absurd ho (by simp [State.restored, State.nvcAfter, NvController.waiting])⟩⟩
  case retained => exact ⟨h.tables, h.keys, rfl, h.numbers, h.free⟩

/-- With retained memory lost, the copies restored are the store's. -/
theorem State.restored_rebuilds_lost (htables : s.nvc.store.tablesLaw) (hnumbers : s.nvc.noteNumbers.Nodup)
    (hfree : NvController.numbersFree { s.nvc with buffer := none, queue := [] } s.nvc.store.nextNote) :
    (s.restored x .lost).Rebuilds 4 := by
  refine ⟨htables, List.nodup_nil, rfl, ?_, hfree⟩
  rw [NvController.noteNumbers_eq] at hnumbers ⊢
  exact hnumbers.sublist ((List.Sublist.append (List.Sublist.refl _) (List.nil_sublist _)).map _)

/-! ### Every command -/

/-- What a reset does: nothing without power, else the part leaves it, with the validity of retained memory the reset takes. -/
theorem exec_reset_cases {c : Instr} (hreset : c.isReset = true) (h : exec c s = .next t) :
    t = s ∨ ∃ x valid, t = s.leaveReset x valid
      ∧ (c = .externalReset x ∧ valid = true ∨ c = .powerOnReset x ∧ valid = s.nvc.retainedValid) := by
  cases c <;> cases hreset
  case externalReset x =>
    have ht : (if s.condition = .unpowered then s else s.leaveReset x true) = t := Host.Outcome.next.inj h
    split at ht
    · exact Or.inl ht.symm
    · exact Or.inr ⟨x, true, ht.symm, Or.inl ⟨rfl, rfl⟩⟩
  case powerOnReset x => exact Or.inr ⟨x, _, (Host.Outcome.next.inj h).symm, Or.inr ⟨rfl, rfl⟩⟩

/-- A step idles, makes moves in turn from the state without its command, or leaves a reset. -/
theorem step_cases (h : step s = .next t) :
    t = s ∨ ∃ c rest, s.pending = c :: rest
      ∧ (c.isReset = false ∧ ({ s with pending := rest } : State).Does t
        ∨ c.isReset = true ∧ exec c { s with pending := rest } = .next t) := by
  cases hp : s.pending with
  | nil =>
    rw [step, hp] at h
    exact Or.inl (Host.Outcome.next.inj h).symm
  | cons c rest =>
    rw [step, hp] at h
    refine Or.inr ⟨c, rest, rfl, ?_⟩
    cases hreset : c.isReset
    · exact Or.inl ⟨rfl, exec_does hreset h⟩
    · exact Or.inr ⟨rfl, h⟩

theorem State.Does.keeps {P : State → Prop} (h : s.Does t) (hs : P s) (hmove : ∀ {m s t}, State.Move m s t → P s → P t) :
    P t := by
  obtain ⟨k, -, hchain⟩ := h
  exact hchain.keeps hs hmove

theorem State.Does.copiesLaw (h : s.Does t) (hs : s.Rebuilds 4) : t.copiesLaw := by
  obtain ⟨k, hk, hchain⟩ := h
  have hsum : k + (4 - k) = 4 := by omega
  exact (hchain.rebuilds (j := 4 - k) (by omega) (hsum.symm ▸ hs)).copiesLaw

/-- Settles O57: every move keeps the tables and the binding, and a reset leaves the tables canonical and no driver bound. -/
theorem tablesAndBindingAreKept : Obligations.TablesAndBindingAreKept := by
  intro s t htables hbinding h
  rcases step_cases h with rfl | ⟨c, rest, -, ⟨-, hdoes⟩ | ⟨hreset, hexec⟩⟩
  · exact ⟨htables, hbinding⟩
  · exact ⟨hdoes.keeps (P := State.tablesLaw) htables State.Move.tablesLaw,
      hdoes.keeps (P := State.bindingLaw) hbinding State.Move.bindingLaw⟩
  · rcases exec_reset_cases hreset hexec with rfl | ⟨x, valid, rfl, -⟩
    · exact ⟨htables, hbinding⟩
    · exact ⟨State.leaveReset_tablesLaw htables, State.leaveReset_bindingLaw⟩

/-- The step is a reset that finds retained memory lost (R161). -/
def State.losing (s : State) : Prop :=
  ∃ x rest, s.pending = .powerOnReset x :: rest ∧ x.blankStrap = false ∧ s.nvc.formatMark = true
    ∧ s.nvc.retainedValid = false

theorem State.restorationKind_eq_lost_iff {strap : Bool} :
    s.restorationKind strap valid = .lost ↔ strap = false ∧ s.nvc.formatMark = true ∧ valid = false := by
  unfold State.restorationKind
  cases strap <;> cases s.nvc.formatMark <;> cases valid <;> decide

/-- Every step but a reset that finds retained memory lost, with the laws it needs for a reset. -/
theorem step_keeps_unless_losing (h : step s = .next t) (hkept : ¬s.losing) (hcopies : s.copiesLaw) :
    (s.totalsLaw → s.notesLaw → t.notesLaw) ∧ (s.attemptLaw → t.attemptLaw) ∧ (s.Rebuilds 4 → t.copiesLaw) := by
  rcases step_cases h with rfl | ⟨c, rest, hp, ⟨-, hdoes⟩ | ⟨hreset, hexec⟩⟩
  · exact ⟨fun _ => id, id, State.Rebuilds.copiesLaw⟩
  · exact ⟨fun _ hs => hdoes.keeps (P := State.notesLaw) hs State.Move.notesLaw,
      fun hs => hdoes.keeps (P := State.attemptLaw) hs State.Move.attemptLaw, fun hs => hdoes.copiesLaw (hs.congr rfl rfl rfl)⟩
  · rcases exec_reset_cases hreset hexec with rfl | ⟨x, valid, rfl, hvalid⟩
    · exact ⟨fun _ => id, id, fun hs => (hs.congr rfl rfl rfl : State.Rebuilds 4 { s with pending := rest }).copiesLaw⟩
    · have hkind : ({ s with pending := rest } : State).restorationKind x.blankStrap valid ≠ .lost := fun hlost => by
        obtain ⟨hstrap, hmark, rfl⟩ := State.restorationKind_eq_lost_iff.mp hlost
        rcases hvalid with ⟨-, hv⟩ | ⟨rfl, hv⟩
        · exact absurd hv (by decide)
        · exact hkept ⟨x, rest, hp, hstrap, hmark, hv.symm⟩
      exact ⟨fun htotals hs => State.leaveReset_notesLaw hkind hcopies htotals hs,
        fun hs => State.leaveReset_attemptLaw hkind hcopies hs, fun hs =>
           State.leaveReset_copiesLaw (State.restored_rebuilds hkind (hs.congr rfl rfl rfl))⟩

theorem step_copiesLaw_of_losing (h : step s = .next t) (hlost : s.losing) (htables : s.tablesLaw) (hcopies : s.copiesLaw)
    (hfree : NvController.numbersFree { s.nvc with buffer := none, queue := [] } s.nvc.store.nextNote) : t.copiesLaw := by
  obtain ⟨x, rest, hp, hstrap, hmark, hvalid⟩ := hlost
  rw [step, hp] at h
  obtain rfl := Host.Outcome.next.inj h
  have hkind : ({ s with pending := rest } : State).restorationKind x.blankStrap s.nvc.retainedValid = .lost :=
    State.restorationKind_eq_lost_iff.mpr ⟨hstrap, hmark, hvalid⟩
  refine State.leaveReset_copiesLaw ?_
  rw [hkind]
  exact State.restored_rebuilds_lost htables.2.1 hcopies.2 hfree

/-- Settles O59: every move keeps the slots and the attempt limit, a note using its arm's reservation; each recovery note takes the
slot its reservation held; and an entry handed over, written or restored leaves the copies those that a reset rebuilds. -/
theorem notesAndAttemptLawsAreKept : Obligations.NotesAndAttemptLawsAreKept := by
  refine ⟨fun s t hplain h => ?_, fun s t htables hqueue h => ⟨fun hkept hcopies htotals => ?_, fun hkept hcopies hfree => ?_,
    fun hlost hcopies hfree => step_copiesLaw_of_losing h hlost htables hcopies hfree⟩⟩
  · rcases step_cases h with rfl | ⟨c, rest, hp, ⟨-, hdoes⟩ | ⟨hreset, -⟩⟩
    · exact ⟨id, id⟩
    · exact ⟨fun hs => hdoes.keeps (P := State.notesLaw) hs State.Move.notesLaw,
        fun hs => hdoes.keeps (P := State.attemptLaw) hs State.Move.attemptLaw⟩
    · exact absurd hreset (by simp [hplain c rest hp])
  · obtain ⟨hnotes, hattempt, -⟩ := step_keeps_unless_losing h hkept hcopies
    exact ⟨hnotes htotals, hattempt⟩
  · obtain ⟨-, -, hrebuilt⟩ := step_keeps_unless_losing h hkept hcopies
    exact hrebuilt (State.rebuilds_of_laws htables hqueue hcopies hfree)

end Sys2Proof.Machine
end

section
/-! Signing in: CARD and PIN (R45 to R50). -/

namespace Sys2Proof.Machine

variable {α : Type} {s u : State} {l : Link} {b : Bay} {n : Nat} {d : DriverRecord} {r : Request} {code : Byte}
  {form : Walk α} {x : α} {owner : Bay → α → State → Answer} {p : PinField}

/-! ### Bays that move, and answers of their controllers -/

/-- A bay that changes its state: the state, and BAY_CHANGED (R74). -/
theorem State.moveBay_of_ne {st : BayStatus} (h : (s.bsc.get b).status ≠ st) :
    s.moveBay b st =
      { s with
        bsc := s.bsc.set b { s.bsc.get b with status := st }
        lc := (s.raiseFlag (.bayChanged b)).lc } := by
  rw [State.moveBay, if_neg h]
  rfl

/-- A Bay request refused in a state that admits it changes nothing. -/
theorem State.replies_of_bay {res : ResultCode} (h : s.asksAs (.panel b) l r code form x)
    (hres : res ≠ .ok) (ha : owner b x (s.setPlanReset l false) = (s.setPlanReset l false).refuse res) :
    s.replies (.next (s.serveBay l code form owner)) l r res [] false := by
  refine State.answers_of_bay h.1 h.2 ha rfl rfl (State.linked_setPlanReset (State.linked_refl s l)) ?_
  exact (if_neg hres).trans rfl

/-- A Bay request whose owner moves its bay: the answer sets BAY_CHANGED. -/
theorem State.answers_of_moved {ans : Answer} {res : ResultCode} {pl : List Byte} (h : s.asksAs (.panel b) l r code form x)
    (ha : owner b x (s.setPlanReset l false) = ans) (hr : ans.result = res) (hp : ans.payload = pl)
    (hlc : ans.state.lc = ((s.setPlanReset l false).raiseFlag (.bayChanged b)).lc)
    (hu : (if ans.result = .ok then ans.state.refreshInactivity b else ans.state) = { u with lc := ans.state.lc }) :
    s.answers (.next (s.serveBay l code form owner)) l r res pl false [.bayChanged b] u :=
  State.answers_of_bay h.1 h.2 ha hr hp
    (State.linked_congr (State.linked_raiseFlag (State.linked_setPlanReset (State.linked_refl s l)) (.bayChanged b)) hlc) hu

/-! ### CARD (R45 to R47) -/

theorem State.bindDriver_eq (h : (s.bsc.get b).status = .locked) :
    s.bindDriver b n =
      { s with
        lc := (s.raiseFlag (.bayChanged b)).lc
        pt := { bound := s.pt.bound.put n b }
        bsc := s.bsc.set b { s.bsc.get b with status := .ident, driver := some n, pinTimer := some 30000 } } := by
  have hne : (((s.setBound (s.pt.bound.put n b)).modifyBay b fun x =>
      { x with driver := some n, pinTimer := some Config.pinTime }).bsc.get b).status ≠ .ident := by
    simp [h]
  rw [State.bindDriver, State.moveBay_of_ne hne]
  cases b <;> rfl

theorem driverNumberOk_iff : driverNumberOk n = true ↔ 1 ≤ n ∧ n ≤ 99999999 := within_iff

/-- The permit has not expired: the clock is not set, there is no expiry day, or it is not yet past (R47). -/
theorem State.expired_eq_false_iff :
    s.expired d = false ↔ ∀ day, d.expiry = some day → s.lc.clock.isSet = true → s.lc.clock.count / 86400 ≤ day := by
  unfold State.expired
  cases d.expiry with
  | none => simp
  | some day =>
    rw [Bool.and_eq_false_iff, decide_eq_false_iff_not, Nat.not_lt, State.today]
    cases s.lc.clock.isSet <;> simp

section Card

variable (hlocked : (s.bsc.get b).status = .locked)
include hlocked

theorem cardOwner_of_not_number (hn : ¬(1 ≤ n ∧ n ≤ 99999999)) : cardOwner l b n s = s.refuse .range := by
  rw [cardOwner, if_neg (not_not.mpr hlocked), if_pos]
  rwa [Bool.not_eq_true', ← Bool.not_eq_true, driverNumberOk_iff]

variable (hn : 1 ≤ n ∧ n ≤ 99999999)
include hn

theorem cardOwner_of_unknown (hd : s.wc.drivers.find n = none) : cardOwner l b n s = s.refuse .notFound := by
  rw [cardOwner, if_neg (not_not.mpr hlocked), driverNumberOk_iff.mpr hn, if_neg (by decide), hd]

variable (hd : s.wc.drivers.find n = some d)
include hd

/-- A CARD in LOCKED of a driver on record, check by check. -/
theorem cardOwner_of_found :
    cardOwner l b n s =
      if d.status = .blocked then s.refuse .blocked
      else if s.expired d then s.refuse .expired
      else if (s.boundBay n).isSome then s.refuse .driverBusy
      else (s.bindDriver b n).accept (natBytes 1 (s.wc.rack.attemptLimit - d.failed)) := by
  rw [cardOwner, if_neg (not_not.mpr hlocked), driverNumberOk_iff.mpr hn, if_neg (by decide), hd]

theorem cardOwner_of_blocked (hblocked : d.status = .blocked) : cardOwner l b n s = s.refuse .blocked := by
  rw [cardOwner_of_found hlocked hn hd, if_pos hblocked]

variable (hactive : d.status = .active)
include hactive

theorem cardOwner_of_expired (hexpired : s.expired d = true) : cardOwner l b n s = s.refuse .expired := by
  rw [cardOwner_of_found hlocked hn hd, hactive, if_neg (by decide), if_pos hexpired]

theorem cardOwner_of_bound (hvalid : s.expired d = false) (hbound : s.boundBay n ≠ none) :
    cardOwner l b n s = s.refuse .driverBusy := by
  rw [cardOwner_of_found hlocked hn hd, hactive, if_neg (by decide), hvalid, if_neg (by decide),
    if_pos (Option.isSome_iff_ne_none.mpr hbound)]

theorem cardOwner_of_free (hvalid : s.expired d = false) (hfree : s.boundBay n = none) :
    cardOwner l b n s = (s.bindDriver b n).accept (natBytes 1 (s.wc.rack.attemptLimit - d.failed)) := by
  rw [cardOwner_of_found hlocked hn hd, hactive, if_neg (by decide), hvalid, if_neg (by decide), hfree, if_neg (by decide)]

end Card

/-- Settles O7: the checks of R45 in turn, and the binding. -/
theorem cardBindsOrIsRefused : Obligations.CardBindsOrIsRefused := by
  refine ⟨fun l b r n d s hasks hlocked hlo hhi hd hactive hday hfree => ?_, fun l b r n s hasks hlocked =>
    ⟨fun hrange => ?_, fun hn => ⟨fun hnone => ?_, fun d hd => ⟨fun hblocked => ?_, fun hactive =>
      ⟨fun day hexpiry hset hpast => ?_, fun hday hbound => ?_⟩⟩⟩⟩⟩
  · have howner := cardOwner_of_free (s := s.setPlanReset l false) (l := l) hlocked ⟨hlo, hhi⟩ hd hactive
      (State.expired_eq_false_iff.mpr hday) hfree
    rw [State.bindDriver_eq (s := s.setPlanReset l false) hlocked] at howner
    refine State.answers_of_moved hasks howner rfl rfl rfl ((if_pos rfl).trans ?_)
    cases b <;> rfl
  · exact State.replies_of_bay hasks (by decide) (cardOwner_of_not_number (s := s.setPlanReset l false) hlocked (by omega))
  · exact State.replies_of_bay hasks (by decide) (cardOwner_of_unknown (s := s.setPlanReset l false) hlocked hn hnone)
  · exact State.replies_of_bay hasks (by decide) (cardOwner_of_blocked (s := s.setPlanReset l false) hlocked hn hd hblocked)
  · have hexpired : (s.setPlanReset l false).expired d = true := by
      rw [← Bool.not_eq_false, State.expired_eq_false_iff]
      exact fun h => absurd (h day hexpiry hset) (not_le.mpr hpast)
    exact State.replies_of_bay hasks (by decide) (cardOwner_of_expired hlocked hn hd hactive hexpired)
  · exact State.replies_of_bay hasks (by decide) (cardOwner_of_bound (s := s.setPlanReset l false) hlocked hn hd hactive
      (State.expired_eq_false_iff.mpr hday) hbound)

/-! ### PIN (R48 to R50) -/

/-- A commit takes no account of the Link Controller. -/
theorem State.commit_with_lc (s : State) (lc : LinkController) (c : NvContents) (k : EntryClass) :
    ({ s with lc := lc } : State).commit c k = { s.commit c k with lc := lc } := by
  apply State.eq_of_parts <;> simp only [State.commit_condition, State.commit_lc, State.commit_ic, State.commit_wc, State.commit_pt,
    State.commit_ob, State.commit_bsc, State.commit_me, State.commit_fc, State.commit_running, State.commit_adu, State.commit_ns,
    State.commit_pending]
  exact State.commit_nvc_congr rfl rfl rfl

theorem State.putDriver_setPlanReset (s : State) (l : Link) (x : Bool) (n : Nat) (d : DriverRecord) :
    (s.setPlanReset l x).putDriver n d =
      { s.commit (.driver n (some d)) .setting with lc := (s.setPlanReset l x).lc } := State.commit_with_lc ..

/-- IDENT left for LOCKED: the driver unbound and the PIN timer stopped (R50, R51). -/
theorem State.abandonIdent_eq (hst : (s.bsc.get b).status = .ident) (hdriver : (s.bsc.get b).driver = some n) :
    s.abandonIdent b =
      { s with
        lc := (s.raiseFlag (.bayChanged b)).lc
        pt := { bound := s.pt.bound.remove n }
        bsc := s.bsc.set b { s.bsc.get b with status := .locked, driver := none, pinTimer := none } } := by
  have hunbound : s.unbind b = (s.setBound (s.pt.bound.remove n)).modifyBay b fun x => { x with driver := none } := by
    rw [State.unbind, hdriver]
  have hne : (((s.unbind b).modifyBay b fun x => { x with pinTimer := none }).bsc.get b).status ≠ .locked := by
    simp [hunbound, hst]
  rw [State.abandonIdent, State.moveBay_of_ne hne, hunbound]
  cases b <;> rfl

/-- IDENT left for SIGNED, with the inactivity timer the answer leaves (R49, R87). -/
theorem State.signIn_eq (hst : (s.bsc.get b).status = .ident) :
    ((s.modifyBay b fun x => { x with pinTimer := none }).moveBay b .signed).refreshInactivity b =
      { s with
        lc := (s.raiseFlag (.bayChanged b)).lc
        bsc := s.bsc.set b
          { s.bsc.get b with
            status := .signed, pinTimer := none
            inactivityTimer := if s.armsIdle b then some 300000 else none } } := by
  have hne : ((s.modifyBay b fun x => { x with pinTimer := none }).bsc.get b).status ≠ .signed := by simp [hst]
  rw [State.moveBay_of_ne hne]
  cases b <;> rfl

theorem PinField.rangeOk_iff :
    p.rangeOk = true ↔ 1 ≤ p.count ∧ p.count ≤ 8 ∧ ∀ x ∈ p.digits.take p.count, x ≤ 9 := by
  rw [PinField.rangeOk, Bool.and_eq_true, within_iff, List.all_eq_true, and_assoc]
  simp [PinField.used]

theorem pinOwner_of_not_range (hst : (s.bsc.get b).status = .ident) (hp : ¬p.rangeOk = true) :
    pinOwner l b p s = s.refuse .range := by
  rw [pinOwner, if_neg (not_not.mpr hst), if_pos (by simpa using hp)]

section Pin

variable (hst : (s.bsc.get b).status = .ident) (hp : p.rangeOk = true) (hdriver : (s.bsc.get b).driver = some n)
  (hd : s.wc.drivers.find n = some d)
include hst hp hdriver hd

theorem pinOwner_of_found : pinOwner l b p s = s.judgePin b n d p := by
  rw [pinOwner, if_neg (not_not.mpr hst), hp, if_neg (by decide), hdriver]
  simp only [hd]

theorem pinOwner_of_blocked (hblocked : d.status = .blocked) : pinOwner l b p s = (s.abandonIdent b).refuse .blocked := by
  rw [pinOwner_of_found hst hp hdriver hd, State.judgePin, if_pos hblocked]

variable (hactive : d.status = .active)
include hactive

theorem pinOwner_of_active :
    pinOwner l b p s =
      if s.nvBusy then s.refuse .busy
      else if p.count = d.pin.length && p.used = d.pin then
        (s.pinMatched b n d).accept (listBytes (natBytes 1) d.classes ++ optionalBytes (natBytes 2) d.expiry)
      else s.pinFailed b n d := by
  rw [pinOwner_of_found hst hp hdriver hd, State.judgePin, hactive, if_neg (by decide)]

theorem pinOwner_of_busy (hbusy : 8 ≤ s.nvc.queue.length) : pinOwner l b p s = s.refuse .busy := by
  rw [pinOwner_of_active hst hp hdriver hd hactive, if_pos (State.nvBusy_iff.mpr hbusy)]

variable (hfree : s.nvc.queue.length < 8)
include hfree

theorem pinOwner_of_match (hcount : p.count = d.pin.length) (hpin : p.digits.take p.count = d.pin) :
    pinOwner l b p s =
      (s.pinMatched b n d).accept (listBytes (natBytes 1) d.classes ++ optionalBytes (natBytes 2) d.expiry) := by
  rw [pinOwner_of_active hst hp hdriver hd hactive, State.not_nvBusy_of_lt hfree, if_neg (by decide), if_pos]
  exact (Bool.and_eq_true ..).mpr ⟨decide_eq_true hcount, decide_eq_true hpin⟩

theorem pinOwner_of_mismatch (hne : p.count ≠ d.pin.length ∨ p.digits.take p.count ≠ d.pin) :
    pinOwner l b p s = s.pinFailed b n d := by
  rw [pinOwner_of_active hst hp hdriver hd hactive, State.not_nvBusy_of_lt hfree, if_neg (by decide), if_neg]
  rcases hne with hne | hne <;> simp [PinField.used, hne]

end Pin

/-- A failed attempt below the limit (R50). -/
theorem State.pinFailed_of_lt (h : d.failed + 1 < s.wc.rack.attemptLimit) :
    s.pinFailed b n d =
      { result := .pinFailed, payload := natBytes 1 (s.wc.rack.attemptLimit - (d.failed + 1))
        state :=
          (s.putDriver n { d with failed := d.failed + 1 }).modifyBay b fun x => { x with pinTimer := some Config.pinTime } } :=
  if_pos h

/-- A failed attempt at the limit, or above it (R50, log 30). -/
theorem State.pinFailed_of_le (h : s.wc.rack.attemptLimit ≤ d.failed + 1) :
    s.pinFailed b n d = ((s.putDriver n { d with failed := d.failed + 1, status := .blocked }).abandonIdent b).refuse .blocked :=
  if_neg (not_lt.mpr h)

/-- The answer to a PIN that signs in, from the part as the count leaves it. -/
theorem State.answers_of_signIn {w : State} {pl : List Byte} (h : s.asksAs (.panel b) l r 0x21#8 takePin p)
    (hst : (s.bsc.get b).status = .ident) (hbsc : w.bsc = s.bsc) (hfc : w.fc = s.fc)
    (ha : pinOwner l b p (s.setPlanReset l false) =
      ((({ w with lc := (s.setPlanReset l false).lc } : State).modifyBay b fun x => { x with pinTimer := none }).moveBay b
        .signed).accept pl) :
    s.answers (exec (.pin l) s) l r .ok pl false [.bayChanged b]
      { w with
        bsc := s.bsc.set b
          { s.bsc.get b with
            status := .signed, pinTimer := none
            inactivityTimer := if s.armsIdle b then some 300000 else none } } := by
  have hstw : (({ w with lc := (s.setPlanReset l false).lc } : State).bsc.get b).status = .ident := by rw [← hst, ← hbsc]
  have hne : (((({ w with lc := (s.setPlanReset l false).lc } : State).modifyBay b fun x => { x with pinTimer := none }).bsc.get
      b)).status ≠ .signed := by simp [hbsc, hst]
  refine State.answers_of_moved h ha rfl rfl ?_ ((if_pos rfl).trans ((State.signIn_eq hstw).trans ?_))
  · rw [State.accept_state, State.moveBay_of_ne hne]
    rfl
  · rw [State.accept_state, State.moveBay_of_ne hne]
    simp only [hbsc, State.armsIdle, State.armIdle, hfc]
    rfl

/-- Settles O9: each outcome of the comparison, and the refusals before it. -/
theorem pinSignsInOrCounts : Obligations.PinSignsInOrCounts := by
  refine ⟨fun l b r p n d s hasks hst hlo hhi hdigits hdriver hd hactive hfree hcount hpin => ?_,
    fun l b r p n d s hasks hst hlo hhi hdigits hdriver hd hactive hfree hne => ?_,
    fun l b r p s hasks hst => ⟨fun hrange => ?_, fun n d hlo hhi hdigits hdriver hd => ?_⟩⟩
  · have hp : p.rangeOk = true := PinField.rangeOk_iff.mpr ⟨hlo, hhi, hdigits⟩
    have howner := pinOwner_of_match (s := s.setPlanReset l false) (l := l) hst hp hdriver hd hactive hfree hcount hpin
    rw [State.pinMatched] at howner
    split at howner
    case isTrue hzero =>
      rw [if_pos hzero]
      exact State.answers_of_signIn hasks hst rfl rfl howner
    case isFalse hcounted =>
      rw [if_neg hcounted]
      refine State.answers_of_signIn hasks hst (State.commit_bsc ..) (State.commit_fc ..) (howner.trans ?_)
      rw [State.putDriver, ← State.commit_with_lc]
      rfl
  · have hp : p.rangeOk = true := PinField.rangeOk_iff.mpr ⟨hlo, hhi, hdigits⟩
    have howner := pinOwner_of_mismatch (s := s.setPlanReset l false) (l := l) hst hp hdriver hd hactive hfree hne
    refine ⟨fun hlt => ?_, fun hle => ?_⟩
    · rw [State.pinFailed_of_lt (s := s.setPlanReset l false) hlt, State.putDriver_setPlanReset] at howner
      refine State.answers_of_bay hasks.1 hasks.2 howner rfl rfl (State.linked_setPlanReset (State.linked_refl s l))
        ((if_neg (by decide : ResultCode.pinFailed ≠ .ok)).trans ?_)
      simp only [State.modifyBay, State.commit_bsc]
      rfl
    · rw [State.pinFailed_of_le (s := s.setPlanReset l false) hle, State.putDriver_setPlanReset,
        State.abandonIdent_eq (n := n) (by simpa using hst) (by simpa using hdriver)] at howner
      refine State.answers_of_moved hasks howner rfl rfl rfl ((if_neg (by decide : ResultCode.blocked ≠ .ok)).trans ?_)
      simp only [State.commit_bsc, State.commit_pt]
      rfl
  · exact State.replies_of_bay hasks (by decide) (pinOwner_of_not_range (s := s.setPlanReset l false) hst (by
      rw [PinField.rangeOk_iff]
      rintro ⟨hlo, hhi, hdigits⟩
      obtain h | h | ⟨x, hx, h⟩ := hrange
      · omega
      · omega
      · exact absurd (hdigits x hx) (not_le.mpr h)))
  · have hp : p.rangeOk = true := PinField.rangeOk_iff.mpr ⟨hlo, hhi, hdigits⟩
    refine ⟨fun hblocked => ?_, fun hactive hbusy => ?_⟩
    · have howner := pinOwner_of_blocked (s := s.setPlanReset l false) (l := l) hst hp hdriver hd hblocked
      rw [State.abandonIdent_eq (s := s.setPlanReset l false) hst hdriver] at howner
      exact State.answers_of_moved hasks howner rfl rfl rfl ((if_neg (by decide : ResultCode.blocked ≠ .ok)).trans rfl)
    · exact State.replies_of_bay hasks (by decide)
        (pinOwner_of_busy (s := s.setPlanReset l false) hst hp hdriver hd hactive hbusy)

end Sys2Proof.Machine
end

section
/-! The Driver Table and its reading, with the Order Table's (R40 to R44, R66, R165). -/

namespace Sys2Proof.Machine

variable {s : State} {l : Link} {r : Request} {n : Nat} {d : DriverRecord} {p : PinField} {x : DriverFields}

/-! ### WRITE_DRIVER (R40, R41) -/

theorem driverStatusOf_of_le (h : n ≤ 1) : driverStatusOf n = some (if n = 0 then .active else .blocked) := by
  have hn : n = 0 ∨ n = 1 := by omega
  rcases hn with rfl | rfl <;> rfl

theorem driverStatusOf_of_lt (h : 1 < n) : driverStatusOf n = none := by
  unfold driverStatusOf
  split
  · omega
  · omega
  · rfl

theorem PinField.writable_iff :
    p.writable = true ↔ 4 ≤ p.count ∧ p.count ≤ 8 ∧ ∀ k ∈ p.digits.take p.count, k ≤ 9 := by
  rw [PinField.writable, Bool.and_eq_true, within_iff, List.all_eq_true, and_assoc]
  simp [PinField.used]

theorem DriverFields.rangeOk_iff :
    x.rangeOk = true ↔
      (1 ≤ x.number ∧ x.number ≤ 99999999)
        ∧ (4 ≤ x.pin.count ∧ x.pin.count ≤ 8 ∧ ∀ k ∈ x.pin.digits.take x.pin.count, k ≤ 9)
        ∧ (1 ≤ x.classes.length ∧ x.classes.length ≤ 8) ∧ (∀ k ∈ x.classes, 1 ≤ k ∧ k ≤ 8)
        ∧ ∀ day, x.expiry = some day → day ≤ 49710 := by
  simp only [DriverFields.rangeOk, Bool.and_eq_true, driverNumberOk_iff, PinField.writable_iff, within_iff, List.all_eq_true,
    and_assoc]
  cases x.expiry <;> simp

/-- The record WRITE_DRIVER writes, its count as R40 and R41 give it. -/
theorem DriverFields.record_eq (x : DriverFields) (old : Option DriverRecord) :
    x.record old (if x.status = 0 then .active else .blocked) =
      { pin := x.pin.digits.take x.pin.count, status := if x.status = 0 then .active else .blocked
        failed :=
          match old with
          | none => 0
          | some d => if d.status = .blocked ∧ x.status = 0 then 0 else d.failed
        classes := ascendingSet x.classes, expiry := x.expiry } := by
  cases old with
  | none => rfl
  | some d =>
    simp only [DriverFields.record, failedAfter, PinField.used]
    by_cases h : x.status = 0 <;> simp [h]

theorem writeDriverOwner_of_not_ranged (h : ¬(x.rangeOk = true ∧ x.status ≤ 1)) : writeDriverOwner x s = s.refuse .range := by
  unfold writeDriverOwner
  by_cases hst : x.status ≤ 1
  · rw [driverStatusOf_of_le hst]
    exact if_pos (by simpa using fun hok => h ⟨hok, hst⟩)
  · rw [driverStatusOf_of_lt (not_le.mp hst)]

theorem writeDriverOwner_of_ranged (h : x.rangeOk = true) (hst : x.status ≤ 1) :
    writeDriverOwner x s =
      if s.wc.drivers.find x.number = none ∧ 128 ≤ s.wc.drivers.length then s.refuse .full
      else
        s.writeSetting (decide (s.wc.drivers.find x.number =
            some (x.record (s.wc.drivers.find x.number) (if x.status = 0 then .active else .blocked))))
          (.driver x.number (some (x.record (s.wc.drivers.find x.number) (if x.status = 0 then .active else .blocked)))) := by
  unfold writeDriverOwner
  rw [driverStatusOf_of_le hst, h]
  simp only [Bool.not_true, Bool.false_eq_true, if_false, Bool.and_eq_true, Option.isNone_iff_eq_none, decide_eq_true_iff]
  rfl

/-! ### DELETE_DRIVER and RESET_PIN (R42, R43) -/

theorem deleteDriverOwner_of_not_number (h : ¬(1 ≤ n ∧ n ≤ 99999999)) : deleteDriverOwner n s = s.refuse .range :=
  if_pos (by rwa [Bool.not_eq_true', ← Bool.not_eq_true, driverNumberOk_iff])

theorem deleteDriverOwner_of_number (h : 1 ≤ n ∧ n ≤ 99999999) :
    deleteDriverOwner n s =
      if s.wc.drivers.find n = none then s.refuse .notFound
      else if s.boundBay n ≠ none then s.refuse .driverBusy
      else s.writeSetting (decide False) (.driver n none) := by
  rw [deleteDriverOwner, driverNumberOk_iff.mpr h, if_neg (by decide)]
  simp only [Option.isNone_iff_eq_none, Option.isSome_iff_ne_none, decide_false]

theorem resetPinOwner_of_not_ranged (h : ¬((1 ≤ n ∧ n ≤ 99999999) ∧ p.writable = true)) :
    resetPinOwner (n, p) s = s.refuse .range := by
  refine if_pos ?_
  rw [← driverNumberOk_iff] at h
  cases hn : driverNumberOk n <;> simp_all

theorem resetPinOwner_of_ranged (h : (1 ≤ n ∧ n ≤ 99999999) ∧ p.writable = true) :
    resetPinOwner (n, p) s =
      match s.wc.drivers.find n with
      | none => s.refuse .notFound
      | some d =>
        s.writeSetting (decide (d = { d with pin := p.digits.take p.count, failed := 0, status := .active }))
          (.driver n (some { d with pin := p.digits.take p.count, failed := 0, status := .active })) := by
  refine if_neg ?_
  rw [driverNumberOk_iff.mpr h.1, h.2]
  decide

/-- Settles O21: the checks of each request in turn, then the setting write with its BUSY. -/
theorem driversAreWritten : Obligations.DriversAreWritten := by
  refine fun l r s => ⟨fun x h => ?_, fun n h => ?_, fun n p h => ?_⟩ <;>
    have hrole : RequestClass.office.mayIssue (s.lc.links.get l).role = true := by rw [h.2]; rfl
  · intro refuses ranged
    have hranged : ranged ↔ x.rangeOk = true ∧ x.status ≤ 1 := by
      rw [DriverFields.rangeOk_iff]
      simp only [ranged]
      tauto
    refine ⟨fun hno => ?_, fun hyes hnew hfull => ?_, fun hyes hroom => ?_⟩
    · exact State.replies_of_owner h.1 hrole (writeDriverOwner_of_not_ranged (hranged.not.mp hno))
    · obtain ⟨hok, hst⟩ := hranged.mp hyes
      exact State.replies_of_owner h.1 hrole ((writeDriverOwner_of_ranged hok hst).trans (if_pos ⟨hnew, hfull⟩))
    · obtain ⟨hok, hst⟩ := hranged.mp hyes
      obtain ⟨hmem, hsorted⟩ := ascendingSet_spec x.classes
      have howner := (writeDriverOwner_of_ranged (s := s) hok hst).trans (if_neg (by
        rintro ⟨hnone, hlen⟩
        exact hroom.elim (fun hsome => hsome hnone) fun hlt => absurd hlen (not_le.mpr hlt)))
      rw [DriverFields.record_eq] at howner
      exact ⟨ascendingSet x.classes, hmem, hsorted, State.answers_of_writeSetting h.1 hrole howner⟩
  · intro refuses
    refine ⟨fun hno => ?_, fun hlo hhi => ⟨fun hnone => ?_, fun hsome => ⟨fun hbound => ?_, fun hfree => ?_⟩⟩⟩
    · exact State.replies_of_owner h.1 hrole (deleteDriverOwner_of_not_number (by omega))
    · exact State.replies_of_owner h.1 hrole ((deleteDriverOwner_of_number ⟨hlo, hhi⟩).trans (if_pos hnone))
    all_goals have howner := (deleteDriverOwner_of_number (s := s) ⟨hlo, hhi⟩).trans (if_neg hsome)
    · exact State.replies_of_owner h.1 hrole (howner.trans (if_pos hbound))
    · exact (State.answers_of_writeSetting h.1 hrole (howner.trans (if_neg (not_not.mpr hfree)))).2 not_false
  · intro refuses ranged
    have hranged : ranged ↔ (1 ≤ n ∧ n ≤ 99999999) ∧ p.writable = true := by
      rw [PinField.writable_iff]
      simp only [ranged]
      tauto
    refine ⟨fun hno => ?_, fun hyes hnone => ?_, fun d hyes hd => ?_⟩
    · exact State.replies_of_owner h.1 hrole (resetPinOwner_of_not_ranged (hranged.not.mp hno))
    all_goals have howner := resetPinOwner_of_ranged (s := s) (hranged.mp hyes)
    · rw [hnone] at howner
      exact State.replies_of_owner h.1 hrole howner
    · rw [hd] at howner
      exact State.answers_of_writeSetting h.1 hrole howner

/-! ### READ_DRIVER and READ_ORDER (R44, R66) -/

section Select

variable {α : Type} {t : Assoc α} {sel k : Nat} {y : α} {exactOk nextOk : Nat → Bool}

theorem selectRecord_of_range (h : 1 < sel ∨ (sel = 0 ∧ exactOk n = false) ∨ (sel = 1 ∧ nextOk n = false)) :
    selectRecord t (n, sel) exactOk nextOk = .error .range := by
  unfold selectRecord
  split
  case h_1 => simp_all
  case h_2 => simp_all
  case h_3 => rfl

/-- The record named: that of the number, or that of the smallest number above it. -/
theorem selectRecord_of_named (ht : t.wf = true) (hexact : sel = 0 → exactOk n = true) (hnext : sel = 1 → nextOk n = true)
    (hk : t.find k = some y)
    (h : (sel = 0 ∧ k = n) ∨ (sel = 1 ∧ n < k ∧ ∀ j, n < j → j < k → (t.find j).isSome = false)) :
    selectRecord t (n, sel) exactOk nextOk = .ok (k, y) := by
  rcases h with ⟨rfl, rfl⟩ | ⟨rfl, hlt, hbetween⟩
  · simp [selectRecord, hexact rfl, hk]
  · have hafter := Assoc.after_eq_some ht hk hlt fun j h1 h2 => by simpa using hbetween j h1 h2
    simp [selectRecord, hnext rfl, hafter]

theorem selectRecord_of_none (hexact : sel = 0 → exactOk n = true) (hnext : sel = 1 → nextOk n = true)
    (h : (sel = 0 ∧ (t.find n).isSome = false) ∨ (sel = 1 ∧ ∀ j, n < j → (t.find j).isSome = false)) :
    selectRecord t (n, sel) exactOk nextOk = .error .notFound := by
  rcases h with ⟨rfl, hn⟩ | ⟨rfl, habove⟩
  · have hnone : t.find n = none := by simpa using hn
    simp [selectRecord, hexact rfl, hnone]
  · have hafter : t.after n = none := Assoc.after_eq_none fun j hj => by simpa using habove j hj
    simp [selectRecord, hnext rfl, hafter]

end Select

theorem orderNumberOk_iff : orderNumberOk n = true ↔ 1 ≤ n ∧ n ≤ 9999999 := within_iff

section Read

variable {y : Nat × Nat} {res : ResultCode}

theorem readDriverOwner_of_ok (h : selectRecord s.wc.drivers y driverNumberOk (within 0 99999999) = .ok (n, d)) :
    readDriverOwner y s = s.accept (s.readDriverPayload n d) := by rw [readDriverOwner, h]

theorem readDriverOwner_of_error (h : selectRecord s.wc.drivers y driverNumberOk (within 0 99999999) = .error res) :
    readDriverOwner y s = s.refuse res := by rw [readDriverOwner, h]

theorem readOrderOwner_of_ok {o : Order} (h : selectRecord s.ob.orders y orderNumberOk (within 0 9999999) = .ok (n, o)) :
    readOrderOwner y s = s.accept (s.readOrderPayload n o) := by rw [readOrderOwner, h]

theorem readOrderOwner_of_error (h : selectRecord s.ob.orders y orderNumberOk (within 0 9999999) = .error res) :
    readOrderOwner y s = s.refuse res := by rw [readOrderOwner, h]

end Read

/-- Settles O22: the record selected by number and selector, or the refusal; nothing changes. -/
theorem driversAndOrdersAreRead : Obligations.DriversAndOrdersAreRead := by
  have hoffice : ∀ {l : Link} {s : State}, (s.lc.links.get l).role = .office →
      RequestClass.office.mayIssue (s.lc.links.get l).role = true := fun h => by rw [h]; rfl
  refine ⟨fun l r n sel s => ⟨fun h hno => ?_, fun h hno => ?_⟩, fun l r n sel s hsel => ?_⟩
  · refine State.replies_of_owner h.1 (hoffice h.2) (readDriverOwner_of_error (selectRecord_of_range ?_))
    rw [← Bool.not_eq_true, ← Bool.not_eq_true, driverNumberOk_iff, within_iff]
    omega
  · refine State.replies_of_owner h.1 (hoffice h.2) (readOrderOwner_of_error (selectRecord_of_range ?_))
    rw [← Bool.not_eq_true, ← Bool.not_eq_true, orderNumberOk_iff, within_iff]
    omega
  intro named noneNamed
  refine ⟨fun h hlo hhi hwf => ?_, fun h hlo hhi hwf => ?_⟩
  · have hexact : sel = 0 → driverNumberOk n = true := fun _ => driverNumberOk_iff.mpr (by omega)
    have hnext : sel = 1 → within 0 99999999 n = true := fun _ => within_iff.mpr (by omega)
    exact ⟨fun k d hk hd => State.replies_of_owner h.1 (hoffice h.2)
        (readDriverOwner_of_ok (selectRecord_of_named hwf hexact hnext hd hk.2)),
      fun hnone => State.replies_of_owner h.1 (hoffice h.2) (readDriverOwner_of_error (selectRecord_of_none hexact hnext hnone))⟩
  · have hexact : sel = 0 → orderNumberOk n = true := fun _ => orderNumberOk_iff.mpr (by omega)
    have hnext : sel = 1 → within 0 9999999 n = true := fun _ => within_iff.mpr (by omega)
    exact ⟨fun k o hk ho => State.replies_of_owner h.1 (hoffice h.2)
        (readOrderOwner_of_ok (selectRecord_of_named hwf hexact hnext ho hk.2)),
      fun hnone => State.replies_of_owner h.1 (hoffice h.2) (readOrderOwner_of_error (selectRecord_of_none hexact hnext hnone))⟩

end Sys2Proof.Machine
end

section
/-! The timers of the bays (R51, R86, R87, R91). -/

namespace Sys2Proof.Machine

variable {s u : State} {b : Bay} {a : Arm} {n : Nat} {d : Nat} {o : Order} {x : DeadmanExpiry}

/-! ### The PIN and inactivity timers -/

/-- An event that moves a bay sets BAY_CHANGED. -/
theorem State.becomes_moved {t : State} (hlc : t.lc = (s.raiseFlag (.bayChanged b)).lc) (hu : t = { u with lc := t.lc }) :
    s.becomes (.next t) [.bayChanged b] u :=
  State.becomes_of_parts (State.flagged_raiseFlag (State.flagged_refl s) (.bayChanged b)) hlc hu

/-- A session close where no order is held leaves that as it is. -/
theorem BayController.closed_of_none {y : BayController} (h : y.order = none) :
    y.closed .locked =
      { y with
        status := .locked, closePending := false, driver := none, selection := .empty, plan := [], pinTimer := none
        inactivityTimer := none } := by
  obtain ⟨⟩ := y
  obtain rfl := h
  rfl

/-- A session close of a bay that holds no order. -/
theorem State.closeSession_of_none (hst : (s.bsc.get b).status ≠ .locked) (hdriver : (s.bsc.get b).driver = some d)
    (horder : (s.bsc.get b).order = none) :
    s.closeSession b .locked =
      { s with
        lc := (s.raiseFlag (.bayChanged b)).lc
        pt := { bound := s.pt.bound.remove d }
        bsc := s.bsc.set b ((s.bsc.get b).closed .locked) } := by
  have hreleased : s.releaseOrder b = s := by rw [State.releaseOrder, horder]
  have hunbound : s.unbind b = (s.setBound (s.pt.bound.remove d)).modifyBay b fun x => { x with driver := none } := by
    rw [State.unbind, hdriver]
  rw [State.closeSession, hreleased, hunbound, State.moveBay_of_ne (by simpa using hst)]
  rw [BayController.closed_of_none horder]
  cases b <;> rfl

/-- A session close of a bay that holds an order, which it lets go (R68). -/
theorem State.closeSession_of_some (hst : (s.bsc.get b).status ≠ .locked) (hdriver : (s.bsc.get b).driver = some d)
    (horder : (s.bsc.get b).order = some n) (ho : s.ob.orders.find n = some o) :
    s.closeSession b .locked =
      { s with
        lc := (s.raiseFlag (.bayChanged b)).lc
        pt := { bound := s.pt.bound.remove d }
        ob := { orders := s.ob.orders.put n o.released }
        bsc := s.bsc.set b ((s.bsc.get b).closed .locked) } := by
  have hreleased : s.releaseOrder b =
      (s.setOrders (s.ob.orders.put n o.released)).modifyBay b fun x => { x with order := none } := by
    simp only [State.releaseOrder, horder, State.modifyOrder, ho]
  have hsame : s.closeSession b .locked = (s.releaseOrder b).closeSession b .locked := by
    have hnone : (s.releaseOrder b).releaseOrder b = s.releaseOrder b := by
      rw [hreleased, State.releaseOrder]
      simp
    rw [State.closeSession, State.closeSession, hnone]
  rw [hsame, hreleased, State.closeSession_of_none (d := d) (by simpa using hst) (by simpa using hdriver) (by simp)]
  cases b <;> rfl

theorem Order.released_eq (o : Order) :
    o.released =
      { o with
        holding := none, cancelPending := false
        state := if ∀ c ∈ o.compartments, c.status = .loaded then .complete else .opened } := by
  simp only [Order.released, List.all_eq_true, decide_eq_true_eq]

theorem exec_pinTimerExpiry (halive : s.alive = true) (htimer : (s.bsc.get b).pinTimer ≠ none)
    (hst : (s.bsc.get b).status = .ident) : exec (.pinTimerExpiry b) s = .next (s.abandonIdent b) :=
  congrArg Host.Outcome.next (if_pos (by simp [halive, Option.isSome_iff_ne_none.mpr htimer, hst]))

theorem exec_inactivityTimerExpiry (halive : s.alive = true) (htimer : (s.bsc.get b).inactivityTimer ≠ none) :
    exec (.inactivityTimerExpiry b) s = .next (s.closeSession b .locked) :=
  congrArg Host.Outcome.next (if_pos (by simp [halive, Option.isSome_iff_ne_none.mpr htimer]))

/-! ### The dead-man timer -/

theorem exec_deadmanTimerExpiry (halive : s.alive = true) (x : DeadmanExpiry) :
    exec (.deadmanTimerExpiry x) s = .next (s.deadmanExpired x) := congrArg Host.Outcome.next (if_pos halive)

theorem State.overtaken_iff :
    s.overtaken x a = true ↔ x.ahead.get a = true ∧ a ∈ (s.bsc.get x.bay).leftInWarning ∧ (s.fc.get a).state ≠ .idle := by
  simp [State.overtaken, State.armIdle, and_assoc]

theorem State.deadmanExpired_of_quiet (htimer : (s.bsc.get x.bay).deadmanTimer ≠ none)
    (hstage : (s.bsc.get x.bay).stage = .quiet) : s.deadmanExpired x = s.deadmanWarn x.bay := by
  rw [State.deadmanExpired, if_pos (Option.isSome_iff_ne_none.mpr htimer), hstage]

theorem State.deadmanExpired_of_warning (htimer : (s.bsc.get x.bay).deadmanTimer ≠ none)
    (hstage : (s.bsc.get x.bay).stage = .warning) : s.deadmanExpired x = s.deadmanStop x := by
  rw [State.deadmanExpired, if_pos (Option.isSome_iff_ne_none.mpr htimer), hstage]

theorem State.deadmanExpired_of_stopped (htimer : (s.bsc.get x.bay).deadmanTimer = none) :
    s.deadmanExpired x = if ∃ a ∈ x.bay.arms, s.overtaken x a = true then s.deadmanStop x else s := by
  rw [State.deadmanExpired, htimer, if_neg (by decide)]
  simp only [List.any_eq_true]

/-- A resumable cause leaves the course of an arm that does not flow. -/
theorem State.raiseCause_still {c : StopCause} (hr : c.endReason = none)
    (hst : (s.fc.get a).state ∉ [ArmState.lowStart, .highFlow, .topOff]) :
    ((s.raiseCause a c).fc.get a).state = (s.fc.get a).state ∧ ((s.raiseCause a c).fc.get a).command = (s.fc.get a).command := by
  by_cases hheld : (s.fc.get a).state = .idle ∨ c ∈ (s.fc.get a).causes
  · rw [State.raiseCause_of_held hheld]
    exact ⟨rfl, rfl⟩
  · rw [not_or] at hheld
    rw [State.raiseCause_eq hheld.1 hheld.2, hr]
    split
    case h_8 => simp
    all_goals simp_all

/-- With the stage QUIET and the timer stopped, an arm's leaving changes nothing at its bay (R90). -/
theorem State.deadmanLeft_of_quiet (hstage : (s.bsc.get a.bay).stage = .quiet) (htimer : (s.bsc.get a.bay).deadmanTimer = none) :
    s.deadmanLeft a = s.bsc := by
  have hbay : { s.bsc.get a.bay with deadmanTimer := none, stage := .quiet } = s.bsc.get a.bay := by rw [← hstage, ← htimer]
  have hleft : ¬((s.bsc.get a.bay).stage = .warning ∧ a ∉ (s.bsc.get a.bay).leftInWarning) := by simp [hstage]
  have hset : ∀ y, y = s.bsc.get a.bay → s.bsc.set a.bay y = s.bsc := by
    rintro _ rfl
    exact PerBay.set_get_self ..
  refine hset _ ?_
  simp only [if_neg hleft]
  split
  · rfl
  · exact hbay

/-- With the stage QUIET and the timer stopped, a resumable cause changes nothing at the arm's bay. -/
theorem State.raiseCause_bsc_of_quiet {c : StopCause} (hr : c.endReason = none) (hstage : (s.bsc.get a.bay).stage = .quiet)
    (htimer : (s.bsc.get a.bay).deadmanTimer = none) : (s.raiseCause a c).bsc = s.bsc := by
  by_cases hheld : (s.fc.get a).state = .idle ∨ c ∈ (s.fc.get a).causes
  · rw [State.raiseCause_of_held hheld]
  · rw [not_or] at hheld
    rw [State.raiseCause_eq hheld.1 hheld.2, hr, State.cutShots_parts]
    have hpaused : ∀ v : State, v.bsc = s.bsc → (v.enterPaused a).bsc = s.bsc := fun v hv => by
      rw [State.enterPaused_eq, State.deadmanLeft_of_quiet (by rw [hv]; exact hstage) (by rw [hv]; exact htimer), hv]
    split
    case h_5 | h_6 | h_7 => exact hpaused _ rfl
    case h_8 => rfl
    all_goals simp_all

theorem State.raiseOn_bsc_of_quiet {c : StopCause} (hr : c.endReason = none) (hstage : (s.bsc.get b).stage = .quiet)
    (htimer : (s.bsc.get b).deadmanTimer = none) {arms : List Arm} (harms : ∀ a ∈ arms, a.bay = b) :
    (s.raiseOn arms c).bsc = s.bsc := by
  induction arms generalizing s with
  | nil => rfl
  | cons a rest ih =>
    have hab := harms a (List.mem_cons_self ..)
    have hfirst : (s.raiseCause a c).bsc = s.bsc :=
      State.raiseCause_bsc_of_quiet hr (by rw [hab]; exact hstage) (by rw [hab]; exact htimer)
    have hrest := ih (s := s.raiseCause a c) (by rw [hfirst]; exact hstage) (by rw [hfirst]; exact htimer) fun x hx =>
      harms x (List.mem_cons_of_mem _ hx)
    exact hrest.trans hfirst

/-- Two lists of the same arms, both in arm order, are the same. -/
theorem Arm.eq_of_mem_iff {l l' : List Arm} (h : l.Pairwise fun a a' => a.toNat < a'.toNat)
    (h' : l'.Pairwise fun a a' => a.toNat < a'.toNat) (hmem : ∀ a, a ∈ l ↔ a ∈ l') : l = l' :=
  have : Std.Irrefl fun a a' : Arm => a.toNat < a'.toNat := ⟨fun _ => lt_irrefl _⟩
  have : Std.Antisymm fun a a' : Arm => a.toNat < a'.toNat := ⟨fun _ _ h h' => absurd h (lt_asymm h')⟩
  List.Pairwise.eq_of_mem_iff h h' hmem

theorem Bay.arms_pairwise (b : Bay) : b.arms.Pairwise fun a a' => a.toNat < a'.toNat := by cases b <;> decide

/-- The arms of a bay that an expiry in WARNING meets: those that flow, and those whose leaving it overtakes. -/
theorem State.mem_deadmanHit :
    (a ∈ x.bay.arms.filter fun a => s.armFlowing a || s.overtaken x a) ↔
      (a.bay = x.bay ∧ (s.fc.get a).state ∈ [ArmState.lowStart, .highFlow, .topOff])
        ∨ a.bay = x.bay ∧ x.ahead.get a = true ∧ a ∈ (s.bsc.get x.bay).leftInWarning ∧ (s.fc.get a).state ≠ .idle := by
  have hflows : s.armFlowing a = true ↔ (s.fc.get a).state ∈ [ArmState.lowStart, .highFlow, .topOff] := by
    rw [State.armFlowing]
    cases (s.fc.get a).state <;> simp [ArmState.flowing]
  rw [List.mem_filter, Bool.or_eq_true, State.overtaken_iff, hflows, Bay.mem_arms_iff, and_or_left]

/-- Settles O49: the PIN timer unbinds, the inactivity timer closes, and the dead-man timer warns or stops. -/
theorem bayTimersExpire : Obligations.BayTimersExpire := by
  intro b s hcond bay
  have halive : s.alive = true := State.alive_iff.mpr hcond
  refine ⟨fun d htimer hst hdriver => ?_, fun d htimer hst hdriver => ?_, fun ahead => ?_⟩
  · rw [exec_pinTimerExpiry halive htimer hst, State.abandonIdent_eq hst hdriver]
    exact State.becomes_moved rfl rfl
  · intro closed
    have hne : (s.bsc.get b).status ≠ .locked := fun h => absurd (h ▸ hst) (by decide)
    rw [exec_inactivityTimerExpiry halive htimer]
    refine ⟨fun horder => ?_, fun n o horder ho => ?_⟩
    · rw [State.closeSession_of_none hne hdriver horder]
      exact State.becomes_moved rfl rfl
    · rw [State.closeSession_of_some hne hdriver horder ho, Order.released_eq]
      exact State.becomes_moved rfl rfl
  · intro x flows late
    rw [exec_deadmanTimerExpiry halive]
    refine ⟨fun htimer hstage => ?_, fun htimer hnone => ?_, fun hexpires hit hmem hsorted => ?_⟩
    · rw [State.deadmanExpired_of_quiet htimer hstage]
      rfl
    · rw [State.deadmanExpired_of_stopped htimer, if_neg]
      rintro ⟨a, ha, hlate⟩
      exact hnone a ⟨Bay.mem_arms_iff.mp ha, State.overtaken_iff.mp hlate⟩
    · intro stopped
      have hstop : s.deadmanExpired x = s.deadmanStop x := by
        rcases hexpires with ⟨htimer, hstage⟩ | ⟨htimer, a, hbay, hlate⟩
        · exact State.deadmanExpired_of_warning htimer hstage
        · exact (State.deadmanExpired_of_stopped htimer).trans
            (if_pos ⟨a, Bay.mem_arms_iff.mpr hbay, State.overtaken_iff.mpr hlate⟩)
      have hhit : hit = b.arms.filter fun a => s.armFlowing a || s.overtaken x a :=
        Arm.eq_of_mem_iff (List.pairwise_map.mp hsorted) ((Bay.arms_pairwise b).filter _) fun a =>
          (hmem a).trans (State.mem_deadmanHit (s := s) (x := x)).symm
      have ht : s.deadmanStop x = State.raiseOn { s with bsc := s.bsc.set b stopped } hit .deadman := by
        rw [hhit]
        rfl
      have hbay : ∀ a ∈ hit, a.bay = b := fun a ha => ((hmem a).mp ha).elim (fun h => h.1) fun h => h.1
      obtain ⟨hother, hnamed, -⟩ := State.raiseOn_arms hit (hhit ▸ (Bay.nodup_arms b).filter _) .deadman
        { s with bsc := s.bsc.set b stopped }
      refine ⟨_, congrArg Host.Outcome.next (hstop.trans ht), rfl, ?_, fun a => ⟨fun ha => (hother a ha).1, fun ha => ?_⟩⟩
      · exact State.raiseOn_bsc_of_quiet rfl (by simp [stopped]) (by simp [stopped]) hbay
      · obtain ⟨w, hw, -, -, hraised, -⟩ := hnamed a ha
        have hw : w.fc.get a = s.fc.get a := hw
        have hbusy : (s.fc.get a).state ≠ .idle := by
          rcases (hmem a).mp ha with ⟨-, hflow⟩ | ⟨-, -, -, hidle⟩
          · exact fun h => absurd (h ▸ hflow) (by decide)
          · exact hidle
        rw [hraised]
        refine ⟨State.mem_raiseCause w a .deadman (by rwa [hw]), fun hflow hnew => ?_, fun hflow => ?_⟩
        · obtain ⟨hstate, hcommand, -⟩ := State.raiseCause_resumable w a .deadman rfl (by rw [hw]; exact hflow.2) (by rwa [hw])
          exact ⟨hstate, hcommand⟩
        · rw [← hw]
          exact State.raiseCause_still rfl (by rw [hw]; exact fun h => hflow ⟨hbay a ha, h⟩)

end Sys2Proof.Machine
end

section
/-! Sessions and the orders they hold: a session close to either end, SIGN_OFF and SELECT_ORDER (R67, R68, R76, R78, R86, R87). -/

namespace Sys2Proof.Machine

variable {s u : State} {l : Link} {b : Bay} {n m : Nat} {d : Nat} {o o' : Order} {r : Request} {dest : BayStatus} {res : ResultCode}

/-! ### A session close (R68, R86) -/

/-- The bound bays without the driver of bay `b`, where it has one (R52). -/
def State.boundWithout (s : State) (b : Bay) : PermitTable :=
  match (s.bsc.get b).driver with
  | none => s.pt
  | some d => { bound := s.pt.bound.remove d }

theorem State.boundWithout_of_some (h : (s.bsc.get b).driver = some d) : s.boundWithout b = { bound := s.pt.bound.remove d } := by
  rw [State.boundWithout, h]

theorem State.unbind_eq (s : State) (b : Bay) :
    s.unbind b =
      { s with pt := s.boundWithout b, bsc := s.bsc.set b { s.bsc.get b with driver := none } } := by
  unfold State.unbind State.boundWithout
  cases hdriver : (s.bsc.get b).driver with
  | none =>
    have hself : { s.bsc.get b with driver := none } = s.bsc.get b := by rw [← hdriver]
    rw [hself, PerBay.set_get_self]
  | some d => rfl

/-- A session closed where the bay holds no order. -/
theorem State.closeSession_without_order (hst : (s.bsc.get b).status ≠ dest) (horder : (s.bsc.get b).order = none) :
    s.closeSession b dest =
      { s with
        lc := (s.raiseFlag (.bayChanged b)).lc
        pt := s.boundWithout b
        bsc := s.bsc.set b ((s.bsc.get b).closed dest) } := by
  have hreleased : s.releaseOrder b = s := by rw [State.releaseOrder, horder]
  have hclosed : (s.bsc.get b).closed dest = { (s.bsc.get b).closed dest with order := (s.bsc.get b).order } := by
    rw [horder]
    rfl
  rw [State.closeSession, hreleased, State.unbind_eq, State.moveBay_of_ne (by simpa using hst), hclosed]
  cases b <;> rfl

/-- A session closed where the bay holds an order, which it lets go. -/
theorem State.closeSession_with_order (hst : (s.bsc.get b).status ≠ dest) (horder : (s.bsc.get b).order = some n)
    (ho : s.ob.orders.find n = some o) :
    s.closeSession b dest =
      { s with
        lc := (s.raiseFlag (.bayChanged b)).lc
        pt := s.boundWithout b
        ob := { orders := s.ob.orders.put n o.letGo }
        bsc := s.bsc.set b ((s.bsc.get b).closed dest) } := by
  have hreleased : s.releaseOrder b =
      (s.setOrders (s.ob.orders.put n o.letGo)).modifyBay b fun x => { x with order := none } := by
    simp only [State.releaseOrder, horder, State.modifyOrder_of_find ho, Order.released_eq]
    rfl
  rw [State.closeSession, hreleased, State.unbind_eq, State.moveBay_of_ne (by simpa using hst)]
  cases b <;> rfl

/-! ### SIGN_OFF (R86) -/

/-- Both arms of a bay are IDLE. -/
theorem State.armsIdle_iff : s.armsIdle b = true ↔ ∀ a ∈ b.arms, (s.fc.get a).state = .idle := by
  simp [State.armsIdle, State.armIdle]

theorem State.armsIdle_eq_false_iff : s.armsIdle b = false ↔ ∃ a ∈ b.arms, (s.fc.get a).state ≠ .idle := by
  simp [State.armsIdle, State.armIdle]

theorem signOffOwner_of_admitted (h : (s.bsc.get b).status ∈ [BayStatus.ident, .signed, .planning]
    ∨ ((s.bsc.get b).status = .loading ∧ ∀ a ∈ b.arms, (s.fc.get a).state = .idle)) :
    signOffOwner b s = (s.closeSession b .locked).accept [] := by
  unfold signOffOwner
  rcases h with h | ⟨h, hidle⟩
  · simp only [List.mem_cons, List.not_mem_nil, or_false] at h
    rcases h with h | h | h <;> rw [h]
  · rw [h]
    exact if_pos (State.armsIdle_iff.mpr hidle)

theorem signOffOwner_of_not_admitted (h : (s.bsc.get b).status ∈ [BayStatus.locked, .outOfService]
    ∨ ((s.bsc.get b).status = .loading ∧ ∃ a ∈ b.arms, (s.fc.get a).state ≠ .idle)) :
    signOffOwner b s = s.refuse .state := by
  unfold signOffOwner
  rcases h with h | ⟨h, hbusy⟩
  · simp only [List.mem_cons, List.not_mem_nil, or_false] at h
    rcases h with h | h <;> rw [h]
  · rw [h]
    exact if_neg (Bool.eq_false_iff.mp (State.armsIdle_eq_false_iff.mpr hbusy))

/-- Settles O13: an admitted SIGN_OFF is a session close to LOCKED, with or without an order. -/
theorem signOffClosesTheSession : Obligations.SignOffClosesTheSession := by
  intro l b r s h
  refine ⟨fun d hadmitted hdriver => ?_, fun hno =>
    State.replies_of_bay h (by decide) (signOffOwner_of_not_admitted (s := s.setPlanReset l false) hno)⟩
  intro closed
  have hst : (s.bsc.get b).status ≠ .locked := by
    rintro hlocked
    simp [hlocked] at hadmitted
  have howner := signOffOwner_of_admitted (s := s.setPlanReset l false) hadmitted
  have hbound := State.boundWithout_of_some (s := s.setPlanReset l false) hdriver
  refine ⟨fun horder => ?_, fun n o horder ho => ?_⟩
  · rw [State.closeSession_without_order (s := s.setPlanReset l false) hst horder, hbound] at howner
    refine State.answers_of_moved h howner rfl rfl rfl ((if_pos rfl).trans ?_)
    cases b <;> rfl
  · rw [State.closeSession_with_order (s := s.setPlanReset l false) hst horder ho, hbound] at howner
    refine State.answers_of_moved h howner rfl rfl rfl ((if_pos rfl).trans ?_)
    cases b <;> rfl

/-! ### SELECT_ORDER: the judgement (R67) -/

theorem State.judgeSelect_of_not_number (h : ¬(1 ≤ n ∧ n ≤ 9999999)) : s.judgeSelect b n = .error .range :=
  if_pos (by rwa [Bool.not_eq_true', ← Bool.not_eq_true, orderNumberOk_iff])

section Judge

variable (hn : 1 ≤ n ∧ n ≤ 9999999)
include hn

theorem State.judgeSelect_of_unknown (ho : s.ob.orders.find n = none) : s.judgeSelect b n = .error .notFound := by
  rw [State.judgeSelect, orderNumberOk_iff.mpr hn, if_neg (by decide), ho]

variable (ho : s.ob.orders.find n = some o)
include ho

/-- The judgement of an order on the table, check by check. -/
theorem State.judgeSelect_of_found :
    s.judgeSelect b n =
      if o.state = .held ∧ o.holding ≠ some b then .error .orderBusy
      else if o.state = .cancelled ∨ o.state = .complete then .error .state
      else if (o.driver ≠ none ∧ o.driver ≠ (s.bsc.get b).driver) ∨ (o.bay ≠ none ∧ o.bay ≠ some b) then .error .range
      else .ok o := by
  rw [State.judgeSelect, orderNumberOk_iff.mpr hn, if_neg (by decide), ho]
  simp only [Bool.and_eq_true, Bool.or_eq_true, decide_eq_true_eq, Option.isSome_iff_ne_none]

theorem State.judgeSelect_of_held_elsewhere (h : o.state = .held ∧ o.holding ≠ some b) :
    s.judgeSelect b n = .error .orderBusy := by
  rw [State.judgeSelect_of_found hn ho, if_pos h]

theorem State.judgeSelect_of_ended (h : o.state = .cancelled ∨ o.state = .complete) : s.judgeSelect b n = .error .state := by
  have hfree : ¬(o.state = .held ∧ o.holding ≠ some b) := by
    rintro ⟨hheld, -⟩
    simp [hheld] at h
  rw [State.judgeSelect_of_found hn ho, if_neg hfree, if_pos h]

variable (hopen : o.state = .opened ∨ (o.state = .held ∧ o.holding = some b))
include hopen

theorem State.judgeSelect_of_open :
    s.judgeSelect b n =
      if (o.driver ≠ none ∧ o.driver ≠ (s.bsc.get b).driver) ∨ (o.bay ≠ none ∧ o.bay ≠ some b) then .error .range
      else .ok o := by
  have hfree : ¬(o.state = .held ∧ o.holding ≠ some b) := by
    rintro ⟨hheld, helse⟩
    exact hopen.elim (fun h => by simp [h] at hheld) fun h => helse h.2
  have hlive : ¬(o.state = .cancelled ∨ o.state = .complete) := by
    rcases hopen with h | ⟨h, -⟩ <;> simp [h]
  rw [State.judgeSelect_of_found hn ho, if_neg hfree, if_neg hlive]

end Judge

/-- The judgement reads nothing of a selection or of a link. -/
theorem State.judgeSelect_resetSelection : (s.resetSelection b l).judgeSelect b n = s.judgeSelect b n := by
  have hdriver : ((s.resetSelection b l).bsc.get b).driver = (s.bsc.get b).driver := by
    simp [State.resetSelection]
  rw [State.judgeSelect, State.judgeSelect, hdriver, State.resetSelection_ob]

/-! ### SELECT_ORDER: the claim (R67, R68) -/

/-- The order as a bay's claim leaves it. -/
def Order.heldBy (o : Order) (b : Bay) : Order := { o with state := .held, holding := some b }

/-- A claim by a bay that holds no order, or this one already. -/
theorem State.claimOrder_of_kept (horder : (s.bsc.get b).order = none ∨ (s.bsc.get b).order = some n)
    (ho : s.ob.orders.find n = some o) :
    s.claimOrder b n =
      { s with
        ob := { orders := s.ob.orders.put n (o.heldBy b) }
        bsc := s.bsc.set b { s.bsc.get b with order := some n } } := by
  have hkept : (if (s.bsc.get b).order = some n then s else s.releaseOrder b) = s := by
    rcases horder with horder | horder
    · simp [horder, State.releaseOrder]
    · rw [if_pos horder]
  rw [State.claimOrder, hkept, State.modifyOrder_of_find ho]
  rfl

/-- A claim of the order the bay holds already leaves the bay as it is. -/
theorem State.claimOrder_of_same (horder : (s.bsc.get b).order = some n) (ho : s.ob.orders.find n = some o) :
    s.claimOrder b n = { s with ob := { orders := s.ob.orders.put n (o.heldBy b) } } := by
  have hself : { s.bsc.get b with order := some n } = s.bsc.get b := by rw [← horder]
  rw [State.claimOrder_of_kept (.inr horder) ho, hself, PerBay.set_get_self]

/-- A claim by a bay that holds another order, which it lets go. -/
theorem State.claimOrder_of_other (horder : (s.bsc.get b).order = some m) (hne : m ≠ n)
    (ho' : s.ob.orders.find m = some o') (ho : s.ob.orders.find n = some o) :
    s.claimOrder b n =
      { s with
        ob := { orders := (s.ob.orders.put m o'.letGo).put n (o.heldBy b) }
        bsc := s.bsc.set b { s.bsc.get b with order := some n } } := by
  have hreleased : (if (s.bsc.get b).order = some n then s else s.releaseOrder b) =
      (s.setOrders (s.ob.orders.put m o'.letGo)).modifyBay b fun x => { x with order := none } := by
    rw [if_neg (by simpa [horder] using hne), State.releaseOrder, horder]
    dsimp only
    rw [State.modifyOrder_of_find ho', Order.released_eq]
    rfl
  have ho₂ : (s.ob.orders.put m o'.letGo).find n = some o := by rw [Assoc.find_put_ne _ _ (Ne.symm hne), ho]
  rw [State.claimOrder, hreleased, State.modifyOrder_of_find (o := o) (by simpa using ho₂)]
  cases b <;> rfl

/-! ### SELECT_ORDER: the answers (R76, R78) -/

/-- The inactivity timer of a bay that is signed in: restarted where both arms are IDLE, stopped otherwise (R87). -/
theorem State.refreshInactivity_of_signedIn (h : (s.bsc.get b).status.signedIn = true) :
    s.refreshInactivity b =
      { s with
        bsc := s.bsc.set b
          { s.bsc.get b with inactivityTimer := if s.armsIdle b then some 300000 else none } } := by
  rw [State.refreshInactivity, h, Bool.true_and]
  rfl

theorem selectOwner_of_signed (hst : (s.bsc.get b).status = .signed) (hjudge : s.judgeSelect b n = .ok o) :
    selectOwner l b n s =
      (((s.claimOrder b n).modifyBay b fun x => { x with selection := .empty, plan := [] }).moveBay b .planning).accept
        o.selectPayload := by
  simp only [selectOwner, hst, hjudge]

theorem selectOwner_of_signed_refused (hst : (s.bsc.get b).status = .signed) (hjudge : s.judgeSelect b n = .error res) :
    selectOwner l b n s = s.refuse res := by
  simp only [selectOwner, hst, hjudge]

theorem selectOwner_of_planning (hst : (s.bsc.get b).status = .planning) (hjudge : s.judgeSelect b n = .ok o) :
    selectOwner l b n s = ((s.resetSelection b l).claimOrder b n).accept o.selectPayload := by
  simp only [selectOwner, hst, State.judgeSelect_resetSelection, hjudge]

theorem selectOwner_of_planning_refused (hst : (s.bsc.get b).status = .planning) (hjudge : s.judgeSelect b n = .error res) :
    selectOwner l b n s = (s.resetSelection b l).refuse res := by
  simp only [selectOwner, hst, State.judgeSelect_resetSelection, hjudge]

/-- A SELECT_ORDER that the judgement refuses: nothing changes in SIGNED, and the selection is reset in PLANNING. -/
theorem State.answers_of_select_refused (h : s.asksAs (.panel b) l r 0x22#8 formLong n) (hres : res ≠ .ok)
    (hjudge : s.judgeSelect b n = .error res) :
    ((s.bsc.get b).status = .signed → s.replies (exec (.selectOrder l) s) l r res [] false)
    ∧ ((s.bsc.get b).status = .planning →
      s.answers (exec (.selectOrder l) s) l r res [] true []
        { s with bsc := s.bsc.set b { s.bsc.get b with selection := { first := none, last := none, excluded := [] } } }) := by
  refine ⟨fun hst => ?_, fun hst => ?_⟩
  · exact State.replies_of_bay h hres (selectOwner_of_signed_refused (s := s.setPlanReset l false) hst hjudge)
  · refine State.answers_of_bay h.1 h.2 (selectOwner_of_planning_refused (s := s.setPlanReset l false) hst hjudge) rfl rfl ?_
      ((if_neg hres).trans rfl)
    exact State.linked_congr (State.linked_setPlanReset (State.linked_setPlanReset (State.linked_refl s l))) rfl

/-- Settles O10: the claim from SIGNED and from PLANNING, and the refusals of R67 in turn. -/
theorem orderIsSelectedOrRefused : Obligations.OrderIsSelectedOrRefused := by
  refine ⟨fun l b r n o s h hlo hhi ho hopen hdriver hbay => ?_, fun l b r n s h _ => ?_⟩
  · have hfits : ¬((o.driver ≠ none ∧ o.driver ≠ (s.bsc.get b).driver) ∨ (o.bay ≠ none ∧ o.bay ≠ some b)) := by
      tauto
    have hjudge : (s.setPlanReset l false).judgeSelect b n = .ok o :=
      (State.judgeSelect_of_open (s := s.setPlanReset l false) ⟨hlo, hhi⟩ ho hopen).trans (if_neg hfits)
    have hlinked : ∀ v : State, v.lc = ((s.setPlanReset l false).resetSelection b l).lc → s.linked v l true [] := fun v =>
      State.linked_congr (State.linked_setPlanReset (State.linked_setPlanReset (State.linked_refl s l)))
    refine ⟨fun hst horder => ?_, fun hst horder => ?_, fun m o' hst horder hne ho' => ?_⟩
    · have howner := selectOwner_of_signed (l := l) (s := s.setPlanReset l false) hst hjudge
      rw [State.claimOrder_of_kept (s := s.setPlanReset l false) horder ho, State.moveBay_of_ne (by simp [hst])] at howner
      refine State.answers_of_moved h howner rfl rfl rfl ((if_pos rfl).trans ?_)
      cases b <;> rfl
    · have howner := selectOwner_of_planning (l := l) (s := s.setPlanReset l false) hst hjudge
      rw [State.claimOrder_of_same (o := o) (by simpa [State.resetSelection] using horder) (by simpa using ho)] at howner
      refine State.answers_of_bay h.1 h.2 howner rfl rfl (hlinked _ rfl)
        ((if_pos rfl).trans ((State.refreshInactivity_of_signedIn ?_).trans ?_))
      · simp [State.resetSelection, hst, BayStatus.signedIn]
      · cases b <;> rfl
    · have howner := selectOwner_of_planning (l := l) (s := s.setPlanReset l false) hst hjudge
      rw [State.claimOrder_of_other (o := o) (o' := o') (m := m) (by simpa [State.resetSelection] using horder) hne
        (by simpa using ho') (by simpa using ho)] at howner
      refine State.answers_of_bay h.1 h.2 howner rfl rfl (hlinked _ rfl)
        ((if_pos rfl).trans ((State.refreshInactivity_of_signedIn ?_).trans ?_))
      · simp [State.resetSelection, hst, BayStatus.signedIn]
      · cases b <;> rfl
  · intro refuses
    have hrefuses : ∀ res, res ≠ .ok → s.judgeSelect b n = .error res → refuses res := fun res =>
      State.answers_of_select_refused h
    refine ⟨fun hno => ?_, fun hn => ⟨fun hnone => ?_, fun o ho =>
      ⟨fun helse => ?_, fun hended => ?_, fun hopen hwrong => ?_⟩⟩⟩
    · exact hrefuses _ (by decide) (State.judgeSelect_of_not_number (by omega))
    · exact hrefuses _ (by decide) (State.judgeSelect_of_unknown hn hnone)
    · exact hrefuses _ (by decide) (State.judgeSelect_of_held_elsewhere hn ho helse)
    · exact hrefuses _ (by decide) (State.judgeSelect_of_ended hn ho hended)
    · exact hrefuses _ (by decide) ((State.judgeSelect_of_open hn ho hopen).trans (if_pos hwrong))

end Sys2Proof.Machine
end

section
/-! The Order Table at the office: WRITE_ORDER, DELETE_ORDER and CANCEL_ORDER (R62 to R65, R71, R72). -/

namespace Sys2Proof.Machine

variable {s u : State} {l : Link} {b : Bay} {n : Nat} {o : Order} {r : Request} {x : OrderFields} {c : CompartmentFields} {a : Arm}

/-! ### WRITE_ORDER: the fields (R62, R63) -/

theorem basisOf_eq (n : Nat) : basisOf n = if n ≤ 1 then some (if n = 0 then .gross else .net) else none := by
  match n with
  | 0 | 1 => rfl
  | n + 2 => rw [if_neg (by omega)]; rfl

theorem Bay.ofNat?_eq (n : Nat) : Bay.ofNat? n = if n ≤ 1 then some (if n = 0 then .bayA else .bayB) else none := by
  match n with
  | 0 | 1 => rfl
  | n + 2 => rw [if_neg (by omega)]; rfl

theorem noRepeats_iff (ns : List Nat) : noRepeats ns = true ↔ ns.Nodup := by
  induction ns with
  | nil => simp [noRepeats]
  | cons n rest ih => simp [noRepeats, ih]

/-- The ranges of a compartment of WRITE_ORDER (R63). -/
def CompartmentFields.Ranged (c : CompartmentFields) : Prop :=
  1 ≤ c.number ∧ c.number ≤ 8 ∧ 1 ≤ c.product ∧ c.product ≤ 15 ∧ 100 ≤ c.planned ∧ c.planned ≤ 40000
    ∧ c.basis ≤ 1
    ∧ ∀ k, c.recipe = some k → 1 ≤ k ∧ k ≤ 24

theorem CompartmentFields.rangeOk_iff : c.rangeOk = true ↔ c.Ranged := by
  simp only [CompartmentFields.rangeOk, CompartmentFields.Ranged, compartmentNumberOk, Bool.and_eq_true, within_iff, basisOf_eq,
    and_assoc]
  cases c.recipe <;> simp

/-- The ranges of WRITE_ORDER (R63). -/
def OrderFields.Ranged (x : OrderFields) : Prop :=
  1 ≤ x.number ∧ x.number ≤ 9999999 ∧ (∀ d, x.driver = some d → 1 ≤ d ∧ d ≤ 99999999)
    ∧ 1 ≤ x.vehicle.length ∧ x.vehicle.length ≤ 10 ∧ (∀ ch ∈ x.vehicle, 32 ≤ ch.toNat ∧ ch.toNat ≤ 126)
    ∧ (∀ b, x.bay = some b → b ≤ 1) ∧ 1 ≤ x.compartments.length ∧ x.compartments.length ≤ 8
    ∧ (x.compartments.map CompartmentFields.number).Nodup ∧ ∀ c ∈ x.compartments, c.Ranged

theorem OrderFields.rangeOk_iff : x.rangeOk = true ↔ x.Ranged := by
  have hopt : x.rangeOk =
      (orderNumberOk x.number && x.driver.all driverNumberOk && within 1 10 x.vehicle.length
        && x.vehicle.all (fun ch => within 32 126 ch.toNat) && (x.bay.all fun b => (Bay.ofNat? b).isSome)
        && within 1 8 x.compartments.length && x.compartments.all CompartmentFields.rangeOk
        && noRepeats (x.compartments.map CompartmentFields.number)) := by
    rcases x with ⟨_, _ | _, _, _ | _, _⟩ <;> rfl
  simp only [hopt, OrderFields.Ranged, Bool.and_eq_true, orderNumberOk_iff, driverNumberOk_iff, Option.all_eq_true, within_iff,
    List.all_eq_true, CompartmentFields.rangeOk_iff, noRepeats_iff, Bay.ofNat?_eq, Option.isSome_ite]
  tauto

theorem OrderFields.codesKnown_iff {w : NvRecords} :
    x.codesKnown w = true ↔
      ∀ c ∈ x.compartments, w.products.find c.product ≠ none ∧ ∀ k, c.recipe = some k → w.recipes.find k ≠ none := by
  rw [OrderFields.codesKnown, List.all_eq_true]
  refine forall₂_congr fun c _ => ?_
  cases c.recipe <;> simp [Option.isSome_iff_ne_none]

theorem OrderFields.recipesFit_iff {w : NvRecords} (hknown : x.codesKnown w = true) :
    x.recipesFit w = true ↔
      ∀ c ∈ x.compartments, ∀ k y, c.recipe = some k → w.recipes.find k = some y → y.product = c.product := by
  rw [OrderFields.recipesFit, List.all_eq_true]
  refine forall₂_congr fun c hc => ?_
  have hrecipe := (OrderFields.codesKnown_iff.mp hknown c hc).2
  cases hk : c.recipe with
  | none => simp
  | some k =>
    cases hy : w.recipes.find k with
    | none => exact absurd hy (hrecipe k hk)
    | some y =>
      simp only [hy, decide_eq_true_eq, Option.some.injEq]
      refine ⟨?_, fun h => h k y rfl hy⟩
      rintro h _ z rfl hz
      cases hy.symm.trans hz
      exact h

/-- The order a WRITE_ORDER in range writes. -/
theorem OrderFields.order_eq (h : x.Ranged) :
    x.order =
      { driver := x.driver, vehicle := x.vehicle
        bay := x.bay.map fun b => if b = 0 then Bay.bayA else Bay.bayB
        compartments := x.compartments.map fun c =>
          { number := c.number, product := c.product, planned := c.planned
            basis := if c.basis = 0 then .gross else .net, recipe := c.recipe, status := .pending
            deliveredGross := 0, deliveredNet := 0, loadingArm := none, statusBefore := none }
        state := .opened, holding := none, cancelPending := false } := by
  obtain ⟨-, -, -, -, -, -, hbay, -, -, -, hcompartments⟩ := h
  have hbays : x.bay.bind Bay.ofNat? = x.bay.map fun b => if b = 0 then Bay.bayA else Bay.bayB := by
    cases hb : x.bay with
    | none => rfl
    | some b => simp [Bay.ofNat?_eq, hbay b hb]
  have hall : x.compartments.map CompartmentFields.compartment = x.compartments.map fun c =>
      { number := c.number, product := c.product, planned := c.planned
        basis := if c.basis = 0 then .gross else .net, recipe := c.recipe, status := .pending
        deliveredGross := 0, deliveredNet := 0, loadingArm := none, statusBefore := none } := by
    refine List.map_congr_left fun c hc => ?_
    obtain ⟨-, -, -, -, -, -, hbasis, -⟩ := hcompartments c hc
    simp [CompartmentFields.compartment, basisOf_eq, hbasis]
  rw [OrderFields.order, hbays, hall]

/-! ### WRITE_ORDER: the checks in turn (R63, R64) -/

theorem writeOrderOwner_of_not_ranged (h : ¬x.Ranged) : writeOrderOwner x s = s.refuse .range :=
  if_pos (by rwa [Bool.not_eq_true', ← Bool.not_eq_true, OrderFields.rangeOk_iff])

/-- A WRITE_ORDER in range, check by check. -/
theorem writeOrderOwner_of_ranged (h : x.Ranged) :
    writeOrderOwner x s =
      if ¬x.codesKnown s.wc = true then s.refuse .notFound
      else if ¬x.recipesFit s.wc = true then s.refuse .range
      else
        match s.ob.orders.find x.number with
        | none =>
          if 48 ≤ s.ob.orders.length then s.refuse .full
          else (s.setOrders (s.ob.orders.put x.number x.order)).accept []
        | some o =>
          match o.replaceable with
          | some res => s.refuse res
          | none => (s.setOrders (s.ob.orders.put x.number x.order)).accept [] := by
  rw [writeOrderOwner, OrderFields.rangeOk_iff.mpr h, if_neg (by decide)]
  simp only [Bool.not_eq_true', Bool.not_eq_true]
  rfl

theorem Order.replaceable_eq (o : Order) :
    o.replaceable =
      if o.state = .held then some .orderBusy
      else if o.state = .cancelled then some .state
      else if ∃ c ∈ o.compartments, c.status = .partLoaded ∨ c.status = .loaded then some .state else none := by
  simp only [Order.replaceable, List.any_eq_true, Bool.or_eq_true, decide_eq_true_eq]

/-! ### DELETE_ORDER (R65) -/

theorem deleteOrderOwner_of_not_number (h : ¬(1 ≤ n ∧ n ≤ 9999999)) : deleteOrderOwner n s = s.refuse .range :=
  if_pos (by rwa [Bool.not_eq_true', ← Bool.not_eq_true, orderNumberOk_iff])

theorem deleteOrderOwner_of_unknown (h : 1 ≤ n ∧ n ≤ 9999999) (ho : s.ob.orders.find n = none) :
    deleteOrderOwner n s = s.refuse .notFound := by
  rw [deleteOrderOwner, orderNumberOk_iff.mpr h, if_neg (by decide), ho]

theorem deleteOrderOwner_of_found (h : 1 ≤ n ∧ n ≤ 9999999) (ho : s.ob.orders.find n = some o) :
    deleteOrderOwner n s =
      if o.state = .held then s.refuse .orderBusy else (s.setOrders (s.ob.orders.remove n)).accept [] := by
  rw [deleteOrderOwner, orderNumberOk_iff.mpr h, if_neg (by decide), ho]

/-- Settles O23: the checks of R63 and R64 in turn, and DELETE_ORDER of an order that is not HELD. -/
theorem ordersAreWrittenAndDeleted : Obligations.OrdersAreWrittenAndDeleted := by
  refine fun l r s => ⟨fun x h => ?_, fun n h => ?_⟩ <;>
    have hrole : RequestClass.office.mayIssue (s.lc.links.get l).role = true := by rw [h.2]; rfl
  · intro refuses ranged known fits writes
    have hknown : known ↔ x.codesKnown s.wc = true := OrderFields.codesKnown_iff.symm
    have hrefuses : ∀ {res}, writeOrderOwner x s = s.refuse res → refuses res := State.replies_of_owner h.1 hrole
    have hwrites : ranged → writeOrderOwner x s = (s.setOrders (s.ob.orders.put x.number x.order)).accept [] → writes := by
      intro hranged howner
      rw [OrderFields.order_eq hranged] at howner
      exact State.answers_of_request h.1 hrole howner rfl rfl (State.linked_congr (State.linked_refl s l) rfl) rfl
    refine ⟨fun hno => hrefuses (writeOrderOwner_of_not_ranged hno), fun hranged hunknown => ?_, fun hranged hyes hunfit => ?_,
      fun hranged hyes hfits => ?_⟩
    · exact hrefuses ((writeOrderOwner_of_ranged hranged).trans (if_pos (hknown.not.mp hunknown)))
    · have hfit := OrderFields.recipesFit_iff (hknown.mp hyes)
      refine hrefuses ((writeOrderOwner_of_ranged hranged).trans ((if_neg (not_not.mpr (hknown.mp hyes))).trans (if_pos ?_)))
      exact hfit.not.mpr hunfit
    · have hfit := (OrderFields.recipesFit_iff (hknown.mp hyes)).mpr hfits
      have howner := (writeOrderOwner_of_ranged (s := s) hranged).trans
        ((if_neg (not_not.mpr (hknown.mp hyes))).trans (if_neg (not_not.mpr hfit)))
      refine ⟨fun hnone => ?_, fun o ho => ?_⟩
      · simp only [hnone] at howner
        exact ⟨fun hfull => hrefuses (howner.trans (if_pos hfull)),
          fun hroom => hwrites hranged (howner.trans (if_neg hroom.not_ge))⟩
      · simp only [ho, Order.replaceable_eq] at howner
        refine ⟨fun hheld => ?_, fun hcancelled => ?_, fun hstate => ⟨fun hdelivered => ?_, fun hfresh => ?_⟩⟩
        · exact hrefuses (by simpa [hheld] using howner)
        · exact hrefuses (by simpa [hcancelled] using howner)
        all_goals
          have hfree : o.state ≠ .held ∧ o.state ≠ .cancelled := by rcases hstate with h | h <;> simp [h]
          rw [if_neg hfree.1, if_neg hfree.2] at howner
        · rw [if_pos hdelivered] at howner
          exact hrefuses howner
        · have hnone : ¬∃ c ∈ o.compartments, c.status = .partLoaded ∨ c.status = .loaded := by
            rintro ⟨c, hc, hst⟩
            rcases hfresh c hc with h | h <;> simp [h] at hst
          rw [if_neg hnone] at howner
          exact hwrites hranged howner
  · refine ⟨fun hno => ?_, fun hlo hhi => ⟨fun hnone => ?_, fun o ho => ⟨fun hheld => ?_, fun hfree => ?_⟩⟩⟩
    · exact State.replies_of_owner h.1 hrole (deleteOrderOwner_of_not_number (by omega))
    · exact State.replies_of_owner h.1 hrole (deleteOrderOwner_of_unknown ⟨hlo, hhi⟩ hnone)
    · exact State.replies_of_owner h.1 hrole ((deleteOrderOwner_of_found ⟨hlo, hhi⟩ ho).trans (if_pos hheld))
    · exact State.answers_of_request h.1 hrole ((deleteOrderOwner_of_found ⟨hlo, hhi⟩ ho).trans (if_neg hfree)) rfl rfl
        (State.linked_congr (State.linked_refl s l) rfl) rfl

end Sys2Proof.Machine
end

section
/-! CANCEL_ORDER, of an order with and without an arm on it (R71, R72). -/

namespace Sys2Proof.Machine

variable {s u : State} {l : Link} {b : Bay} {n : Nat} {o : Order} {r : Request} {a k : Arm} {c : StopCause} {arms : List Arm}

/-! ### What raising a cause leaves of a link and of a running record (R72, R117) -/

theorem State.planReset_of_lc (h : u.lc = s.lc) (l : Link) : u.planReset l = s.planReset l := by
  rw [State.planReset, State.planReset, h]

@[simp] theorem State.planReset_raiseFlag (s : State) (e : FlagEvent) (l : Link) : (s.raiseFlag e).planReset l = s.planReset l := by
  simp only [State.planReset, State.raiseFlag, PerLink.get_tabulate, FlagEvent.mark]
  split <;> rfl

/-- Of the Link Controller, a cause raised changes CAUSE_RAISED at most. -/
theorem State.raiseCause_lc (s : State) (a : Arm) (c : StopCause) :
    (s.raiseCause a c).lc = s.lc ∨ (s.raiseCause a c).lc = (s.raiseFlag (.causeRaised a)).lc := by
  by_cases hheld : (s.fc.get a).state = .idle ∨ c ∈ (s.fc.get a).causes
  · exact .inl (by rw [State.raiseCause_of_held hheld])
  · rw [not_or] at hheld
    right
    rw [State.raiseCause_eq hheld.1 hheld.2]
    split <;> simp

theorem State.planReset_raiseOn (s : State) (arms : List Arm) (c : StopCause) (l : Link) :
    (s.raiseOn arms c).planReset l = s.planReset l := by
  induction arms generalizing s with
  | nil => rfl
  | cons a rest ih =>
    refine (ih (s.raiseCause a c)).trans ?_
    rcases s.raiseCause_lc a c with h | h
    · exact State.planReset_of_lc h l
    · exact (State.planReset_of_lc h l).trans (s.planReset_raiseFlag _ l)

/-- The Flow Controller's part of an arm's running record (R111). -/
def State.flowPart (s : State) (a : Arm) : Option FlowPart := (s.running.get a).map Running.flow

theorem State.flowPart_of_running (h : u.running = s.running) : u.flowPart a = s.flowPart a := by
  rw [State.flowPart, State.flowPart, h]

/-- A change of a running record that keeps the Flow Controller's part. -/
theorem State.flowPart_modifyRunning {f : Running → Running} (hf : ∀ y, (f y).flow = y.flow) (s : State) (k a : Arm) :
    (s.modifyRunning k f).flowPart a = s.flowPart a := by
  simp only [State.flowPart, State.modifyRunning_running, PerArm.get_modify]
  split
  · rw [Option.map_map]
    exact congrArg (Option.map · (s.running.get a)) (funext hf)
  · rfl

theorem State.flowPart_modifyLine (s : State) (ch : Channel) (f : LineRecord → LineRecord) (a : Arm) :
    (s.modifyLine ch f).flowPart a = s.flowPart a := by
  unfold State.modifyLine
  split
  · exact State.flowPart_modifyRunning (by exact fun _ => rfl) s ch.arm a
  · rfl

theorem State.flowPart_unqueue (s : State) (ch : Channel) (a : Arm) : (s.unqueue ch).flowPart a = s.flowPart a := by
  unfold State.unqueue
  split
  · rw [State.flowPart_of_running (State.modifyChannel_running ..), State.flowPart_modifyLine]
    rfl
  · rfl

theorem State.flowPart_dosingLeft (s : State) (k a : Arm) : (s.dosingLeft k).flowPart a = s.flowPart a := by
  rw [State.dosingLeft, State.flowPart_unqueue, State.flowPart_unqueue]

/-- Entering CLOSING fixes the end reason of the arm's compartment (R117). -/
theorem State.flowPart_enterClosing (s : State) (a : Arm) (reason : EndReason) :
    (s.enterClosing a reason).flowPart a = (s.flowPart a).map fun x => { x with endReason := some reason } := by
  have hset : ∀ v : State, v.running = s.running →
      (v.setEndReason a reason).flowPart a = (s.flowPart a).map fun x => { x with endReason := some reason } := by
    intro v hv
    simp only [State.setEndReason, State.flowPart, State.modifyRunning_running, PerArm.get_modify_self, Option.map_map, hv]
    rfl
  unfold State.enterClosing
  dsimp only
  split
  · exact (State.flowPart_dosingLeft _ a a).trans (hset _ rfl)
  · exact hset _ rfl

/-- A terminal cause that joins the set of a flowing or PAUSED arm fixes the end reason. -/
theorem State.raiseCause_endReason {reason : EndReason} (hr : c.endReason = some reason)
    (hst : (s.fc.get a).state ∈ [ArmState.lowStart, .highFlow, .topOff, .paused]) (hnew : c ∉ (s.fc.get a).causes) :
    (s.raiseCause a c).flowPart a = (s.flowPart a).map fun x => { x with endReason := some reason } := by
  rw [State.raiseCause_eq (by intro h; simp [h] at hst) hnew, hr]
  have hclosing : ∀ v : State, v.running = s.running →
      (v.enterClosing a reason).flowPart a = (s.flowPart a).map fun x => { x with endReason := some reason } := by
    intro v hv
    rw [State.flowPart_enterClosing, State.flowPart, hv]
    rfl
  split
  case h_1 hreason => cases hreason; exact hclosing _ (by simp)
  case h_2 hreason => cases hreason; exact hclosing _ (by simp)
  case h_3 hreason => cases hreason; exact hclosing _ (by simp)
  case h_4 hreason => cases hreason; exact hclosing _ (by simp)
  all_goals simp_all

/-! ### The order by its state (R71) -/

theorem State.armOnOrder_iff :
    s.armOnOrder n a = true ↔ (s.fc.get a).state ≠ .idle ∧ ∃ y, s.running.get a = some y ∧ y.flow.order = n := by
  by_cases hidle : (s.fc.get a).state = .idle
  · simp [State.armOnOrder, State.active, State.armIdle, hidle]
  · cases hy : s.running.get a <;> simp [State.armOnOrder, State.active, State.armIdle, hidle, hy]

theorem Arm.all_any_iff {p : Arm → Bool} : Arm.all.any p = true ↔ ∃ a, p a = true := by
  simp [Arm.mem_all]

theorem State.cancelOrder_of_free (h : o.state = .opened ∨ o.state = .complete) :
    s.cancelOrder n o = s.modifyOrder n Order.cancelled := by
  rcases h with h | h <;> rw [State.cancelOrder, h]

theorem State.cancelOrder_of_done (h : o.state = .cancelled ∨ (o.state = .held ∧ o.cancelPending = true)) :
    s.cancelOrder n o = s := by
  rcases h with h | ⟨h, hpending⟩
  · rw [State.cancelOrder, h]
  · rw [State.cancelOrder, h]
    exact if_pos hpending

theorem State.cancelOrder_of_loading (h : o.state = .held) (hpending : o.cancelPending = false)
    (hon : ∃ a, s.armOnOrder n a = true) : s.cancelOrder n o = s.cancelLoading n := by
  rw [State.cancelOrder, h]
  simp only [hpending, Arm.all_any_iff.mpr hon, Bool.false_eq_true, if_false, if_true]

theorem State.cancelOrder_of_idle (h : o.state = .held) (hpending : o.cancelPending = false)
    (hoff : ¬∃ a, s.armOnOrder n a = true) : s.cancelOrder n o = s.takeFromSession n o.holding := by
  have hnone : Arm.all.any (s.armOnOrder n) = false := by rwa [← Bool.not_eq_true, Arm.all_any_iff]
  rw [State.cancelOrder, h]
  simp only [hpending, hnone, Bool.false_eq_true, if_false]

theorem cancelOrderOwner_of_not_number (h : ¬(1 ≤ n ∧ n ≤ 9999999)) : cancelOrderOwner n s = s.refuse .range :=
  if_pos (by rwa [Bool.not_eq_true', ← Bool.not_eq_true, orderNumberOk_iff])

theorem cancelOrderOwner_of_unknown (h : 1 ≤ n ∧ n ≤ 9999999) (ho : s.ob.orders.find n = none) :
    cancelOrderOwner n s = s.refuse .notFound := by
  rw [cancelOrderOwner, orderNumberOk_iff.mpr h, if_neg (by decide), ho]

theorem cancelOrderOwner_of_found (h : 1 ≤ n ∧ n ≤ 9999999) (ho : s.ob.orders.find n = some o) :
    cancelOrderOwner n s = (s.cancelOrder n o).accept [] := by
  rw [cancelOrderOwner, orderNumberOk_iff.mpr h, if_neg (by decide), ho]

/-- The order taken from an idle session: CANCELLED, and the bay in SIGNED without it (R71, R78, R87). -/
theorem State.takeFromSession_eq (ho : s.ob.orders.find n = some o)
    (hst : (s.bsc.get b).status = .planning ∨ (s.bsc.get b).status = .loading) :
    s.takeFromSession n (some b) =
      { s with
        lc := (s.raiseFlag (.bayChanged b)).lc
        ob := { orders := s.ob.orders.put n o.cancelled }
        bsc := s.bsc.set b
          { s.bsc.get b with
            status := .signed, order := none, plan := [], selection := .empty
            inactivityTimer := if s.armsIdle b then some 300000 else none } } := by
  have hne : (((s.setOrders (s.ob.orders.put n o.cancelled)).dropOrder b).bsc.get b).status ≠ .signed := by
    rcases hst with h | h <;> simp [State.dropOrder, h]
  simp only [State.takeFromSession, State.modifyOrder_of_find ho, State.moveBay_of_ne hne]
  cases b <;> rfl

/-- The Link Controller of a request whose owner moves a bay. -/
theorem State.linked_moved (hlc : u.lc = (s.raiseFlag (.bayChanged b)).lc) : s.linked u l (s.planReset l) [.bayChanged b] :=
  State.linked_congr (State.linked_raiseFlag (State.linked_refl s l) (.bayChanged b)) hlc

/-- Settles O24: CANCEL_ORDER by the state of the order, and its refusals. -/
theorem idleOrderIsCancelled : Obligations.IdleOrderIsCancelled := by
  refine ⟨fun l r n s h => ⟨fun hno => ?_, fun hlo hhi hnone => ?_⟩, fun l r n o s h hlo hhi ho => ?_⟩ <;>
    have hrole : RequestClass.office.mayIssue (s.lc.links.get l).role = true := by rw [h.2]; rfl
  · exact State.replies_of_owner h.1 hrole (cancelOrderOwner_of_not_number (by omega))
  · exact State.replies_of_owner h.1 hrole (cancelOrderOwner_of_unknown ⟨hlo, hhi⟩ hnone)
  · intro cancelled
    have howner := cancelOrderOwner_of_found ⟨hlo, hhi⟩ ho
    refine ⟨fun hfree => ?_, fun hdone => ?_, fun b hheld hpending hholding hnoarm hst => ?_⟩
    · rw [State.cancelOrder_of_free hfree, State.modifyOrder_of_find ho] at howner
      exact State.answers_of_request h.1 hrole howner rfl rfl (State.linked_congr (State.linked_refl s l) rfl) rfl
    · rw [State.cancelOrder_of_done hdone] at howner
      exact State.replies_of_owner h.1 hrole howner
    · have hnone : ¬∃ a, s.armOnOrder n a = true := by
        rintro ⟨a, ha⟩
        obtain ⟨hbusy, y, hy, hn⟩ := State.armOnOrder_iff.mp ha
        exact hnoarm a y hbusy hy hn
      rw [State.cancelOrder_of_idle hheld hpending hnone, hholding, State.takeFromSession_eq ho hst] at howner
      exact State.answers_of_request h.1 hrole howner rfl rfl (State.linked_moved rfl) rfl

/-! ### An order being loaded (R72) -/

/-- The arms on an order, in arm order. -/
def State.armsOnOrder (s : State) (n : Nat) : List Arm :=
  [Arm.arm0, .arm1, .arm2, .arm3].filter fun a =>
    decide ((s.fc.get a).state ≠ .idle) && decide ((s.running.get a).map (fun y => y.flow.order) = some n)

theorem State.armOnOrder_eq (s : State) (n : Nat) (a : Arm) :
    s.armOnOrder n a =
      (decide ((s.fc.get a).state ≠ .idle) && decide ((s.running.get a).map (fun y => y.flow.order) = some n)) := by
  rw [Bool.eq_iff_iff, State.armOnOrder_iff]
  simp

theorem State.mem_armsOnOrder : a ∈ s.armsOnOrder n ↔ s.armOnOrder n a = true := by
  rw [State.armsOnOrder, List.mem_filter, ← State.armOnOrder_eq]
  exact and_iff_right (Arm.mem_all a)

theorem State.nodup_armsOnOrder (s : State) (n : Nat) : (s.armsOnOrder n).Nodup := List.Nodup.filter _ (by decide)

theorem State.cancelLoading_eq (ho : s.ob.orders.find n = some o) :
    s.cancelLoading n =
      State.raiseOn { s with ob := { orders := s.ob.orders.put n { o with cancelPending := true } } } (s.armsOnOrder n)
        .orderCancelled := by
  rw [State.cancelLoading, State.modifyOrder_of_find ho]
  exact congrArg (fun p => State.raiseOn _ (Arm.all.filter p) .orderCancelled) (funext (s.armOnOrder_eq n))

/-- What ORDER_CANCELLED, raised in some state that holds arm `a` as `s` does, leaves of the arm. -/
theorem State.raiseCause_orderCancelled {v : State} (hfc : v.fc.get a = s.fc.get a)
    (hrunning : v.running.get a = s.running.get a) (hst : (s.fc.get a).state ∈ [ArmState.lowStart, .highFlow, .topOff, .paused])
    (hnew : StopCause.orderCancelled ∉ (s.fc.get a).causes) (hon : ∃ y, s.running.get a = some y) :
    ((v.raiseCause a .orderCancelled).fc.get a).state = .closing
      ∧ ((v.raiseCause a .orderCancelled).fc.get a).command = .close
      ∧ ∃ y, (v.raiseCause a .orderCancelled).running.get a = some y ∧ y.flow.endReason = some .orderCancelled := by
  rw [← hfc] at hst hnew
  obtain ⟨hstate, hcommand⟩ := State.raiseCause_terminal v a .orderCancelled .orderCancelled rfl hst hnew
  refine ⟨hstate, hcommand, ?_⟩
  obtain ⟨y, hy⟩ := hon
  have hflow := State.raiseCause_endReason (c := .orderCancelled) rfl hst hnew
  rw [State.flowPart, State.flowPart, hrunning, hy] at hflow
  obtain ⟨z, hz, hzflow⟩ := Option.map_eq_some_iff.mp hflow
  exact ⟨z, hz, by rw [hzflow]⟩

/-- An owner's answer said from the state it leaves, where that has PLAN_RESET of the link as it was. -/
theorem State.answers_of_left {α : Type} {code : Byte} {cls : RequestClass} {form : Walk α} {x : α}
    {owner : α → State → Answer}
    {pl : List Byte} (h : s.asks l r code form x) (hrole : cls.mayIssue (s.lc.links.get l).role = true)
    (ha : owner x s = u.accept pl) (hreset : u.planReset l = s.planReset l) :
    u.answers (.next (s.serveRequest l code cls form owner)) l r .ok pl (s.planReset l) [] u := by
  rw [State.serveRequest_of_asks h hrole, ha, ← hreset]
  exact State.replies_respond u l r .ok pl

/-- Settles O25: the mark, and ORDER_CANCELLED raised on every arm on the order. -/
theorem loadingOrderIsToBeCancelled : Obligations.LoadingOrderIsToBeCancelled := by
  intro l r n o s h hlo hhi ho hheld hpending onOrder hon u
  have hrole : RequestClass.office.mayIssue (s.lc.links.get l).role = true := by rw [h.2]; rfl
  have hmem : ∀ a, a ∈ s.armsOnOrder n ↔ onOrder a := fun _ => State.mem_armsOnOrder.trans State.armOnOrder_iff
  have howner := cancelOrderOwner_of_found (s := s) ⟨hlo, hhi⟩ ho
  rw [State.cancelOrder_of_loading hheld hpending (hon.imp fun _ => State.armOnOrder_iff.mpr), State.cancelLoading_eq ho] at howner
  have hreset : u.planReset l = s.planReset l := State.planReset_raiseOn _ _ _ l
  obtain ⟨hothers, hraised, -⟩ := State.raiseOn_arms _ (s.nodup_armsOnOrder n) .orderCancelled
    { s with ob := { orders := s.ob.orders.put n { o with cancelPending := true } } }
  refine ⟨?_, State.raiseOn_ob .., fun a ha => ?_, fun a ha => (hothers a ((hmem a).not.mpr ha)).1⟩
  · exact State.answers_of_left h.1 hrole howner hreset
  · obtain ⟨v, hfc, hrunning, -, hufc, hurunning⟩ := hraised a ((hmem a).mpr ha)
    have hfc : v.fc.get a = s.fc.get a := hfc
    have hu : u.fc.get a = (v.raiseCause a .orderCancelled).fc.get a := hufc
    have hu' : u.running.get a = (v.raiseCause a .orderCancelled).running.get a := hurunning
    rw [hu, hu']
    refine ⟨State.mem_raiseCause v a .orderCancelled (by rw [hfc]; exact ha.1), fun hst hnew => ?_⟩
    exact State.raiseCause_orderCancelled hfc hrunning hst hnew (ha.2.imp fun _ hy => hy.1)

end Sys2Proof.Machine
end

section
/-! WRITE_RECIPE and SET_BAY_SERVICE (R58, R59, R68, R86, R88, R89, R165). -/

namespace Sys2Proof.Machine

variable {s u : State} {l : Link} {b : Bay} {n : Nat} {o : Order} {r : Request} {a : Arm} {x : RecipeFields}
  {y : RecipeLine} {lines : List RecipeLine}

/-! ### WRITE_RECIPE: the lines (R58, R59) -/

theorem Additive.ofNat?_eq_some {t : Additive} (h : Additive.ofNat? n = some t) : t.toNat = n := by
  unfold Additive.ofNat? at h
  split at h <;> cases h <;> rfl

/-- A recipe line as WRITE_RECIPE carries it. -/
def RecipeLine.fields (y : RecipeLine) : Nat × Nat := (y.additive.toNat, y.dose)

theorem recipeLineOf_eq_some_iff {p : Nat × Nat} : recipeLineOf p = some y ↔ y.fields = p ∧ 10 ≤ p.2 ∧ p.2 ≤ 10000 := by
  constructor
  · intro h
    unfold recipeLineOf at h
    split at h
    · rename_i t ht
      rw [Option.ite_none_right_eq_some, within_iff, Option.some.injEq] at h
      obtain ⟨hdose, rfl⟩ := h
      exact ⟨Prod.ext (Additive.ofNat?_eq_some ht) rfl, hdose⟩
    · cases h
  · rintro ⟨rfl, hdose⟩
    simp only [recipeLineOf, RecipeLine.fields, Additive.ofNat?_toNat]
    exact if_pos (within_iff.mpr hdose)

theorem Additive.toNat_inj {t t' : Additive} (h : t.toNat = t'.toNat) : t = t' := by
  rw [← Option.some_inj, ← Additive.ofNat?_toNat t, h, Additive.ofNat?_toNat]

/-- The lines of a WRITE_RECIPE in range: one or two, of different additive types, their doses in range. -/
theorem RecipeFields.recipeLines_eq_some_iff :
    x.recipeLines = some lines ↔
      lines.map RecipeLine.fields = x.lines ∧ (x.lines.length = 1 ∨ x.lines.length = 2) ∧ (x.lines.map Prod.fst).Nodup
        ∧ ∀ p ∈ x.lines, 10 ≤ p.2 ∧ p.2 ≤ 10000 := by
  unfold RecipeFields.recipeLines
  generalize x.lines = ps
  constructor
  · intro h
    split at h
    · obtain ⟨y, hy, rfl⟩ := Option.map_eq_some_iff.mp h
      obtain ⟨rfl, hdose⟩ := recipeLineOf_eq_some_iff.mp hy
      simpa using hdose
    · split at h
      · rename_i y z hy hz
        rw [Option.ite_none_left_eq_some, Option.some.injEq] at h
        obtain ⟨hne, rfl⟩ := h
        obtain ⟨rfl, hdose⟩ := recipeLineOf_eq_some_iff.mp hy
        obtain ⟨rfl, hdose'⟩ := recipeLineOf_eq_some_iff.mp hz
        have htypes : y.additive.toNat ≠ z.additive.toNat := fun h => hne (Additive.toNat_inj h)
        simpa [RecipeLine.fields, htypes] using ⟨hdose, hdose'⟩
      · cases h
    · cases h
  · rintro ⟨rfl, hlen, hnodup, hdose⟩
    have hline : ∀ y ∈ lines, recipeLineOf y.fields = some y := fun y hy =>
      recipeLineOf_eq_some_iff.mpr ⟨rfl, hdose _ (List.mem_map_of_mem hy)⟩
    match lines, hlen with
    | [y], _ => simp [hline]
    | [y, z], _ =>
      have hne : y.additive ≠ z.additive := fun h => by simp [RecipeLine.fields, h] at hnodup
      simp [hline, hne]

/-- Types in range name lines. -/
theorem RecipeLine.exists_of_types {ps : List (Nat × Nat)} (h : ∀ p ∈ ps, 1 ≤ p.1 ∧ p.1 ≤ 6) :
    ∃ lines : List RecipeLine, lines.map RecipeLine.fields = ps := by
  induction ps with
  | nil => exact ⟨[], rfl⟩
  | cons p rest ih =>
    obtain ⟨htype, hrest⟩ := List.forall_mem_cons.mp h
    obtain ⟨lines, hlines⟩ := ih hrest
    obtain ⟨t, ht⟩ : ∃ t : Additive, t.toNat = p.1 := by
      obtain ⟨k, d⟩ := p
      dsimp only at htype ⊢
      obtain ⟨hlo, hhi⟩ := htype
      interval_cases k
      exacts [⟨.type1, rfl⟩, ⟨.type2, rfl⟩, ⟨.type3, rfl⟩, ⟨.type4, rfl⟩, ⟨.type5, rfl⟩, ⟨.type6, rfl⟩]
    exact ⟨{ additive := t, dose := p.2 } :: lines, by rw [List.map_cons, hlines, RecipeLine.fields, ht]⟩

theorem RecipeFields.rangeOk_iff :
    x.rangeOk = true ↔
      1 ≤ x.code ∧ x.code ≤ 24 ∧ 1 ≤ x.product ∧ x.product ≤ 15 ∧ ∀ t, x.tolerance = some t → 10 ≤ t ∧ t ≤ 200 := by
  simp only [RecipeFields.rangeOk, Bool.and_eq_true, within_iff, and_assoc]
  cases x.tolerance <;> simp

theorem State.recipeInUse_iff {code : Nat} :
    s.recipeInUse code = true ↔
      ∃ a y, (s.fc.get a).state ≠ .idle ∧ s.running.get a = some y ∧ y.note.recipe = some code := by
  rw [State.recipeInUse, Arm.all_any_iff]
  refine exists_congr fun a => ?_
  by_cases hidle : (s.fc.get a).state = .idle
  · simp [State.active, State.armIdle, hidle]
  · cases hy : s.running.get a <;> simp [State.active, State.armIdle, hidle, hy]

/-! ### WRITE_RECIPE: the checks in turn (R59, R165) -/

theorem writeRecipeOwner_of_not_ranged (h : x.recipeLines = none ∨ ¬x.rangeOk = true) :
    writeRecipeOwner x s = s.refuse .range := by
  unfold writeRecipeOwner
  split
  · rfl
  · rename_i hlines
    have hno : ¬x.rangeOk = true := h.resolve_left (by simp [hlines])
    exact if_pos (by simpa using hno)

/-- A WRITE_RECIPE in range, check by check. -/
theorem writeRecipeOwner_of_ranged (hlines : x.recipeLines = some lines) (hok : x.rangeOk = true) :
    writeRecipeOwner x s =
      if s.wc.products.find x.product = none then s.refuse .notFound
      else if s.wc.recipes.find x.code ≠ none ∧ s.recipeInUse x.code = true then s.refuse .inUse
      else
        s.writeSetting
          (decide (s.wc.recipes.find x.code =
            some { product := x.product, lines := lines, tolerance := x.tolerance.getD Config.defaultTolerance }))
          (.recipe x.code { product := x.product, lines := lines, tolerance := x.tolerance.getD Config.defaultTolerance }) := by
  simp only [writeRecipeOwner, hlines, hok, Bool.not_true, Bool.false_eq_true, if_false, Option.isNone_iff_eq_none,
    Bool.and_eq_true, Option.isSome_iff_ne_none]

/-- Settles O26: the ranges, the product, the recipe in use, then the setting write with its BUSY. -/
theorem recipeIsWritten : Obligations.RecipeIsWritten := by
  intro l r x s h refuses ranged inUse
  have hrole : RequestClass.office.mayIssue (s.lc.links.get l).role = true := by rw [h.2]; rfl
  have hrefuses : ∀ {res}, writeRecipeOwner x s = s.refuse res → refuses res := State.replies_of_owner h.1 hrole
  have hranged : ∀ {lines : List RecipeLine}, ranged → lines.map RecipeLine.fields = x.lines →
      x.recipeLines = some lines ∧ x.rangeOk = true := by
    rintro lines ⟨h1, h2, h3, h4, hlen, hlines, hnodup, htol⟩ hmap
    exact ⟨RecipeFields.recipeLines_eq_some_iff.mpr ⟨hmap, hlen, hnodup, fun p hp => (hlines p hp).2.2⟩,
      RecipeFields.rangeOk_iff.mpr ⟨h1, h2, h3, h4, htol⟩⟩
  have hexists : ranged → ∃ lines : List RecipeLine, lines.map RecipeLine.fields = x.lines := by
    rintro ⟨-, -, -, -, -, hlines, -, -⟩
    exact RecipeLine.exists_of_types fun p hp => ⟨(hlines p hp).1, (hlines p hp).2.1⟩
  have hinUse : inUse ↔ s.wc.recipes.find x.code ≠ none ∧ s.recipeInUse x.code = true := by
    rw [State.recipeInUse_iff]
  refine ⟨fun hno => hrefuses (writeRecipeOwner_of_not_ranged ?_), fun hyes hunknown => ?_, fun hyes hknown =>
    ⟨fun huse => ?_, fun hfree lines hmap => ?_⟩⟩
  · cases hlines : x.recipeLines with
    | none => exact .inl rfl
    | some lines =>
      refine .inr fun hok => hno ?_
      obtain ⟨hmap, hlen, hnodup, hdose⟩ := RecipeFields.recipeLines_eq_some_iff.mp hlines
      obtain ⟨h1, h2, h3, h4, htol⟩ := RecipeFields.rangeOk_iff.mp hok
      refine ⟨h1, h2, h3, h4, hlen, fun p hp => ?_, hnodup, htol⟩
      obtain ⟨y, -, rfl⟩ := List.mem_map.mp (hmap ▸ hp)
      have htype : 1 ≤ y.additive.toNat ∧ y.additive.toNat ≤ 6 := by cases y.additive <;> decide
      exact ⟨htype.1, htype.2, hdose _ hp⟩
  · obtain ⟨lines, hmap⟩ := hexists hyes
    obtain ⟨hlines, hok⟩ := hranged hyes hmap
    exact hrefuses ((writeRecipeOwner_of_ranged hlines hok).trans (if_pos hunknown))
  · obtain ⟨lines, hmap⟩ := hexists hyes
    obtain ⟨hlines, hok⟩ := hranged hyes hmap
    exact hrefuses ((writeRecipeOwner_of_ranged hlines hok).trans ((if_neg hknown).trans (if_pos (hinUse.mp huse))))
  · obtain ⟨hlines, hok⟩ := hranged hyes hmap
    have howner := (writeRecipeOwner_of_ranged (s := s) hlines hok).trans
      ((if_neg hknown).trans (if_neg (hinUse.not.mp hfree)))
    have htol : x.tolerance.getD Config.defaultTolerance = (match x.tolerance with | none => 50 | some t => t) := by
      cases x.tolerance <;> rfl
    rw [htol] at howner
    exact State.answers_of_writeSetting h.1 hrole howner

end Sys2Proof.Machine
end

section
/-! SET_BAY_SERVICE (R68, R86, R88, R89). -/

namespace Sys2Proof.Machine

variable {s : State} {l : Link} {b : Bay} {n k : Nat} {r : Request}

@[simp] theorem Bay.ofNat?_toNat (b : Bay) : Bay.ofNat? b.toNat = some b := by cases b <;> rfl

theorem setServiceOwner_of_not_ranged (h : 1 < n ∨ 1 < k) : setServiceOwner (n, k) s = s.refuse .range := by
  have hno : ∀ b, Bay.ofNat? n = some b → 1 < k := fun b hb =>
    h.resolve_left fun hn => by simp [Bay.ofNat?_eq_none hn] at hb
  unfold setServiceOwner
  split
  case h_1 hb hk =>
    have hk : k = 0 := hk
    exact absurd (hno _ hb) (by omega)
  case h_2 hb hk =>
    have hk : k = 1 := hk
    exact absurd (hno _ hb) (by omega)
  case h_3 => rfl

/-- OUT changes the flag of a bay in service whose close is not pending (R88). -/
theorem State.outChanges_iff :
    s.outChanges b = true ↔
      (s.bsc.get b).status ≠ .outOfService ∧ ((s.bsc.get b).status ≠ .loading ∨ (s.bsc.get b).closePending = false) := by
  simp [State.outChanges]

theorem State.not_outChanges_of (h : (s.bsc.get b).status = .outOfService
    ∨ ((s.bsc.get b).status = .loading ∧ (s.bsc.get b).closePending = true)) : ¬s.outChanges b = true := by
  rw [State.outChanges_iff]
  rintro ⟨hin, hopen⟩
  rcases h with h | ⟨hloading, hpending⟩
  · exact hin h
  · simp [hloading, hpending] at hopen

theorem setServiceOwner_out (b : Bay) (s : State) :
    setServiceOwner (b.toNat, 0) s =
      if s.outChanges b = true then if 8 ≤ s.nvc.queue.length then s.refuse .busy else (s.takeOut b).accept []
      else s.accept [] := by
  simp only [setServiceOwner, Bay.ofNat?_toNat, ← State.nvBusy_iff]
  cases s.outChanges b <;> rfl

theorem setServiceOwner_in (b : Bay) (s : State) :
    setServiceOwner (b.toNat, 1) s =
      if s.outChanges b = true then s.accept []
      else if 8 ≤ s.nvc.queue.length then s.refuse .busy else (s.bringIn b).accept [] := by
  simp only [setServiceOwner, Bay.ofNat?_toNat, ← State.nvBusy_iff]

/-! ### OUT (R88) -/

theorem State.takeOut_of_locked (h : (s.bsc.get b).status = .locked) :
    s.takeOut b = (s.commit (.bayService b true) .setting).moveBay b .outOfService := by
  rw [State.takeOut, h]
  rfl

theorem State.takeOut_of_closing (h : (s.bsc.get b).status ∈ [BayStatus.ident, .signed, .planning]
    ∨ ((s.bsc.get b).status = .loading ∧ ∀ a ∈ b.arms, (s.fc.get a).state = .idle)) :
    s.takeOut b = (s.commit (.bayService b true) .setting).closeSession b .outOfService := by
  rcases h with h | ⟨h, hidle⟩
  · simp only [List.mem_cons, List.not_mem_nil, or_false] at h
    rcases h with h | h | h <;> rw [State.takeOut, h] <;> rfl
  · rw [State.takeOut, h]
    exact if_pos (State.armsIdle_iff.mpr hidle)

theorem State.takeOut_of_busy (h : (s.bsc.get b).status = .loading) (hbusy : ¬∀ a ∈ b.arms, (s.fc.get a).state = .idle) :
    s.takeOut b =
      State.raiseOn
        { s.commit (.bayService b true) .setting with bsc := s.bsc.set b { s.bsc.get b with closePending := true } } b.arms
        .bayOutOfService := by
  rw [State.takeOut, h]
  refine (if_neg (State.armsIdle_iff.not.mpr hbusy)).trans ?_
  simp only [State.setService, State.modifyBay, PerBay.modify, State.commit_bsc]

/-! ### IN (R89) -/

theorem State.bringIn_of_out (h : (s.bsc.get b).status = .outOfService) :
    s.bringIn b = (s.commit (.bayService b false) .setting).moveBay b .locked := if_pos h

theorem State.bringIn_of_pending (h : (s.bsc.get b).status = .loading) :
    s.bringIn b =
      { s.commit (.bayService b false) .setting with bsc := s.bsc.set b { s.bsc.get b with closePending := false } } := by
  refine (if_neg (by simp [h])).trans ?_
  simp only [State.setService, State.modifyBay, PerBay.modify, State.commit_bsc]

/-! ### The answers -/

/-- The bay moved after its flag is committed: BAY_CHANGED, and the bay's state. -/
theorem State.moveBay_of_commit {c : NvContents} {cls : EntryClass} {st : BayStatus} (h : (s.bsc.get b).status ≠ st) :
    (s.commit c cls).moveBay b st =
      { s.commit c cls with
        lc := (s.raiseFlag (.bayChanged b)).lc
        bsc := s.bsc.set b { s.bsc.get b with status := st } } := by
  rw [State.moveBay_of_ne (by simpa using h)]
  simp only [State.commit_bsc, State.raiseFlag, State.commit_lc]

/-- The session closed after its flag is committed, where the bay holds no order. -/
theorem State.closeSession_of_commit {c : NvContents} {cls : EntryClass} {dest : BayStatus} {d : Nat}
    (hst : (s.bsc.get b).status ≠ dest) (hdriver : (s.bsc.get b).driver = some d) (horder : (s.bsc.get b).order = none) :
    (s.commit c cls).closeSession b dest =
      { s.commit c cls with
        lc := (s.raiseFlag (.bayChanged b)).lc
        pt := { bound := s.pt.bound.remove d }
        bsc := s.bsc.set b ((s.bsc.get b).closed dest) } := by
  rw [State.closeSession_without_order (by simpa using hst) (by simpa using horder),
    State.boundWithout_of_some (d := d) (by simpa using hdriver)]
  simp only [State.commit_bsc, State.commit_pt, State.raiseFlag, State.commit_lc]

/-- The same, where it holds one, which it lets go. -/
theorem State.closeSession_of_commit_with_order {c : NvContents} {cls : EntryClass} {dest : BayStatus} {d : Nat} {o : Order}
    (hst : (s.bsc.get b).status ≠ dest) (hdriver : (s.bsc.get b).driver = some d) (horder : (s.bsc.get b).order = some n)
    (ho : s.ob.orders.find n = some o) :
    (s.commit c cls).closeSession b dest =
      { s.commit c cls with
        lc := (s.raiseFlag (.bayChanged b)).lc
        pt := { bound := s.pt.bound.remove d }
        ob := { orders := s.ob.orders.put n o.letGo }
        bsc := s.bsc.set b ((s.bsc.get b).closed dest) } := by
  rw [State.closeSession_with_order (n := n) (o := o) (by simpa using hst) (by simpa using horder) (by simpa using ho),
    State.boundWithout_of_some (d := d) (by simpa using hdriver)]
  simp only [State.commit_bsc, State.commit_pt, State.commit_ob, State.raiseFlag, State.commit_lc]

/-- Settles O27: OUT and IN by the state of the bay, each with its entry, its BUSY, or nothing to change. -/
theorem bayServiceIsSet : Obligations.BayServiceIsSet := by
  refine ⟨fun l r n k s h hno => ?_, fun l r b s => ?_⟩
  · exact State.replies_of_owner h.1 (by rw [h.2]; rfl) (setServiceOwner_of_not_ranged hno)
  · intro bay allIdle written
    refine ⟨fun h => ?_, fun h => ?_⟩ <;>
      have hrole : RequestClass.office.mayIssue (s.lc.links.get l).role = true := by rw [h.2]; rfl
    · have howner := setServiceOwner_out b s
      refine ⟨fun hout => ?_, fun hin hopen => ⟨fun hfull => ?_, fun hfree => ⟨fun hlocked => ?_, fun d hcloses hdriver => ?_,
        fun hloading hbusy => ?_⟩⟩⟩
      · exact State.replies_of_owner h.1 hrole (howner.trans (if_neg (State.not_outChanges_of hout)))
      all_goals rw [if_pos (State.outChanges_iff.mpr ⟨hin, hopen⟩)] at howner
      · exact State.replies_of_owner h.1 hrole (howner.trans (if_pos hfull))
      all_goals rw [if_neg hfree.not_ge] at howner
      · rw [State.takeOut_of_locked hlocked, State.moveBay_of_commit hin] at howner
        exact State.answers_of_request h.1 hrole howner rfl rfl (State.linked_moved rfl) rfl
      · rw [State.takeOut_of_closing hcloses] at howner
        refine ⟨fun horder => ?_, fun n o horder ho => ?_⟩
        · rw [State.closeSession_of_commit hin hdriver horder] at howner
          exact State.answers_of_request h.1 hrole howner rfl rfl (State.linked_moved rfl) rfl
        · rw [State.closeSession_of_commit_with_order hin hdriver horder ho] at howner
          exact State.answers_of_request h.1 hrole howner rfl rfl (State.linked_moved rfl) rfl
      · rw [State.takeOut_of_busy hloading hbusy] at howner
        refine State.answers_of_left h.1 hrole howner ((State.planReset_raiseOn ..).trans ?_)
        exact State.planReset_of_lc (State.commit_lc ..) l
    · have howner := setServiceOwner_in b s
      refine ⟨fun hin hopen => ?_, fun hout => ⟨fun hfull => ?_, fun hfree => ⟨fun hst => ?_, fun hloading => ?_⟩⟩⟩
      · exact State.replies_of_owner h.1 hrole (howner.trans (if_pos (State.outChanges_iff.mpr ⟨hin, hopen⟩)))
      all_goals rw [if_neg (State.not_outChanges_of hout)] at howner
      · exact State.replies_of_owner h.1 hrole (howner.trans (if_pos hfull))
      all_goals rw [if_neg hfree.not_ge] at howner
      · rw [State.bringIn_of_out hst, State.moveBay_of_commit fun h => absurd (h.symm.trans hst) (by decide)] at howner
        exact State.answers_of_request h.1 hrole howner rfl rfl (State.linked_moved rfl) rfl
      · rw [State.bringIn_of_pending hloading] at howner
        exact State.answers_of_request h.1 hrole howner rfl rfl
          (State.linked_congr (State.linked_refl s l) (State.commit_lc ..)) rfl

end Sys2Proof.Machine
end

section
/-! WRITE_PRODUCT: its ranges, its checks in turn, and what an accepted write leaves (R56, R165, R169 to R171). -/

namespace Sys2Proof.Machine

variable {s : State} {l : Link} {r : Request} {x : ProductFields}

theorem ProductFields.rangeOk_iff :
    x.rangeOk = true ↔
      1 ≤ x.code ∧ x.code ≤ 15 ∧ 1 ≤ x.cls ∧ x.cls ≤ 8 ∧ x.alpha ≤ 20000
        ∧ -4000 ≤ x.fallback ∧ x.fallback ≤ 7000 := by
  simp only [ProductFields.rangeOk, Bool.and_eq_true, within_iff, decide_eq_true_iff, Nat.zero_le, true_and, and_assoc]

/-- A sealed write defines a product or changes its α (R56). -/
theorem productSealed_iff {old : Option ProductRecord} {alpha : Nat} :
    productSealed old alpha = true ↔ old.map ProductRecord.alpha ≠ some alpha := by
  cases old <;> simp [productSealed]

theorem State.productInFlow_iff {code : Nat} :
    s.productInFlow code = true ↔ ∃ a, (s.wc.arms.get a).product = code ∧ (s.fc.get a).state ≠ .idle := by
  rw [State.productInFlow, Arm.all_any_iff]
  simp [State.armIdle]

theorem writeProductOwner_of_not_ranged (h : ¬x.rangeOk = true) : writeProductOwner x s = s.refuse .range :=
  if_pos (by simpa using h)

/-- The audit record after a sealed write of a product: the counter raised, its α before and after at the newest end, the oldest
entry gone where 32 are held (R170, R171). -/
def State.auditOfProduct (s : State) (x : ProductFields) : AuditRecord :=
  { counter := s.wc.audit.counter + 1
    entries :=
      (if 32 ≤ s.wc.audit.entries.length then s.wc.audit.entries.tail else s.wc.audit.entries)
        ++ [{ counter := s.wc.audit.counter + 1, time := s.timestamp, subject := .product x.code
              changes := [.alpha ((s.wc.products.find x.code).map ProductRecord.alpha) x.alpha] }] }

theorem State.logSealed_commit_product (s : State) (x : ProductFields) :
    (s.commit (.product x.code x.record) .setting).logSealed (.product x.code)
        [.alpha ((s.wc.products.find x.code).map ProductRecord.alpha) x.alpha] =
      (s.commit (.product x.code x.record) .setting).commit (.audit (s.auditOfProduct x)) .setting := by
  have haudit : (s.commit (.product x.code x.record) .setting).wc.audit = s.wc.audit := by rw [State.commit_wc]; rfl
  have htime : (s.commit (.product x.code x.record) .setting).timestamp = s.timestamp := by
    rw [State.timestamp, State.commit_lc, State.timestamp]
  rw [State.logSealed, haudit, htime, AuditRecord.add, List.drop_one]
  rfl

/-- A sealed write, check by check: the seal, the counter, the arms, then BUSY (R56, R169). -/
theorem writeProductOwner_of_sealed (hok : x.rangeOk = true)
    (hsealed : (s.wc.products.find x.code).map ProductRecord.alpha ≠ some x.alpha) :
    writeProductOwner x s =
      if s.accepts .sealSwitch = false then s.refuse .sealedParameter
      else if 4294967295 ≤ s.wc.audit.counter then s.refuse .sealedParameter
      else if s.productInFlow x.code = true then s.refuse .state
      else if 8 ≤ s.nvc.queue.length then s.refuse .busy
      else ((s.commit (.product x.code x.record) .setting).commit (.audit (s.auditOfProduct x)) .setting).accept [] := by
  have hold : productSealed (s.wc.products.find x.code) x.alpha = true := productSealed_iff.mpr hsealed
  have hbusy : s.nvBusy = decide (8 ≤ s.nvc.queue.length) := rfl
  rw [← State.logSealed_commit_product]
  unfold writeProductOwner
  simp only [hok, hold, State.sealedChecks, State.sealOpen, Config.maxCounter, hbusy]
  by_cases hseal : s.accepts .sealSwitch = false
  · simp [hseal]
  · by_cases hcounter : 4294967295 ≤ s.wc.audit.counter
    · simp [hseal, hcounter]
    · by_cases hflow : s.productInFlow x.code = true <;> simp [hseal, hcounter, hflow]

/-- Any other write: OK where the record is held already, else BUSY or the record (R56, R165). -/
theorem writeProductOwner_of_unsealed (hok : x.rangeOk = true)
    (hsealed : (s.wc.products.find x.code).map ProductRecord.alpha = some x.alpha) :
    writeProductOwner x s =
      s.writeSetting (decide (s.wc.products.find x.code = some x.record)) (.product x.code x.record) := by
  have hold : productSealed (s.wc.products.find x.code) x.alpha = false := by
    simpa [hsealed] using productSealed_iff.not.mpr (not_not.mpr hsealed)
  simp [writeProductOwner, hok, hold]

/-- Settles O33: RANGE, then the checks of a sealed write in turn and the audit entry, or the setting write of any other. -/
theorem productIsWritten : Obligations.ProductIsWritten := by
  intro l r x s h refuses accepts ranged old written audit entry
  have hrole : RequestClass.service.mayIssue (s.lc.links.get l).role = true := by rw [h.2]; rfl
  have hrefuses : ∀ {res}, writeProductOwner x s = s.refuse res → refuses res := State.replies_of_owner h.1 hrole
  have hranged : ranged ↔ x.rangeOk = true := ProductFields.rangeOk_iff.symm
  refine ⟨fun hno => hrefuses (writeProductOwner_of_not_ranged (hranged.not.mp hno)), fun hyes hsealed => ?_,
    fun hyes hheld => ?_⟩
  · have howner := writeProductOwner_of_sealed (hranged.mp hyes) hsealed
    refine ⟨fun hseal => hrefuses (howner.trans (if_pos hseal)), fun hseal => ?_⟩
    rw [if_neg (by simp [hseal])] at howner
    refine ⟨fun hlast => hrefuses (howner.trans (if_pos hlast)), fun hcounter => ?_⟩
    rw [if_neg hcounter.not_ge] at howner
    refine ⟨fun hbusy => hrefuses (howner.trans (if_pos (State.productInFlow_iff.mpr hbusy))),
      fun hidle => ?_⟩
    rw [if_neg (by rw [State.productInFlow_iff]; rintro ⟨a, ha, hbusy⟩; exact hbusy (hidle a ha))] at howner
    refine ⟨fun hfull => hrefuses (howner.trans (if_pos hfull)), fun hfree => ?_⟩
    rw [if_neg hfree.not_ge] at howner
    exact State.answers_of_request h.1 hrole howner rfl rfl
      (State.linked_congr (State.linked_refl s l) ((State.commit_lc ..).trans (State.commit_lc ..))) rfl
  · exact State.answers_of_writeSetting h.1 hrole (writeProductOwner_of_unsealed (hranged.mp hyes) hheld)

end Sys2Proof.Machine
end

section
/-! HAND_OVER: what holds it back, the compartment taken by the Note Store, and the bay as its arm reaches IDLE (R70, R72, R86, R88,
R119, R146, R151, R158, R160, R166). -/

namespace Sys2Proof.Machine

variable {s u v : State} {a : Arm} {n : Nat} {o : Order} {y : Running} {reason : EndReason} {note : NoteRecord}

/-! ### What holds a hand-over back (R119, R158, R160, R166) -/

theorem Channel.ofArm_iff {c : Channel} : c.arm = a ↔ c = a.lowerChannel ∨ c = a.upperChannel := by
  cases a <;> cases c <;> decide

theorem State.armInShot_iff : s.armInShot a = true ↔ ∃ c : Channel, c.arm = a ∧ (s.adu.channels.get c).place = .inShot := by
  simp only [State.armInShot, Bool.or_eq_true, decide_eq_true_eq]
  simp only [Channel.ofArm_iff, or_and_right, exists_or, exists_eq_left]

theorem State.noteQueued_iff :
    s.noteQueued a = true ↔ ∃ e ∈ s.nvc.queue, ∃ x next, e.contents = .note x next ∧ x.arm = a := by
  simp only [State.noteQueued, List.any_eq_true]
  refine exists_congr fun e => and_congr_right fun _ => ?_
  cases e.contents <;> simp

theorem State.areaSettled_iff : s.areaSettled = true ↔ s.nvc.areaWrite = none ∧ s.nvc.clearDue = false := by
  simp [State.areaSettled]

/-- A hand-over is free to be taken exactly where none of its holds is there. -/
theorem State.handOverReady_iff :
    s.handOverReady a = true ↔
      s.condition = .running ∧ (s.fc.get a).state = .ending
        ∧ (∀ c : Channel, c.arm = a → (s.adu.channels.get c).place ≠ .inShot) ∧ s.ic.warning = false
        ∧ (¬∃ e ∈ s.nvc.queue, ∃ x next, e.contents = .note x next ∧ x.arm = a)
        ∧ (s.ns.held.get a = true → s.nvc.areaWrite = none ∧ s.nvc.clearDue = false
          ∧ ∀ k : Arm, k.toNat < a.toNat → s.ns.held.get k = true →
            ∃ e ∈ s.nvc.queue, ∃ x next, e.contents = .note x next ∧ x.arm = k) := by
  have hlower : (Arm.all.all fun b => !(decide (b.toNat < a.toNat)) || !s.ns.held.get b || s.noteQueued b) = true ↔
      ∀ k : Arm, k.toNat < a.toNat → s.ns.held.get k = true → s.noteQueued k = true := by
    simp only [List.all_eq_true, Arm.mem_all, true_implies]
    refine forall_congr' fun k => ?_
    by_cases hk : k.toNat < a.toNat <;> cases s.ns.held.get k <;> simp [hk]
  have hheld : (!s.ns.held.get a || (s.areaSettled &&
      Arm.all.all fun b => !(decide (b.toNat < a.toNat)) || !s.ns.held.get b || s.noteQueued b)) = true ↔
      (s.ns.held.get a = true → s.areaSettled = true
        ∧ ∀ k : Arm, k.toNat < a.toNat → s.ns.held.get k = true → s.noteQueued k = true) := by
    rw [Bool.or_eq_true, Bool.and_eq_true, hlower, Bool.not_eq_true', ← Bool.not_eq_true, imp_iff_not_or]
  have hshot : (!s.armInShot a) = true ↔ ∀ c : Channel, c.arm = a → (s.adu.channels.get c).place ≠ .inShot := by
    simp only [Bool.not_eq_true', ← Bool.not_eq_true, State.armInShot_iff, not_exists, not_and, ne_eq]
  have hqueued : (!s.noteQueued a) = true ↔ ¬∃ e ∈ s.nvc.queue, ∃ x next, e.contents = .note x next ∧ x.arm = a := by
    rw [Bool.not_eq_true', ← Bool.not_eq_true, State.noteQueued_iff]
  rw [State.handOverReady, Bool.and_eq_true, hheld]
  simp only [State.isRunning, Bool.and_eq_true, decide_eq_true_eq, hshot, hqueued, Bool.not_eq_true', State.areaSettled_iff,
    State.noteQueued_iff, and_assoc]

theorem exec_handOver_of_ready (h : s.handOverReady a = true) : exec (.handOver a) s = .next (s.handOver a) :=
  congrArg Host.Outcome.next (if_pos h)

theorem exec_handOver_of_not_ready (h : ¬s.handOverReady a = true) : exec (.handOver a) s = .next s :=
  congrArg Host.Outcome.next (if_neg h)

/-! ### The compartment taken (R70, R151) -/

/-- A commit takes no account of the Link Controller, the meters and the Note Store. -/
theorem State.commit_with_noted (s : State) (lc : LinkController) (me : PerArm MeteringChannel) (ns : NoteStore) (c : NvContents)
    (k : EntryClass) :
    ({ s with lc := lc, me := me, ns := ns } : State).commit c k = { s.commit c k with lc := lc, me := me, ns := ns } := by
  apply State.eq_of_parts <;> simp only [State.commit_condition, State.commit_lc, State.commit_ic, State.commit_wc, State.commit_pt,
    State.commit_ob, State.commit_bsc, State.commit_me, State.commit_fc, State.commit_running, State.commit_adu, State.commit_ns,
    State.commit_pending]
  exact State.commit_nvc_congr rfl rfl rfl

/-- The part with a note's three entries handed to the NVC (R151). -/
def State.noteCommitted (s : State) (a : Arm) (note : NoteRecord) : State :=
  ((s.commit (.note note (noteNumberAfter note.number)) .endClass).commit (.totals a (s.totalsOf a)) .endClass).commit
    (.stock s.wc.stock) .endClass

theorem State.addNote_committed (s : State) (a : Arm) (note : NoteRecord) :
    s.addNote a note =
      { s.noteCommitted a note with
        lc := (s.noted a note).lc, me := s.me.set a { s.me.get a with unauthorized := 0 }
        ns := { s.ns with reserved := s.ns.reserved.set a false } } := by
  have htotals : (s.noted a note).totalsOf a = s.totalsOf a := by
    rw [State.noted_parts]
    simp [State.totalsOf]
  have hstock : (s.noted a note).wc.stock = s.wc.stock := by rw [State.noted_parts]
  rw [State.addNote_eq, htotals, hstock]
  simp only [List.foldl_cons, List.foldl_nil]
  rw [State.noted_parts]
  simp only [State.commit_with_noted, State.noteCommitted]

/-- The part with arm `a`'s reservation ended and its compartment's order `o` under `n`, over some records and meters: what the Note
Store leaves of a hand-over (R70, R151). -/
def State.compartmentTaken (s : State) (a : Arm) (n : Nat) (o : Order) (u : State) (lc : LinkController) : State :=
  { u with
    lc := lc, ns := { s.ns with reserved := s.ns.reserved.set a false }
    ob := { orders := s.ob.orders.put n o } }

/-- With no gross the compartment has its status back, and there is no note. -/
theorem State.takeCompartment_of_no_gross (h : y.metering.gross = 0) (ho : s.ob.orders.find y.flow.order = some o) :
    s.takeCompartment a y =
      s.compartmentTaken a y.flow.order (o.modifyCompartment y.flow.compartment Compartment.unended) s s.lc :=
  (if_pos h).trans (State.modifyOrder_of_find (by exact ho) _)

/-- The note a hand-over makes of a running record (R152). -/
def State.handOverNote (s : State) (a : Arm) (y : Running) (reason : EndReason) : NoteRecord :=
  y.toNote s.wc a reason s.timestamp (s.totalsOf a) false

/-- With gross the note joins the collection, and the compartment gains its litres. -/
theorem State.takeCompartment_of_gross (h : 0 < y.metering.gross) (hreason : y.flow.endReason = some reason)
    (ho : s.ob.orders.find y.flow.order = some o) (hnote : s.handOverNote a y reason = note) :
    s.takeCompartment a y =
      s.compartmentTaken a y.flow.order (o.modifyCompartment y.flow.compartment fun c => c.ended reason note.gross note.net)
        { s.noteCommitted a note with me := s.me.set a { s.me.get a with unauthorized := 0 } } (s.noted a note).lc := by
  have hmade : s.takeCompartment a y =
      (s.addNote a note).modifyOrder y.flow.order fun o =>
        o.modifyCompartment y.flow.compartment fun c => c.ended reason note.gross note.net := by
    rw [State.takeCompartment, if_neg h.ne', hreason, ← hnote]
    rfl
  rw [hmade, State.modifyOrder_of_find (o := o) (by rwa [State.addNote_ob]), State.addNote_committed]
  simp only [State.setOrders, State.compartmentTaken, State.noteCommitted, State.commit_ob]

/-! ### The arm back in IDLE (R119, R135) -/

/-- The channels with the lines of arm `a` released (R135). -/
def State.channelsReleased (s : State) (a : Arm) : PerChannel ChannelState :=
  .tabulate fun c =>
    if c.arm = a ∧ (s.adu.channels.get c).serving ≠ none then { s.adu.channels.get c with serving := none, owed := 0 }
    else s.adu.channels.get c

theorem State.releaseLines_eq (s : State) (a : Arm) :
    s.releaseLines a = { s with adu := { s.adu with channels := s.channelsReleased a } } := by
  have hchannels : (s.releaseLines a).adu.channels = s.channelsReleased a := by
    refine PerChannel.ext_get fun c => ?_
    simp only [State.releaseLines, State.modifyChannel_adu, PerChannel.get_modify, State.channelsReleased,
      PerChannel.get_tabulate, Channel.ofArm_iff, ← Option.isSome_iff_ne_none]
    have hne : a.lowerChannel ≠ a.upperChannel := by cases a <;> decide
    by_cases hlower : c = a.lowerChannel
    · simp [hlower, hne]
    · by_cases hupper : c = a.upperChannel <;> simp [hlower, hupper, hne.symm]
  rw [← hchannels]
  rfl

theorem State.armToIdle_eq (s : State) (a : Arm) :
    s.armToIdle a =
      { s with
        fc := s.fc.set a (s.fc.get a).handedOver
        running := s.running.set a none
        adu := { s.adu with channels := s.channelsReleased a }
        ns := { s.ns with held := s.ns.held.set a false } } := by
  rw [State.armToIdle, State.releaseLines_eq]
  rfl

/-! ### The order and the bay (R72, R86 to R88, R92) -/

theorem State.completeCancellation_of_pending_none (ho : s.ob.orders.find n = some o)
    (h : ¬(o.cancelPending = true ∧ ∀ k, ¬s.armOnOrder n k = true)) : s.completeCancellation n = s := by
  have hno : ¬(o.cancelPending && !Arm.all.any (s.armOnOrder n)) = true := by
    simpa only [Bool.and_eq_true, Bool.not_eq_true', ← Bool.not_eq_true, Arm.all_any_iff, not_exists] using h
  rw [State.completeCancellation, ho]
  exact if_neg hno

section Completes

variable (ho : s.ob.orders.find n = some o) (hholding : o.holding = some a.bay)
  (h : o.cancelPending = true ∧ ∀ k, ¬s.armOnOrder n k = true)
include ho hholding h

/-- A cancellation that completes takes the order from its session, which leaves LOADING unless its close is pending. -/
theorem State.completeCancellation_of_complete :
    s.completeCancellation n =
      if (s.bsc.get a.bay).closePending = true then (s.setOrders (s.ob.orders.put n o.cancelled)).dropOrder a.bay
      else s.takeFromSession n (some a.bay) := by
  have hyes : (o.cancelPending && !Arm.all.any (s.armOnOrder n)) = true := by
    simpa only [Bool.and_eq_true, Bool.not_eq_true', ← Bool.not_eq_true, Arm.all_any_iff, not_exists] using h
  have hclose : (((s.setOrders (s.ob.orders.put n o.cancelled)).dropOrder a.bay).bsc.get a.bay).closePending =
      (s.bsc.get a.bay).closePending := by simp [State.dropOrder]
  rw [State.completeCancellation, ho]
  simp only [hyes, hholding, if_true, State.modifyOrder_of_find ho, State.takeFromSession, hclose]

end Completes

/-- The bay as the Bay Session Controller leaves it of arm `a`: the alarm with the last DEADMAN gone, and the arm not among those
that left flow in WARNING (R92, log 32). -/
def State.bayLeftBy (s : State) (a : Arm) (x : BayController) : BayController :=
  { x with
    alarm :=
      if StopCause.deadman ∈ (s.fc.get a).causes ∧ StopCause.deadman ∉ (s.fc.get a.other).causes then false else x.alarm
    leftInWarning := x.leftInWarning.filter fun k => decide (k ≠ a) }

/-- The Bay Session Controller's part of a hand-over once the cancellation is settled, `v` being the part then. -/
def State.settleBay (s v : State) (a : Arm) : State :=
  (((if (s.fc.get a).causes.contains .deadman then v.deadmanCauseLeft a.bay else v).modifyBay a.bay fun x =>
    { x with leftInWarning := x.leftInWarning.filter (· ≠ a) })).armReachedIdle a.bay

theorem State.handOver_of_running (h : s.running.get a = some y) :
    s.handOver a = s.settleBay (((s.takeCompartment a y).armToIdle a).completeCancellation y.flow.order) a := by
  rw [State.handOver, h]
  rfl

theorem State.settleBay_eq (hfc : v.fc = s.fc.set a (s.fc.get a).handedOver) :
    s.settleBay v a =
      ({ v with bsc := v.bsc.set a.bay (s.bayLeftBy a (v.bsc.get a.bay)) } : State).armReachedIdle a.bay := by
  have hnone : (v.fc.get a).causes = [] := by
    rw [hfc, PerArm.get_set_self]
    rfl
  have hother : v.fc.get a.other = s.fc.get a.other := by rw [hfc, PerArm.get_set_other]
  have hcalm : ((s.fc.get a).causes.contains .deadman = true ∧
      ¬(a.bay.arms.any fun k => (v.fc.get k).causes.contains .deadman) = true) ↔
      StopCause.deadman ∈ (s.fc.get a).causes ∧ StopCause.deadman ∉ (s.fc.get a.other).causes := by
    rw [Arm.any_bay_arms, hnone, hother]
    simp
  have hbay : (if (s.fc.get a).causes.contains .deadman then v.deadmanCauseLeft a.bay else v) =
      v.modifyBay a.bay fun x =>
        { x with
          alarm :=
            if StopCause.deadman ∈ (s.fc.get a).causes ∧ StopCause.deadman ∉ (s.fc.get a.other).causes then false
            else x.alarm } := by
    simp only [← hcalm, State.deadmanCauseLeft]
    have hself : v.modifyBay a.bay (fun x => { x with alarm := x.alarm }) = v :=
      congrArg (fun x => ({ v with bsc := x } : State)) (PerBay.set_get_self v.bsc a.bay)
    by_cases hheld : (s.fc.get a).causes.contains .deadman = true
    · by_cases hrest : (a.bay.arms.any fun k => (v.fc.get k).causes.contains .deadman) = true
      · simp only [hheld, hrest]
        exact hself.symm
      · simp only [hheld, hrest]
        rfl
    · simp only [hheld]
      exact hself.symm
  rw [State.settleBay, hbay]
  cases a <;> rfl

theorem Arm.mem_bay_arms {k : Arm} : k ∈ a.bay.arms ↔ k = a ∨ k = a.other := by
  cases a <;> cases k <;> decide

theorem State.armReachedIdle_of_busy (h : s.armsIdle a.bay = false) : s.armReachedIdle a.bay = s := if_neg (by simp [h])

theorem State.armReachedIdle_of_open (h : (s.bsc.get a.bay).closePending = false) :
    s.armReachedIdle a.bay =
      if s.armsIdle a.bay = true ∧ (s.bsc.get a.bay).status = .loading then s.refreshInactivity a.bay else s := by
  cases hidle : s.armsIdle a.bay <;> simp [State.armReachedIdle, hidle, h]

theorem State.armReachedIdle_of_closing (h : s.armsIdle a.bay = true) (hclose : (s.bsc.get a.bay).closePending = true) :
    s.armReachedIdle a.bay = s.closeSession a.bay .outOfService := by
  rw [State.armReachedIdle, if_pos h, if_pos hclose]

/-! ### The part with the hand-over done

`u` holds the records, meters and entries the Note Store leaves, `lc` the Link Controller, `ob` the orders, and `x` the bay. -/

/-- The part with arm `a` handed over. -/
def State.endedWith (s : State) (a : Arm) (u : State) (lc : LinkController) (ob : OrderBook) (x : BayController) : State :=
  { u with
    lc := lc
    ns := { reserved := s.ns.reserved.set a false, held := s.ns.held.set a false }
    fc := s.fc.set a (s.fc.get a).handedOver
    running := s.running.set a none
    adu := { s.adu with channels := s.channelsReleased a }
    ob := ob
    bsc := s.bsc.set a.bay x }

/-- The bays bound to drivers, without the driver of a closed bay (R52). -/
def PermitTable.without (pt : PermitTable) (driver : Option Nat) : PermitTable :=
  match driver with
  | none => pt
  | some d => { bound := pt.bound.remove d }

theorem State.boundWithout_eq (s : State) (b : Bay) : s.boundWithout b = s.pt.without (s.bsc.get b).driver := rfl

/-- The Link Controller as an event leaves it (R12). -/
def LinkController.raised (lc : LinkController) (e : FlagEvent) : LinkController :=
  { lc with links := .tabulate fun l => e.mark l (lc.links.get l) }

theorem State.raiseFlag_lc_eq (s : State) (e : FlagEvent) : (s.raiseFlag e).lc = s.lc.raised e := rfl

section Ended

variable {lc : LinkController} {ob : OrderBook} {x : BayController}

theorem State.endedWith_bay : (s.endedWith a u lc ob x).bsc.get a.bay = x := PerBay.get_set_self ..

theorem State.endedWith_armsIdle :
    (s.endedWith a u lc ob x).armsIdle a.bay = true ↔ (s.fc.get a.other).state = .idle := by
  have hself : ((s.endedWith a u lc ob x).fc.get a).state = .idle := by
    rw [State.endedWith, PerArm.get_set_self]
    rfl
  have hother : (s.endedWith a u lc ob x).fc.get a.other = s.fc.get a.other := PerArm.get_set_other ..
  simp only [State.armsIdle_iff, Arm.mem_bay_arms, forall_eq_or_imp, forall_eq, hself, hother, true_and]

theorem State.endedWith_set (y : BayController) :
    ({ s.endedWith a u lc ob x with bsc := (s.endedWith a u lc ob x).bsc.set a.bay y } : State) = s.endedWith a u lc ob y := by
  simp only [State.endedWith, PerBay.set_set]

theorem State.settleBay_endedWith :
    s.settleBay (s.endedWith a u lc ob x) a = (s.endedWith a u lc ob (s.bayLeftBy a x)).armReachedIdle a.bay := by
  rw [State.settleBay_eq rfl, State.endedWith_bay, State.endedWith_set]

/-- The inactivity timer starts where the bay's close is not pending, or its other arm is not IDLE (R87, R88). -/
theorem State.settleBay_of_loading (hst : x.status = .loading)
    (h : ¬(x.closePending = true ∧ (s.fc.get a.other).state = .idle)) :
    s.settleBay (s.endedWith a u lc ob x) a =
      s.endedWith a u lc ob
        { s.bayLeftBy a x with
          inactivityTimer := if (s.fc.get a.other).state = .idle then some 300000 else x.inactivityTimer } := by
  have hidle := State.endedWith_armsIdle (s := s) (a := a) (u := u) (lc := lc) (ob := ob) (x := s.bayLeftBy a x)
  rw [State.settleBay_endedWith]
  by_cases hlone : (s.fc.get a.other).state = .idle
  · have hopen : x.closePending = false := by simpa [hlone] using h
    rw [State.armReachedIdle_of_open (by rw [State.endedWith_bay]; exact hopen),
      if_pos ⟨hidle.mpr hlone, by rw [State.endedWith_bay]; exact hst⟩,
      State.refreshInactivity_of_signedIn (by rw [State.endedWith_bay]; exact hst ▸ rfl), if_pos (hidle.mpr hlone),
      if_pos hlone, State.endedWith_bay, State.endedWith_set]
  · rw [State.armReachedIdle_of_busy (Bool.eq_false_iff.mpr (hidle.not.mpr hlone)), if_neg hlone]
    rfl

/-- A bay that has gone to SIGNED stays as it is. -/
theorem State.settleBay_of_signed (hst : x.status = .signed) (hopen : x.closePending = false) :
    s.settleBay (s.endedWith a u lc ob x) a = s.endedWith a u lc ob (s.bayLeftBy a x) := by
  rw [State.settleBay_endedWith, State.armReachedIdle_of_open (by rw [State.endedWith_bay]; exact hopen), if_neg]
  rw [State.endedWith_bay]
  rintro ⟨-, hloading⟩
  exact absurd (hst.symm.trans hloading) (by decide)

section Closing

variable (hclose : x.closePending = true) (hlone : (s.fc.get a.other).state = .idle)
include hclose hlone

theorem State.settleBay_of_closing :
    s.settleBay (s.endedWith a u lc ob x) a = (s.endedWith a u lc ob (s.bayLeftBy a x)).closeSession a.bay .outOfService := by
  rw [State.settleBay_endedWith, State.armReachedIdle_of_closing (State.endedWith_armsIdle.mpr hlone)]
  rw [State.endedWith_bay]
  exact hclose

/-- The session closed, without an order. -/
theorem State.settleBay_of_closing_without_order (hst : x.status = .loading) (horder : x.order = none) :
    s.settleBay (s.endedWith a u lc ob x) a =
      { s.endedWith a u (lc.raised (.bayChanged a.bay)) ob
          ((s.bayLeftBy a x).closed .outOfService) with pt := u.pt.without x.driver } := by
  have hbay := State.endedWith_bay (s := s) (a := a) (u := u) (lc := lc) (ob := ob) (x := s.bayLeftBy a x)
  rw [State.settleBay_of_closing hclose hlone, State.closeSession_without_order (by rw [hbay]; exact hst ▸ by decide)
    (by rw [hbay]; exact horder), State.boundWithout_eq, hbay]
  simp only [State.endedWith, PerBay.set_set]
  rfl

/-- The session closed, with the order it lets go. -/
theorem State.settleBay_of_closing_with_order (hst : x.status = .loading) (horder : x.order = some n)
    (ho : ob.orders.find n = some o) :
    s.settleBay (s.endedWith a u lc ob x) a =
      { s.endedWith a u (lc.raised (.bayChanged a.bay)) { orders := ob.orders.put n o.letGo }
          ((s.bayLeftBy a x).closed .outOfService) with pt := u.pt.without x.driver } := by
  have hbay := State.endedWith_bay (s := s) (a := a) (u := u) (lc := lc) (ob := ob) (x := s.bayLeftBy a x)
  rw [State.settleBay_of_closing hclose hlone, State.closeSession_with_order (o := o) (by rw [hbay]; exact hst ▸ by decide)
    (by rw [hbay]; exact horder) ho, State.boundWithout_eq, hbay]
  simp only [State.endedWith, PerBay.set_set]
  rfl

end Closing

/-! ### A cancellation that completes (R72) -/

section Completes

variable (ho : ob.orders.find n = some o) (hholding : o.holding = some a.bay)
  (h : o.cancelPending = true ∧ ∀ k, ¬(s.endedWith a u lc ob x).armOnOrder n k = true)
include ho hholding h

theorem State.completeCancellation_of_open (hst : x.status = .loading) (hopen : x.closePending = false) :
    (s.endedWith a u lc ob x).completeCancellation n =
      s.endedWith a u (lc.raised (.bayChanged a.bay)) { orders := ob.orders.put n o.cancelled }
        { x with
          status := .signed, order := none, plan := [], selection := .empty
          inactivityTimer := if (s.fc.get a.other).state = .idle then some 300000 else none } := by
  rw [State.completeCancellation_of_complete (o := o) ho hholding h, State.endedWith_bay, if_neg (by simp [hopen]),
    State.takeFromSession_eq (o := o) ho (by rw [State.endedWith_bay]; exact .inr hst), State.endedWith_bay]
  simp only [State.endedWith_armsIdle]
  simp only [State.endedWith, PerBay.set_set]
  rfl

theorem State.completeCancellation_of_closing (hclose : x.closePending = true) :
    (s.endedWith a u lc ob x).completeCancellation n =
      s.endedWith a u lc { orders := ob.orders.put n o.cancelled } { x with order := none, plan := [], selection := .empty } := by
  rw [State.completeCancellation_of_complete (o := o) ho hholding h, State.endedWith_bay, if_pos hclose]
  simp only [State.dropOrder, State.modifyBay, PerBay.modify, State.endedWith, State.setOrders, PerBay.set_set,
    PerBay.get_set_self]

end Completes

end Ended

/-! ### The hand-over -/

section OnOrder

variable {lc : LinkController} {ob : OrderBook} {x : BayController} {k : Arm}

/-- The arms on an order once arm `a` is handed over (R71). -/
theorem State.armOnOrder_endedWith :
    (s.endedWith a u lc ob x).armOnOrder n k = true ↔
      k ≠ a ∧ (s.fc.get k).state ≠ .idle ∧ ∃ y, s.running.get k = some y ∧ y.flow.order = n := by
  rw [State.armOnOrder_iff, State.endedWith]
  by_cases hk : k = a
  · subst hk
    simp [FlowController.handedOver]
  · simp [PerArm.get_set_of_ne _ _ hk, hk]

theorem State.no_armOnOrder_endedWith :
    (∀ k, ¬(s.endedWith a u lc ob x).armOnOrder n k = true) ↔
      ∀ k y, k ≠ a → (s.fc.get k).state ≠ .idle → s.running.get k = some y → y.flow.order ≠ n := by
  simp only [State.armOnOrder_endedWith, not_and, not_exists]
  exact forall_congr' fun k => ⟨fun h y hk hbusy => h hk hbusy y, fun h hk hbusy y => h y hk hbusy⟩

end OnOrder

/-- The Note Store takes arm `a`'s compartment with the records, meters and entries of `u`, the compartment's end `f` and the
events' flags. -/
def State.takes (s : State) (a : Arm) (y : Running) (o : Order) (u : State) (f : Compartment → Compartment)
    (events : List FlagEvent) : Prop :=
  u = { s with wc := u.wc, nvc := u.nvc, me := u.me }
    ∧ ∃ lc, s.flagged { s with lc := lc } events
      ∧ s.takeCompartment a y =
        s.compartmentTaken a y.flow.order (o.modifyCompartment y.flow.compartment f) u lc

theorem State.takes_of_no_gross (h : y.metering.gross = 0) (ho : s.ob.orders.find y.flow.order = some o) :
    s.takes a y o s Compartment.unended [] :=
  ⟨rfl, s.lc, State.flagged_refl s, State.takeCompartment_of_no_gross h ho⟩

theorem State.takes_of_gross (h : 0 < y.metering.gross) (hreason : y.flow.endReason = some reason)
    (ho : s.ob.orders.find y.flow.order = some o) (hnote : s.handOverNote a y reason = note) :
    s.takes a y o { s.noteCommitted a note with me := s.me.set a { s.me.get a with unauthorized := 0 } }
      (fun c => c.ended reason note.gross note.net) note.events := by
  have harm : note.arm = a := by rw [← hnote]; rfl
  refine ⟨?_, (s.noted a note).lc, State.flagged_congr (v := { s with lc := (s.noted a note).lc }) ?_ rfl,
    State.takeCompartment_of_gross h hreason ho hnote⟩
  · apply State.eq_of_parts <;> simp [State.noteCommitted]
  · rw [← harm]
    exact State.flagged_noted s note

theorem State.armToIdle_of_takes {f : Compartment → Compartment} {events : List FlagEvent} (h : s.takes a y o u f events) :
    ∃ lc, s.flagged { s with lc := lc } events
      ∧ (s.takeCompartment a y).armToIdle a =
        s.endedWith a u lc { orders := s.ob.orders.put y.flow.order (o.modifyCompartment y.flow.compartment f) }
          (s.bsc.get a.bay) := by
  obtain ⟨hu, lc, hflagged, htaken⟩ := h
  refine ⟨lc, hflagged, ?_⟩
  rw [htaken, State.armToIdle_eq, hu]
  simp only [State.compartmentTaken, State.endedWith, State.channelsReleased, PerBay.set_get_self]
  rfl

theorem State.becomes_endedWith {t u' : State} {lc : LinkController} {events : List FlagEvent} (h : s.handOverReady a = true)
    (hover : s.handOver a = t) (hflagged : s.flagged { s with lc := lc } events) (hlc : t.lc = lc)
    (hu : t = { u' with lc := t.lc }) : s.becomes (exec (.handOver a) s) events u' :=
  (exec_handOver_of_ready h).trans (congrArg Host.Outcome.next hover) ▸ State.becomes_of_parts hflagged hlc hu

theorem State.flagged_raised {lc : LinkController} {events : List FlagEvent} (h : s.flagged { s with lc := lc } events)
    (e : FlagEvent) : s.flagged { s with lc := lc.raised e } (events ++ [e]) := State.flagged_raiseFlag h e

/-- A line deviates where it required something, by more permille than the tolerance, either way (R146). -/
theorem NoteLine.deviates_iff {x : NoteLine} {tolerance : Nat} :
    x.deviates tolerance = true ↔
      0 < x.required ∧ (x.deviation < -(tolerance : Int) ∨ (tolerance : Int) < x.deviation) := by
  rw [NoteLine.deviates, Bool.and_eq_true, decide_eq_true_eq, decide_eq_true_eq]
  exact and_congr_right fun _ => by omega

theorem Running.deviates_iff {w : NvRecords} {code : Nat} {x : RecipeRecord} (hcode : y.note.recipe = some code)
    (hx : w.recipes.find code = some x) :
    y.deviates w = true ↔ ∃ z ∈ y.lines, (z.noteLine y.metering.gross).deviates x.tolerance = true := by
  have htolerance : w.toleranceOf y.note.recipe = x.tolerance := by rw [hcode, NvRecords.toleranceOf, hx]
  simp [Running.deviates, Running.noteLines, htolerance]

/-- Settles O50: a hand-over that something holds changes nothing; any other ends the compartment, and with it the cancellation, the
session or the bay's wait. -/
theorem handOverEndsTheCompartment : Obligations.HandOverEndsTheCompartment := by
  refine ⟨?_, fun y w code x hcode hx =>
    (Running.deviates_iff hcode hx).trans (exists_congr fun z => and_congr_right fun _ => NoteLine.deviates_iff)⟩
  intro a s hrunning noteQueued ready
  have hready : s.handOverReady a = true ↔ ready := State.handOverReady_iff.trans (and_iff_right hrunning)
  refine ⟨fun hno => exec_handOver_of_not_ready (hready.not.mpr hno), ?_⟩
  intro y o reason hyes hy hreason ho hholding hst horder m lone completes bay put ended unbound cancelled u f events hcase
  replace hyes := hready.mpr hyes
  have htakes : s.takes a y o u f events := by
    rcases hcase with ⟨hgross, hu, hevents, hf⟩ | ⟨hgross, hu, hevents, hf⟩
    · have hunended : f = Compartment.unended :=
        hf.trans (funext fun c => by cases hbefore : c.statusBefore <;> simp [Compartment.unended, hbefore])
      rw [hu, hevents, hunended]
      exact State.takes_of_no_gross hgross ho
    · have htemperature : y.average s.wc = y.metering.weighted.tdiv y.metering.gross := if_neg hgross.ne'
      have hmade := State.takes_of_gross hgross hreason ho (s := s) (a := a) rfl
      rw [State.handOverNote, Running.toNote, htemperature, State.noteCommitted, noteNumberAfter_eq] at hmade
      rw [hu, hevents, hf]
      exact hmade
  obtain ⟨lc, hflagged, htaken⟩ := State.armToIdle_of_takes htakes
  have hover := State.handOver_of_running hy
  rw [htaken] at hover
  generalize hleft : o.modifyCompartment y.flow.compartment f = o' at hover
  have hput : put f = fun g => { orders := s.ob.orders.put y.flow.order (g o') } := by rw [← hleft]; rfl
  have hpending : o'.cancelPending = o.cancelPending := by rw [← hleft]; rfl
  have hholding' : o'.holding = some a.bay := by rw [← hleft]; exact hholding
  have hbook : (s.ob.orders.put y.flow.order o').find y.flow.order = some o' := Assoc.find_put_self ..
  have hcompletes : completes ↔ o'.cancelPending = true
      ∧ ∀ k, ¬(s.endedWith a u lc { orders := s.ob.orders.put y.flow.order o' } (s.bsc.get a.bay)).armOnOrder y.flow.order k =
        true := by
    rw [hpending, State.no_armOnOrder_endedWith]
  have hpt : u.pt = s.pt := by rw [htakes.1]
  have hraised := State.flagged_raised hflagged (.bayChanged a.bay)
  simp only [ended, hput]
  refine ⟨fun hno hstays => ?_, fun hno hclose hlone => ?_, fun hdone hopen => ?_, fun hdone hclose hlone => ?_⟩
  · rw [State.completeCancellation_of_pending_none hbook (hcompletes.not.mp hno)] at hover
    exact State.becomes_endedWith hyes (hover.trans (State.settleBay_of_loading hst hstays)) hflagged rfl rfl
  · rw [State.completeCancellation_of_pending_none hbook (hcompletes.not.mp hno)] at hover
    have hclosed := hover.trans (State.settleBay_of_closing_with_order hclose hlone hst horder hbook)
    rw [Assoc.put_put, hpt] at hclosed
    exact State.becomes_endedWith hyes hclosed hraised rfl rfl
  · rw [State.completeCancellation_of_open hbook hholding' (hcompletes.mp hdone) hst hopen, Assoc.put_put] at hover
    exact State.becomes_endedWith hyes (hover.trans (State.settleBay_of_signed rfl hopen)) hraised rfl rfl
  · rw [State.completeCancellation_of_closing hbook hholding' (hcompletes.mp hdone) hclose, Assoc.put_put] at hover
    have hclosed := hover.trans (State.settleBay_of_closing_without_order hclose hlone hst rfl)
    rw [hpt] at hclosed
    exact State.becomes_endedWith hyes hclosed hraised rfl rfl

end Sys2Proof.Machine
end

section
/-! What the laws of flow, of the dead-man timers and of the sessions speak of, and what leaves it as it is (R74, R86, R90 to R92, R111,
R112). -/

namespace Sys2Proof.Machine

-- One after the other: a thread for each of these proofs would pass the memory the check allows.
set_option Elab.async false

variable {s t u : State} {a : Arm} {b : Bay} {n : Nat} {c : StopCause}

/-! ### What the laws speak of -/

/-- An arm's course: its state, its valve command and its Stop-Cause Set. -/
def FlowController.course (x : FlowController) : ArmState × ValveCommand × List StopCause := (x.state, x.command, x.causes)

/-- A bay's watch over its flowing arms: whether the dead-man timer runs, the stage, and the alarm. -/
def BayController.watch (x : BayController) : Bool × DeadmanStage × Bool := (x.deadmanTimer.isSome, x.stage, x.alarm)

/-- A bay's session as the law of the sessions sees it: its state, its inactivity timer and its order. -/
def BayController.session (x : BayController) : BayStatus × Timer × Option Nat := (x.status, x.inactivityTimer, x.order)

/-- The order an arm's running record belongs to. -/
def State.loadedOrder (s : State) (a : Arm) : Option Nat := (s.running.get a).map fun r => r.flow.order

/-- The bay that the Order Table names as holding an order. -/
def State.holder (s : State) (n : Nat) : Option Bay := (s.ob.orders.find n).bind Order.holding

theorem State.sessionLaw_iff :
    s.sessionLaw ↔
      (∀ a, s.armIdle a = false →
        (s.bsc.get a.bay).status = .loading ∧ (s.bsc.get a.bay).inactivityTimer = none
          ∧ ∃ n, (s.bsc.get a.bay).order = some n ∧ s.loadedOrder a = some n)
      ∧ (∀ b, (s.bsc.get b).status ≠ .planning → (s.bsc.get b).status ≠ .loading → (s.bsc.get b).order = none)
      ∧ ∀ n b, s.holder n = some b → (s.bsc.get b).order = some n := by
  have hloads : ∀ a n, s.loadedOrder a = some n ↔ ∃ r, s.running.get a = some r ∧ r.flow.order = n := by
    simp [State.loadedOrder]
  have hholder : ∀ n b, s.holder n = some b ↔ ∃ o, s.ob.orders.find n = some o ∧ o.holding = some b := by
    simp [State.holder, Option.bind_eq_some_iff]
  unfold State.sessionLaw
  simp only [hloads, hholder]
  refine and_congr (forall_congr' fun a => imp_congr_right fun _ => and_congr_right fun _ => and_congr_right fun _ => ?_)
    (and_congr_right fun _ => forall_congr' fun n => ?_)
  · exact ⟨fun ⟨n, r, h, hr⟩ => ⟨n, h, r, hr⟩, fun ⟨n, h, r, hr⟩ => ⟨n, r, h, hr⟩⟩
  · exact ⟨fun h b ⟨o, ho, hb⟩ => h o b ho hb, fun h o b ho hb => h b ⟨o, ho, hb⟩⟩

/-- From `s` to `t` every arm keeps its course and its loading permissive condition, and every bay its watch. -/
structure State.SameFlow (s t : State) : Prop where
  course : ∀ a, (t.fc.get a).course = (s.fc.get a).course
  permissive : ∀ a, t.loadingPermissive a = s.loadingPermissive a
  watch : ∀ b, (t.bsc.get b).watch = (s.bsc.get b).watch

theorem State.SameFlow.trans (h : s.SameFlow t) (h' : t.SameFlow u) : s.SameFlow u where
  course := fun a => (h'.course a).trans (h.course a)
  permissive := fun a => (h'.permissive a).trans (h.permissive a)
  watch := fun b => (h'.watch b).trans (h.watch b)

theorem State.SameFlow.of_eq (fc : t.fc = s.fc := by simp) (ic : t.ic = s.ic := by simp) (bsc : t.bsc = s.bsc := by simp) :
    s.SameFlow t where
  course := by simp [fc]
  permissive := by simp [State.loadingPermissive, State.permissivesPresent, State.notParked, State.stopInactive, State.accepts, ic]
  watch := by simp [bsc]

theorem State.SameFlow.idle (h : s.SameFlow t) (a : Arm) : t.armIdle a = s.armIdle a := by
  have hstate : (t.fc.get a).state = (s.fc.get a).state := congrArg Prod.fst (h.course a)
  rw [State.armIdle, State.armIdle, hstate]

/-- From `s` to `t` every arm stays on its order, every bay in its session, and every order with the bay that holds it. -/
structure State.SameOrders (s t : State) : Prop where
  loaded : ∀ a, t.loadedOrder a = s.loadedOrder a
  session : ∀ b, (t.bsc.get b).session = (s.bsc.get b).session
  holder : ∀ n, t.holder n = s.holder n

theorem State.SameOrders.trans (h : s.SameOrders t) (h' : t.SameOrders u) : s.SameOrders u where
  loaded := fun a => (h'.loaded a).trans (h.loaded a)
  session := fun b => (h'.session b).trans (h.session b)
  holder := fun n => (h'.holder n).trans (h.holder n)

theorem State.SameOrders.of_eq (running : t.running = s.running := by simp) (bsc : t.bsc = s.bsc := by simp)
    (ob : t.ob = s.ob := by simp) : s.SameOrders t where
  loaded := by simp [State.loadedOrder, running]
  session := by simp [bsc]
  holder := by simp [State.holder, ob]

theorem State.SameOrders.refl (s : State) : s.SameOrders s := State.SameOrders.of_eq

/-! ### The laws kept -/

/-- From `s` to `t` the laws of the valves and the dead-man timers are kept, and the law of the sessions is. -/
structure State.Keeps (s t : State) : Prop where
  flow : s.flowLaw → s.deadmanLaw → t.flowLaw ∧ t.deadmanLaw
  sessions : s.sessionLaw → t.sessionLaw

theorem State.Keeps.refl (s : State) : s.Keeps s := ⟨fun hflow hdeadman => ⟨hflow, hdeadman⟩, id⟩

theorem State.Keeps.trans (h : s.Keeps t) (h' : t.Keeps u) : s.Keeps u :=
  ⟨fun hflow hdeadman => (h.flow hflow hdeadman).elim h'.flow, h'.sessions ∘ h.sessions⟩

theorem State.Keeps.ite {p : Prop} [Decidable p] (h : p → s.Keeps t) (h' : ¬p → s.Keeps u) : s.Keeps (if p then t else u) := by
  split
  · exact h (by assumption)
  · exact h' (by assumption)

theorem State.SameFlow.keeps (h : s.SameFlow t) (hflow : s.flowLaw) (hdeadman : s.deadmanLaw) : t.flowLaw ∧ t.deadmanLaw := by
  have hstate : ∀ a, (t.fc.get a).state = (s.fc.get a).state := fun a => congrArg Prod.fst (h.course a)
  have hcommand : ∀ a, (t.fc.get a).command = (s.fc.get a).command := fun a => congrArg (·.2.1) (h.course a)
  have hcauses : ∀ a, (t.fc.get a).causes = (s.fc.get a).causes := fun a => congrArg (·.2.2) (h.course a)
  have hflowing : ∀ a, t.armFlowing a = s.armFlowing a := fun a => by rw [State.armFlowing, State.armFlowing, hstate]
  have htimer : ∀ b, (t.bsc.get b).deadmanTimer.isSome = (s.bsc.get b).deadmanTimer.isSome := fun b => congrArg Prod.fst (h.watch b)
  have hstage : ∀ b, (t.bsc.get b).stage = (s.bsc.get b).stage := fun b => congrArg (·.2.1) (h.watch b)
  have halarm : ∀ b, (t.bsc.get b).alarm = (s.bsc.get b).alarm := fun b => congrArg (·.2.2) (h.watch b)
  constructor
  · intro a
    rw [hflowing, h.idle, hcommand, hcauses, h.permissive]
    exact hflow a
  · intro b
    simp only [State.bayFlowing, hflowing, htimer, hstage, halarm, hcauses]
    exact hdeadman b

theorem State.SameOrders.keeps (h : s.SameOrders t) (hidle : ∀ a, t.armIdle a = s.armIdle a) (hlaw : s.sessionLaw) :
    t.sessionLaw := by
  have hstatus : ∀ b, (t.bsc.get b).status = (s.bsc.get b).status := fun b => congrArg Prod.fst (h.session b)
  have htimer : ∀ b, (t.bsc.get b).inactivityTimer = (s.bsc.get b).inactivityTimer := fun b => congrArg (·.2.1) (h.session b)
  have horder : ∀ b, (t.bsc.get b).order = (s.bsc.get b).order := fun b => congrArg (·.2.2) (h.session b)
  rw [State.sessionLaw_iff] at hlaw ⊢
  simpa only [hidle, hstatus, htimer, horder, h.loaded, h.holder] using hlaw

theorem State.Keeps.of_same (hflow : s.SameFlow t) (horders : s.SameOrders t) : s.Keeps t :=
  ⟨hflow.keeps, horders.keeps hflow.idle⟩

/-- Blocks that are the same change nothing of what the laws speak of. -/
theorem State.Keeps.of_eq (fc : t.fc = s.fc := by simp) (ic : t.ic = s.ic := by simp) (bsc : t.bsc = s.bsc := by simp)
    (running : t.running = s.running := by simp) (ob : t.ob = s.ob := by simp) : s.Keeps t :=
  .of_same (.of_eq fc ic bsc) (.of_eq running bsc ob)

/-! ### What keeps each arm on its order -/

theorem State.loadedOrder_modifyRunning {f : Running → Running} (hf : ∀ r, (f r).flow.order = r.flow.order) (s : State) (k a : Arm) :
    (s.modifyRunning k f).loadedOrder a = s.loadedOrder a := by
  simp only [State.loadedOrder, State.modifyRunning_running, PerArm.get_modify]
  split
  · rw [Option.map_map]
    exact congrArg (Option.map · (s.running.get a)) (funext hf)
  · rfl

theorem State.SameOrders.modifyRunning (h : s.SameOrders t) (a : Arm) {f : Running → Running}
    (hf : ∀ r, (f r).flow.order = r.flow.order := by exact fun _ => rfl) : s.SameOrders (t.modifyRunning a f) :=
  h.trans { State.SameOrders.refl t with loaded := State.loadedOrder_modifyRunning hf t a }

theorem State.SameOrders.modifyBay (h : s.SameOrders t) (b : Bay) {f : BayController → BayController}
    (hf : ∀ x, (f x).session = x.session := by exact fun _ => rfl) : s.SameOrders (t.modifyBay b f) := by
  refine h.trans { State.SameOrders.refl t with session := fun x => ?_ }
  rw [State.modifyBay_bsc, PerBay.get_modify]
  split
  · exact hf _
  · rfl

theorem State.SameOrders.ite {p : Prop} [Decidable p] (h : s.SameOrders t) (h' : s.SameOrders u) :
    s.SameOrders (if p then t else u) := by split <;> assumption

theorem State.SameOrders.modifyFc (h : s.SameOrders t) (a : Arm) (f : FlowController → FlowController) :
    s.SameOrders (t.modifyFc a f) := h.trans .of_eq

theorem State.SameOrders.modifyChannel (h : s.SameOrders t) (ch : Channel) (f : ChannelState → ChannelState) :
    s.SameOrders (t.modifyChannel ch f) := h.trans .of_eq

theorem State.SameOrders.raiseFlag (h : s.SameOrders t) (e : FlagEvent) : s.SameOrders (t.raiseFlag e) := h.trans .of_eq

theorem State.SameOrders.cutShots (h : s.SameOrders t) (cut : Channel → Bool) : s.SameOrders (t.cutShots cut) := h.trans .of_eq

theorem State.SameOrders.modifyLine (h : s.SameOrders t) (ch : Channel) (f : LineRecord → LineRecord) :
    s.SameOrders (t.modifyLine ch f) := by
  unfold State.modifyLine
  split
  · exact h.modifyRunning _
  · exact h

theorem State.SameOrders.unqueue (h : s.SameOrders t) (ch : Channel) : s.SameOrders (t.unqueue ch) := by
  refine .ite (State.SameOrders.modifyChannel (State.SameOrders.modifyLine (h.trans ?_) _ _) _ _) h
  exact .of_eq rfl rfl rfl

theorem State.SameOrders.emptyQueues (h : s.SameOrders t) : s.SameOrders t.emptyQueues := by
  unfold State.emptyQueues
  generalize Channel.all = channels
  induction channels generalizing t with
  | nil => exact h
  | cons ch rest ih => exact ih (h.unqueue ch)

theorem State.SameOrders.flowLeft (h : s.SameOrders t) (a : Arm) : s.SameOrders (t.flowLeft a) :=
  ((h.unqueue _).unqueue _).modifyBay _ fun x => by split <;> rfl

theorem State.SameOrders.setEndReason (h : s.SameOrders t) (a : Arm) (r : EndReason) : s.SameOrders (t.setEndReason a r) :=
  h.modifyRunning a

theorem State.SameOrders.enterClosing (h : s.SameOrders t) (a : Arm) (r : EndReason) : s.SameOrders (t.enterClosing a r) :=
  .ite (((h.modifyFc a _).setEndReason a r).flowLeft a) ((h.modifyFc a _).setEndReason a r)

theorem State.SameOrders.enterPaused (h : s.SameOrders t) (a : Arm) : s.SameOrders (t.enterPaused a) :=
  (h.modifyFc a _).flowLeft a

theorem State.SameOrders.enterEnding (h : s.SameOrders t) (a : Arm) : s.SameOrders (t.enterEnding a) := h.trans .of_eq

theorem State.SameOrders.raiseCause (h : s.SameOrders t) (a : Arm) (c : StopCause) : s.SameOrders (t.raiseCause a c) := by
  have hjoined : s.SameOrders (((t.modifyFc a fun y => { y with causes := joinCause c y.causes }).raiseFlag
      (.causeRaised a)).cutShots fun k => k.arm = a) := ((h.modifyFc a _).raiseFlag _).cutShots _
  unfold State.raiseCause
  refine .ite h ?_
  dsimp only
  split
  case h_1 | h_2 | h_3 | h_4 => exact hjoined.enterClosing a _
  case h_5 | h_6 | h_7 => exact hjoined.enterPaused a
  case h_8 => exact hjoined

theorem State.SameOrders.raiseOn (h : s.SameOrders t) (arms : List Arm) (c : StopCause) : s.SameOrders (t.raiseOn arms c) := by
  unfold State.raiseOn
  induction arms generalizing t with
  | nil => exact h
  | cons a rest ih => exact ih (h.raiseCause a c)

theorem State.SameOrders.enterFlow (h : s.SameOrders t) (a : Arm) (st : ArmState) : s.SameOrders (t.enterFlow a st) :=
  .ite (h.modifyFc a _) ((h.modifyFc a _).modifyBay _)

theorem State.SameOrders.enterStage (h : s.SameOrders t) (a : Arm) (stage : Stage) : s.SameOrders (t.enterStage a stage) := by
  cases stage
  case closing => exact h.enterClosing a _
  all_goals exact h.enterFlow a _

theorem State.SameOrders.joinQueue (h : s.SameOrders t) (ch : Channel) : s.SameOrders (t.joinQueue ch) := h.trans .of_eq

theorem State.SameOrders.paceLines (h : s.SameOrders t) (g : Nat) (lines : List LineRecord) :
    s.SameOrders (t.paceLines g lines).1 := by
  induction lines generalizing t with
  | nil => exact h
  | cons x rest ih =>
    refine ih ?_
    have howed : s.SameOrders (t.modifyChannel x.channel fun k =>
        { k with owed := dueShots g x.dose (t.wc.injectors.get x.channel).shotVolume - x.requested }) := h.modifyChannel _ _
    unfold State.paceLine
    split
    · exact h
    · exact .ite (((howed.modifyLine _ _).modifyChannel _ _).joinQueue _) howed

theorem State.SameOrders.pace (h : s.SameOrders t) (a : Arm) : s.SameOrders (t.pace a).1 := by
  unfold State.pace
  repeat' split
  · exact h.paceLines _ _
  all_goals exact h

theorem State.SameOrders.credit (h : s.SameOrders t) (a : Arm) (r : MeterResult) : s.SameOrders (t.credit a r) := by
  have hchannel : s.SameOrders (t.setMe a r.channel) := h.trans .of_eq
  unfold State.credit
  dsimp only
  repeat' split
  · exact (hchannel.modifyRunning a).raiseFlag _
  · exact hchannel.raiseFlag _
  · exact hchannel.modifyRunning a
  · exact hchannel

end Sys2Proof.Machine
end

section
/-! The arms' flow, step by step: raised causes, stages, endings and the dead-man timer keep the laws of the valves and of the dead-man
timers, and no arm leaves or takes up an order by them (R90 to R92, R111 to R121). -/

namespace Sys2Proof.Machine

-- One after the other: a thread for each of these proofs would pass the memory the check allows.
set_option Elab.async false

variable {s t u : State} {a : Arm} {b : Bay} {n : Nat} {c : StopCause} {x : FlowController} {arms : List Arm}

/-! ### One arm moved -/

theorem Bay.any_congr {p q : Arm → Bool} (h : ∀ k ∈ b.arms, p k = q k) : b.arms.any p = b.arms.any q := by
  cases b <;> simp_all [Bay.arms]

/-- The law of the valves with the loading permissive condition left open for the arms named: those that a lost permissive is about to
stop (R111, R122). -/
def State.flowLawBut (s : State) (arms : List Arm) : Prop :=
  ∀ a, (s.armFlowing a = false → (s.fc.get a).command = .close)
    ∧ ((s.armFlowing a = true ∨ s.armIdle a = true) → (s.fc.get a).causes = [])
    ∧ (s.armFlowing a = true → a ∉ arms → s.loadingPermissive a = true)

theorem State.flowLawBut_nil : s.flowLawBut [] ↔ s.flowLaw := by simp [State.flowLawBut, State.flowLaw]

theorem State.flowLawBut.mono (h : s.flowLawBut arms) {arms' : List Arm} (hsub : arms ⊆ arms') : s.flowLawBut arms' := fun a =>
  have ⟨hclose, hempty, hpermissive⟩ := h a
  ⟨hclose, hempty, fun hf ha => hpermissive hf fun hmem => ha (hsub hmem)⟩

theorem State.loadingPermissive_of_ic (h : t.ic = s.ic) (a : Arm) : t.loadingPermissive a = s.loadingPermissive a := by
  simp only [State.loadingPermissive, State.permissivesPresent, State.notParked, State.stopInactive, State.accepts, h]

theorem State.armFlowing_of_set (hfc : t.fc = s.fc.set a x) (k : Arm) :
    t.armFlowing k = if k = a then x.state.flowing else s.armFlowing k := by
  rw [State.armFlowing, hfc, PerArm.get_set]
  split <;> rfl

theorem State.armIdle_of_set (hfc : t.fc = s.fc.set a x) (k : Arm) :
    t.armIdle k = if k = a then decide (x.state = .idle) else s.armIdle k := by
  rw [State.armIdle, hfc, PerArm.get_set]
  split <;> rfl

/-- One arm moved to a course that meets the law of the valves: the others keep to it. -/
theorem State.flowLawBut_of_set (h : s.flowLawBut (a :: arms)) (hfc : t.fc = s.fc.set a x) (hic : t.ic = s.ic)
    (hclose : x.state.flowing = false → x.command = .close)
    (hempty : x.state.flowing = true ∨ x.state = .idle → x.causes = [])
    (hpermissive : x.state.flowing = true → s.loadingPermissive a = true) : t.flowLawBut arms := by
  intro k
  rw [State.armFlowing_of_set hfc, State.armIdle_of_set hfc, State.loadingPermissive_of_ic hic, hfc, PerArm.get_set]
  by_cases hk : k = a
  · subst hk
    simpa using ⟨hclose, hempty, fun hf _ => hpermissive hf⟩
  · obtain ⟨hc, he, hp⟩ := h k
    simpa [hk] using ⟨hc, he, fun hf ha => hp hf (by simp [hk, ha])⟩

/-- The bays that one arm's move leaves with the watch they had, or as the arm's entry or leaving of flow makes it (R90). -/
theorem State.deadmanLaw_of_set (h : s.deadmanLaw) (hfc : t.fc = s.fc.set a x)
    (hbsc : t.bsc = if s.armFlowing a = x.state.flowing then s.bsc
      else if x.state.flowing then s.deadmanStarted a else s.deadmanLeft a)
    (hcauses : x.causes.contains .deadman = (s.fc.get a).causes.contains .deadman) : t.deadmanLaw := by
  intro b
  by_cases hb : b = a.bay
  · subst hb
    obtain ⟨htimer, hstage, halarm⟩ := h a.bay
    have hself : t.armFlowing a = x.state.flowing := by rw [State.armFlowing_of_set hfc, if_pos rfl]
    have hother : t.armFlowing a.other = s.armFlowing a.other := by rw [State.armFlowing_of_set hfc, if_neg (Arm.other_ne a)]
    simp only [State.bayFlowing, Arm.any_bay_arms, hself, hother, hfc, PerArm.get_set_self, PerArm.get_set_other, hcauses]
      at htimer hstage halarm ⊢
    rw [hbsc]
    split
    case isTrue hsame =>
      rw [← hsame]
      exact ⟨htimer, hstage, halarm⟩
    case isFalse hmoved =>
      split
      case isTrue hflows =>
        have hwas : s.armFlowing a = false := by simpa [hflows] using hmoved
        have hotherState : (s.fc.get a.other).state.flowing = s.armFlowing a.other := rfl
        cases ho : s.armFlowing a.other <;>
          simp_all [State.deadmanStarted]
      case isFalse hstops =>
        have hwas : s.armFlowing a = true := by simpa [hstops] using hmoved
        have hotherState : (s.fc.get a.other).state.flowing = s.armFlowing a.other := rfl
        cases ho : s.armFlowing a.other <;>
          simp_all [State.deadmanLeft]
  · have hne : ∀ k ∈ b.arms, k ≠ a := by
      rintro k hk rfl
      exact hb (Bay.mem_arms_iff.mp hk).symm
    have hflowing : t.bayFlowing b = s.bayFlowing b :=
      Bay.any_congr fun k hk => by rw [State.armFlowing_of_set hfc, if_neg (hne k hk)]
    have hheld : (b.arms.any fun k => (t.fc.get k).causes.contains .deadman) =
        b.arms.any fun k => (s.fc.get k).causes.contains .deadman :=
      Bay.any_congr fun k hk => by rw [hfc, PerArm.get_set_of_ne _ _ (hne k hk)]
    have hsame : t.bsc.get b = s.bsc.get b := by
      rw [hbsc]
      split
      · rfl
      · split
        · unfold State.deadmanStarted
          split
          · rfl
          · exact PerBay.get_set_of_ne _ _ hb
        · exact PerBay.get_set_of_ne _ _ hb
    rw [hflowing, hheld, hsame]
    exact h b

/-- One arm moved, from a law that leaves its permissive open to one that does not. -/
theorem State.flowLaws_of_set (hflow : s.flowLawBut (a :: arms)) (hdeadman : s.deadmanLaw) (hfc : t.fc = s.fc.set a x)
    (hic : t.ic = s.ic)
    (hbsc : t.bsc = if s.armFlowing a = x.state.flowing then s.bsc
      else if x.state.flowing then s.deadmanStarted a else s.deadmanLeft a)
    (hclose : x.state.flowing = false → x.command = .close)
    (hempty : x.state.flowing = true ∨ x.state = .idle → x.causes = [])
    (hpermissive : x.state.flowing = true → s.loadingPermissive a = true)
    (hcauses : x.causes.contains .deadman = (s.fc.get a).causes.contains .deadman) :
    t.flowLawBut arms ∧ t.deadmanLaw :=
  ⟨State.flowLawBut_of_set hflow hfc hic hclose hempty hpermissive, State.deadmanLaw_of_set hdeadman hfc hbsc hcauses⟩

/-! ### A cause raised (R121) -/

theorem State.contains_joinCause_of_ne {d : StopCause} (h : c ≠ d) (l : List StopCause) :
    (joinCause c l).contains d = l.contains d := by
  rw [Bool.eq_iff_iff, List.contains_iff_mem, List.contains_iff_mem, mem_joinCause]
  exact or_iff_right h.symm

theorem State.enterClosing_moves (s : State) (a : Arm) (r : EndReason) :
    ∃ x : FlowController, (s.enterClosing a r).fc = s.fc.set a x ∧ x.state = .closing ∧ x.command = .close
      ∧ x.causes = (s.fc.get a).causes ∧ (s.enterClosing a r).bsc = if s.armFlowing a then s.deadmanLeft a else s.bsc := by
  cases hf : s.armFlowing a
  · rw [State.enterClosing_of_not_flowing s a r hf]
    exact ⟨_, rfl, rfl, rfl, rfl, by simp⟩
  · rw [State.enterClosing_of_flowing s a r hf]
    exact ⟨_, rfl, rfl, rfl, rfl, rfl⟩

theorem State.deadmanLeft_congr (hbsc : t.bsc = s.bsc) (hother : t.fc.get a.other = s.fc.get a.other) :
    t.deadmanLeft a = s.deadmanLeft a := by
  rw [State.deadmanLeft, State.deadmanLeft, hbsc, hother]

/-- What a cause that joins a set makes of its arm: a flowing arm stops, its bay told, and any other keeps its course but for the cause,
or closes. -/
theorem State.raiseCause_moves (hne : (s.fc.get a).state ≠ .idle) (hnew : c ∉ (s.fc.get a).causes) :
    ∃ x : FlowController, (s.raiseCause a c).fc = s.fc.set a x ∧ x.state ≠ .idle ∧ x.state.flowing = false
      ∧ (x.command = .close ∨ s.armFlowing a = false ∧ x.command = (s.fc.get a).command)
      ∧ x.causes = joinCause c (s.fc.get a).causes
      ∧ (s.raiseCause a c).bsc = if s.armFlowing a then s.deadmanLeft a else s.bsc := by
  have hclosing : ∀ (v : State) (y : FlowController) (r : EndReason), v.fc = s.fc.set a y → y.state = (s.fc.get a).state →
      y.causes = joinCause c (s.fc.get a).causes → v.bsc = s.bsc →
      ∃ x : FlowController, (v.enterClosing a r).fc = s.fc.set a x ∧ x.state ≠ .idle ∧ x.state.flowing = false
        ∧ (x.command = .close ∨ s.armFlowing a = false ∧ x.command = (s.fc.get a).command)
        ∧ x.causes = joinCause c (s.fc.get a).causes
        ∧ (v.enterClosing a r).bsc = if s.armFlowing a then s.deadmanLeft a else s.bsc := by
    intro v y r hv hy hcauses hbsc
    obtain ⟨x, hfc, hstate, hcommand, hkept, hbay⟩ := v.enterClosing_moves a r
    refine ⟨x, ?_, by rw [hstate]; decide, by rw [hstate]; rfl, .inl hcommand, ?_, ?_⟩
    · rw [hfc, hv, PerArm.set_set]
    · rw [hkept, hv, PerArm.get_set_self, hcauses]
    · rw [hbay, State.armFlowing_of_set hv, if_pos rfl, hy, State.deadmanLeft_congr hbsc (by rw [hv, PerArm.get_set_other]), hbsc]
      rfl
  rw [State.raiseCause_eq hne hnew]
  split
  case h_1 | h_2 | h_3 | h_4 => exact hclosing _ { s.fc.get a with causes := joinCause c (s.fc.get a).causes } _ rfl rfl rfl (by simp)
  case h_5 | h_6 | h_7 =>
    rename_i hst _
    have hf : s.armFlowing a = true := by rw [State.armFlowing, hst]; rfl
    rw [State.enterPaused_eq]
    refine ⟨_, PerArm.set_set .., by simp, rfl, .inl rfl, by simp, ?_⟩
    rw [hf]
    exact State.deadmanLeft_congr (by simp) (by simp)
  case h_8 hlow hhigh htop hpaused hlow' hhigh' htop' =>
    have hf : s.armFlowing a = false := by
      unfold State.armFlowing
      cases hst : (s.fc.get a).state <;> cases hr : c.endReason <;> simp_all [ArmState.flowing]
    refine ⟨_, rfl, hne, hf, .inr ⟨hf, rfl⟩, rfl, ?_⟩
    rw [hf]
    simp

/-- A cause other than DEADMAN raised on an arm keeps the laws, and stops the arm where its permissive is lost. -/
theorem State.flowLaws_raiseCause (hflow : s.flowLawBut (a :: arms)) (hdeadman : s.deadmanLaw) (hc : c ≠ .deadman) :
    (s.raiseCause a c).flowLawBut arms ∧ (s.raiseCause a c).deadmanLaw := by
  obtain ⟨hclose, hempty, -⟩ := hflow a
  by_cases hheld : (s.fc.get a).state = .idle ∨ c ∈ (s.fc.get a).causes
  · rw [State.raiseCause_of_held hheld]
    have hstill : s.armFlowing a = false := by
      rcases hheld with hidle | hmem
      · rw [State.armFlowing, hidle]; rfl
      · by_contra hf
        rw [hempty (.inl (by simpa using hf))] at hmem
        exact absurd hmem (by simp)
    refine ⟨fun k => ?_, hdeadman⟩
    obtain ⟨hc, he, hp⟩ := hflow k
    refine ⟨hc, he, fun hf hk => hp hf ?_⟩
    have hka : k ≠ a := by rintro rfl; simp [hstill] at hf
    simp [hka, hk]
  · rw [not_or] at hheld
    obtain ⟨x, hfc, hne, hstops, hcommand, hcauses, hbsc⟩ := State.raiseCause_moves hheld.1 hheld.2
    refine State.flowLaws_of_set hflow hdeadman hfc (by simp) ?_ (fun _ => ?_) ?_ ?_ ?_
    · rw [hbsc, hstops]
      cases s.armFlowing a <;> rfl
    · rcases hcommand with h | ⟨hf, h⟩
      · exact h
      · exact h.trans (hclose hf)
    · simp [hstops, hne]
    · simp [hstops]
    · rw [hcauses, State.contains_joinCause_of_ne hc]

theorem State.raiseCause_idle (s : State) (a : Arm) (c : StopCause) (k : Arm) : (s.raiseCause a c).armIdle k = s.armIdle k := by
  by_cases hheld : (s.fc.get a).state = .idle ∨ c ∈ (s.fc.get a).causes
  · rw [State.raiseCause_of_held hheld]
  · rw [not_or] at hheld
    obtain ⟨x, hfc, hne, -⟩ := State.raiseCause_moves hheld.1 hheld.2
    rw [State.armIdle_of_set hfc]
    split
    case isTrue hk => subst hk; simp [State.armIdle, hne, hheld.1]
    case isFalse => rfl

theorem State.raiseOn_idle (s : State) (arms : List Arm) (c : StopCause) (k : Arm) :
    (s.raiseOn arms c).armIdle k = s.armIdle k := by
  unfold State.raiseOn
  induction arms generalizing s with
  | nil => rfl
  | cons a rest ih => exact (ih _).trans (s.raiseCause_idle a c k)

/-- A cause other than DEADMAN raised on several arms stops those whose permissive is lost. -/
theorem State.flowLaws_raiseOn (hflow : s.flowLawBut arms) (hdeadman : s.deadmanLaw) (hc : c ≠ .deadman) :
    (s.raiseOn arms c).flowLaw ∧ (s.raiseOn arms c).deadmanLaw := by
  induction arms generalizing s with
  | nil => exact ⟨State.flowLawBut_nil.mp hflow, hdeadman⟩
  | cons a rest ih =>
    obtain ⟨hf, hd⟩ := State.flowLaws_raiseCause hflow hdeadman hc
    exact ih hf hd

theorem State.Keeps.raiseOn (h : s.Keeps t) (arms : List Arm) (hc : c ≠ .deadman) : s.Keeps (t.raiseOn arms c) := by
  refine h.trans ⟨fun hflow hdeadman => ?_, ((State.SameOrders.refl t).raiseOn arms c).keeps (t.raiseOn_idle arms c)⟩
  exact State.flowLaws_raiseOn ((State.flowLawBut_nil.mpr hflow).mono (by simp)) hdeadman hc

theorem State.Keeps.raiseCause (h : s.Keeps t) (a : Arm) (hc : c ≠ .deadman) : s.Keeps (t.raiseCause a c) :=
  h.raiseOn [a] hc

theorem State.Keeps.raiseCauses (h : s.Keeps t) (a : Arm) {causes : List StopCause} (hc : StopCause.deadman ∉ causes) :
    s.Keeps (t.raiseCauses a causes) := by
  unfold State.raiseCauses
  induction causes generalizing t with
  | nil => exact h
  | cons c rest ih =>
    rw [List.mem_cons, not_or] at hc
    exact ih (h.raiseCause a (Ne.symm hc.1)) hc.2

/-! ### Stages and endings (R115 to R119) -/

/-- One arm moved without becoming IDLE or leaving it, its order and its bay's session the same. -/
theorem State.Keeps.of_set (hfc : t.fc = s.fc.set a x) (hic : t.ic = s.ic) (horders : s.SameOrders t)
    (hidle : x.state = .idle ↔ (s.fc.get a).state = .idle)
    (hbsc : t.bsc = if s.armFlowing a = x.state.flowing then s.bsc
      else if x.state.flowing then s.deadmanStarted a else s.deadmanLeft a)
    (hclose : x.state.flowing = false → x.command = .close)
    (hcauses : x.causes = (s.fc.get a).causes)
    (hempty : x.state.flowing = true → (s.fc.get a).causes = [] ∨ s.armFlowing a = true)
    (hpermissive : x.state.flowing = true → s.loadingPermissive a = true ∨ s.armFlowing a = true) : s.Keeps t := by
  refine ⟨fun hflow hdeadman => ?_, horders.keeps fun k => ?_⟩
  · rw [← State.flowLawBut_nil (s := t)]
    obtain ⟨-, hnone, hpresent⟩ := hflow a
    refine State.flowLaws_of_set ((State.flowLawBut_nil.mpr hflow).mono (by simp)) hdeadman hfc hic hbsc hclose ?_ ?_ (by rw [hcauses])
    · rw [hcauses]
      rintro (h | h)
      · exact (hempty h).elim id fun hf => hnone (.inl hf)
      · exact hnone (.inr (decide_eq_true (hidle.mp h)))
    · exact fun h => (hpermissive h).elim id hpresent
  · rw [State.armIdle_of_set hfc]
    split
    case isTrue hk => subst hk; simp [State.armIdle, hidle]
    case isFalse => rfl

theorem State.keeps_enterClosing (s : State) (a : Arm) (r : EndReason) (hne : (s.fc.get a).state ≠ .idle) :
    s.Keeps (s.enterClosing a r) := by
  obtain ⟨x, hfc, hstate, hcommand, hcauses, hbsc⟩ := s.enterClosing_moves a r
  refine .of_set hfc (by simp) ((State.SameOrders.refl s).enterClosing a r) (by simp [hstate, hne]) ?_ (fun _ => hcommand) hcauses
    (by simp [hstate, ArmState.flowing]) (by simp [hstate, ArmState.flowing])
  rw [hbsc, hstate]
  cases s.armFlowing a <;> rfl

theorem State.Keeps.enterEnding (h : s.Keeps t) (a : Arm) (hne : (t.fc.get a).state ≠ .idle) (hstill : t.armFlowing a = false) :
    s.Keeps (t.enterEnding a) := by
  have hfc : (t.enterEnding a).fc = t.fc.set a
      { t.fc.get a with state := .ending, command := .close, closingTimer := none, noFlowTimer := none, pauseTimer := none } := by
    unfold State.enterEnding
    dsimp only
    split <;> rfl
  refine h.trans (.of_set hfc (by simp) ((State.SameOrders.refl t).enterEnding a) (by simp [hne]) ?_ (fun _ => rfl) rfl
    (by simp [ArmState.flowing]) (by simp [ArmState.flowing]))
  rw [hstill]
  exact State.enterEnding_bsc ..

theorem State.keeps_stageArm (s : State) (a : Arm) : s.Keeps (s.stageArm a) := by
  unfold State.stageArm
  split
  case h_2 => exact .refl s
  case h_1 now r hnow hr =>
    have hf : s.armFlowing a = true := by
      unfold State.armFlowing
      cases hst : (s.fc.get a).state <;> simp_all [ArmState.stage, ArmState.flowing]
    have hne : (s.fc.get a).state ≠ .idle := by
      intro h
      simp [h, ArmState.stage] at hnow
    have hmove : ∀ st : ArmState, st.flowing = true → s.Keeps (s.modifyFc a fun x => { x with state := st }) := by
      intro st hst
      refine .of_set (x := { s.fc.get a with state := st }) rfl rfl .of_eq ?_ ?_ (by simp [hst]) rfl (by simp [hf]) (by simp [hf])
      · refine iff_of_false ?_ hne
        rintro rfl
        simp [ArmState.flowing] at hst
      · simp [hf, hst]
    dsimp only
    refine .ite (fun _ => ?_) fun _ => .refl s
    split
    · exact s.keeps_enterClosing a _ hne
    all_goals
      rename_i hst
      exact hmove _ (by rw [hst]; rfl)

theorem State.Keeps.regulateArm (h : s.Keeps t) (a : Arm) (n : Nat) (hf : t.armFlowing a = true) : s.Keeps (t.regulateArm a n) := by
  have hsame : ∀ y : FlowController, y.state = (t.fc.get a).state → y.state.flowing = true := by
    intro y hy
    rw [hy]
    exact hf
  refine h.trans (.of_set (x := _) rfl (by simp) .of_eq (by rfl) ?_ ?_ rfl (by simp [hf]) (by simp [hf]))
  · simp only [hsame _ rfl, hf]
    exact State.regulateArm_bsc ..
  · simp [hsame _ rfl]

/-- A change of an arm's Flow Controller that keeps its course. -/
theorem State.Keeps.modifyFc (h : s.Keeps t) (a : Arm) {f : FlowController → FlowController}
    (hf : ∀ x, (f x).course = x.course := by exact fun _ => rfl) : s.Keeps (t.modifyFc a f) := by
  refine h.trans (.of_same ⟨fun k => ?_, State.loadingPermissive_of_ic rfl, fun _ => rfl⟩ .of_eq)
  rw [State.modifyFc_fc, PerArm.get_modify]
  split
  · exact hf _
  · rfl

theorem State.Keeps.modifyRunning (h : s.Keeps t) (a : Arm) {f : Running → Running}
    (hf : ∀ r, (f r).flow.order = r.flow.order := by exact fun _ => rfl) : s.Keeps (t.modifyRunning a f) :=
  h.trans (.of_same .of_eq ((State.SameOrders.refl t).modifyRunning a hf))

theorem State.Keeps.raiseFlag (h : s.Keeps t) (e : FlagEvent) : s.Keeps (t.raiseFlag e) := h.trans .of_eq

theorem State.Keeps.endPaused (h : s.Keeps t) (a : Arm) (r : EndReason) (hpaused : (t.fc.get a).state = .paused) :
    s.Keeps ((t.setEndReason a r).enterEnding a) := by
  refine State.Keeps.enterEnding (h.modifyRunning a) a ?_ ?_
  · rw [State.modifyRunning_fc, hpaused]
    decide
  · rw [State.armFlowing, State.modifyRunning_fc, hpaused]
    rfl

theorem State.Keeps.endClosing (h : s.Keeps t) (a : Arm) (hclosing : (t.fc.get a).state = .closing) :
    s.Keeps (t.endClosing a) := by
  have hending : ∀ u : State, s.Keeps u → (u.fc.get a).state = .closing → s.Keeps (u.enterEnding a) := fun u hu hst =>
    hu.enterEnding a (by rw [hst]; decide) (by rw [State.armFlowing, hst]; rfl)
  unfold State.endClosing
  split
  case h_2 => exact hending t h hclosing
  case h_1 =>
    dsimp only
    refine hending _ (.ite (fun _ => State.Keeps.modifyFc ?_ a) fun _ => ?_) ?_
    · exact .ite (fun _ => (h.modifyRunning a).raiseFlag _) fun _ => h
    · exact .ite (fun _ => (h.modifyRunning a).raiseFlag _) fun _ => h
    · repeat' split
      all_goals simpa using hclosing

theorem State.raiseCause_closing (s : State) (a : Arm) (c : StopCause) (h : (s.fc.get a).state = .closing) :
    ((s.raiseCause a c).fc.get a).state = .closing := by
  by_cases hheld : (s.fc.get a).state = .idle ∨ c ∈ (s.fc.get a).causes
  · rwa [State.raiseCause_of_held hheld]
  · rw [not_or] at hheld
    rw [State.raiseCause_eq hheld.1 hheld.2, h]
    simpa using h

theorem State.raiseCauses_closing (s : State) (a : Arm) (causes : List StopCause) (h : (s.fc.get a).state = .closing) :
    ((s.raiseCauses a causes).fc.get a).state = .closing := by
  unfold State.raiseCauses
  induction causes generalizing s with
  | nil => exact h
  | cons c rest ih => exact ih _ (s.raiseCause_closing a c h)

theorem State.Keeps.flowInterval (h : s.Keeps t) (a : Arm) (n : Nat) {causes : List StopCause}
    (hc : StopCause.deadman ∉ causes) : s.Keeps (t.flowInterval a n causes) := by
  have hraised := h.raiseCauses a hc
  have hstaged := hraised.trans ((t.raiseCauses a causes).keeps_stageArm a)
  unfold State.flowInterval
  split
  case h_1 => exact h
  case h_2 | h_3 | h_4 => exact .ite (fun hf => hstaged.regulateArm a n hf) fun _ => hstaged
  case h_5 hst =>
    have hclosing := t.raiseCauses_closing a causes hst
    exact .ite (fun _ => (hraised.modifyFc a).endClosing a (by simpa using hclosing)) fun _ => hraised.modifyFc a
  case h_6 | h_7 => exact hraised

end Sys2Proof.Machine
end

section
/-! The dead-man timer's expiry and press, causes acknowledged, and an arm's entry into flow keep the laws (R84, R90 to R92, R115, R116,
R122 to R126). -/

namespace Sys2Proof.Machine

-- One after the other: a thread for each of these proofs would pass the memory the check allows.
set_option Elab.async false

variable {s t u : State} {a : Arm} {b : Bay} {n : Nat} {c : StopCause} {x : FlowController} {arms : List Arm}

/-! ### The dead-man timer (R91, R92) -/

/-- A bay's watch changed while one of its arms flows: the timer runs on, and the alarm stays. -/
theorem State.Keeps.watch (h : s.Keeps t) (b : Bay) {f : BayController → BayController} (hflows : t.deadmanLaw → t.bayFlowing b = true)
    (hf : ∀ x, (f x).deadmanTimer.isSome = true ∧ (f x).alarm = x.alarm ∧ (f x).session = x.session :=
      by exact fun _ => ⟨rfl, rfl, rfl⟩) : s.Keeps (t.modifyBay b f) := by
  refine h.trans ⟨fun hflow hdeadman => ⟨hflow, fun k => ?_⟩,
    ((State.SameOrders.refl t).modifyBay b fun x => (hf x).2.2).keeps fun _ => rfl⟩
  obtain ⟨-, -, halarm⟩ := hdeadman k
  have hsame : (t.modifyBay b f).bayFlowing k = t.bayFlowing k := rfl
  rw [hsame, State.modifyBay_bsc, PerBay.get_modify]
  split
  case isTrue hk =>
    subst hk
    obtain ⟨htimer, hkept, -⟩ := hf (t.bsc.get k)
    exact ⟨htimer.trans (hflows hdeadman).symm, fun _ => hflows hdeadman, hkept.trans halarm⟩
  case isFalse => exact hdeadman k

theorem State.Keeps.deadmanPress (h : s.Keeps t) (b : Bay) : s.Keeps (t.deadmanPress b) :=
  .ite (fun hflows => h.watch b fun _ => hflows) fun _ => h

/-- DEADMAN raised keeps the law of the valves, and stops a flowing arm. -/
theorem State.flowLaw_raiseDeadman (h : s.flowLaw) (a : Arm) :
    (s.raiseCause a .deadman).flowLaw ∧ (s.raiseCause a .deadman).armFlowing a = false := by
  obtain ⟨hclose, hempty, -⟩ := h a
  by_cases hheld : (s.fc.get a).state = .idle ∨ .deadman ∈ (s.fc.get a).causes
  · rw [State.raiseCause_of_held hheld]
    refine ⟨h, ?_⟩
    rcases hheld with hidle | hmem
    · rw [State.armFlowing, hidle]; rfl
    · by_contra hf
      rw [hempty (.inl (by simpa using hf))] at hmem
      exact absurd hmem (by simp)
  · rw [not_or] at hheld
    obtain ⟨x, hfc, hne, hstops, hcommand, -, -⟩ := State.raiseCause_moves hheld.1 hheld.2
    refine ⟨?_, by rw [State.armFlowing_of_set hfc, if_pos rfl, hstops]⟩
    rw [← State.flowLawBut_nil]
    refine State.flowLawBut_of_set ((State.flowLawBut_nil.mpr h).mono (by simp)) hfc (by simp) (fun _ => ?_) ?_ ?_
    · rcases hcommand with h | ⟨hf, h⟩
      · exact h
      · exact h.trans (hclose hf)
    · simp [hstops, hne]
    · simp [hstops]

theorem State.flowLaw_raiseOnDeadman (h : s.flowLaw) (arms : List Arm) : (s.raiseOn arms .deadman).flowLaw := by
  unfold State.raiseOn
  induction arms generalizing s with
  | nil => exact h
  | cons a rest ih => exact ih (State.flowLaw_raiseDeadman h a).1

/-- After DEADMAN raised on arms that are not IDLE, none of them flows and each holds it; the other arms stay. -/
theorem State.raiseOnDeadman_arms (h : s.flowLaw) (hnd : arms.Nodup) (hbusy : ∀ k ∈ arms, s.armIdle k = false) (k : Arm) :
    (k ∈ arms → (s.raiseOn arms .deadman).armFlowing k = false
      ∧ ((s.raiseOn arms .deadman).fc.get k).causes.contains .deadman = true)
    ∧ (k ∉ arms → (s.raiseOn arms .deadman).fc.get k = s.fc.get k) := by
  obtain ⟨hothers, hnamed, -⟩ := State.raiseOn_arms arms hnd .deadman s
  refine ⟨fun hk => ?_, fun hk => (hothers k hk).1⟩
  obtain ⟨u, hu, -, -, hraised, -⟩ := hnamed k hk
  have hne := State.armIdle_eq_false_iff.mp (hbusy k hk)
  have hstill : (u.raiseCause k .deadman).armFlowing k = false := by
    by_cases hst : (u.fc.get k).state ∈ [ArmState.lowStart, .highFlow, .topOff]
    · have hnew : .deadman ∉ (u.fc.get k).causes := by
        obtain ⟨-, hempty, -⟩ := h k
        rw [hu, hempty (.inl (State.armFlowing_iff.mpr (hu ▸ hst)))]
        simp
      rw [State.armFlowing, (State.raiseCause_resumable u k .deadman rfl hst hnew).1]
      rfl
    · rw [State.armFlowing, (State.raiseCause_still rfl hst).1]
      exact Bool.eq_false_iff.mpr fun hf => hst (State.armFlowing_iff.mp hf)
  rw [State.armFlowing, hraised]
  exact ⟨hstill, List.contains_iff_mem.mpr (u.mem_raiseCause k .deadman (by rwa [hu]))⟩

/-- The part as an expiry in WARNING tells bay `b`: the alarm set, the stage QUIET, the timer stopped (R91). -/
def State.deadmanTold (s : State) (b : Bay) : State :=
  s.modifyBay b fun y => { y with stage := .quiet, alarm := true, deadmanTimer := none, leftInWarning := [] }

/-- The arms an expiry in WARNING meets: those of its bay that flow, or whose leaving it overtakes (R91). -/
def State.deadmanHit (s : State) (x : DeadmanExpiry) : List Arm := x.bay.arms.filter fun k => s.armFlowing k || s.overtaken x k

theorem State.deadmanStop_eq (s : State) (x : DeadmanExpiry) :
    s.deadmanStop x = (s.deadmanTold x.bay).raiseOn (s.deadmanHit x) .deadman := rfl

theorem State.mem_deadmanHit_iff {x : DeadmanExpiry} {k : Arm} :
    k ∈ s.deadmanHit x ↔ k.bay = x.bay ∧ (s.armFlowing k || s.overtaken x k) = true := by
  rw [State.deadmanHit, List.mem_filter, Bay.mem_arms_iff]

theorem State.deadmanHit_busy {x : DeadmanExpiry} {k : Arm} (hk : k ∈ s.deadmanHit x) : s.armIdle k = false := by
  have hmet := (State.mem_deadmanHit_iff.mp hk).2
  rw [Bool.or_eq_true] at hmet
  rw [State.armIdle_eq_false_iff]
  rcases hmet with hf | hlate
  · intro hidle
    simp [State.armFlowing, hidle, ArmState.flowing] at hf
  · exact (State.overtaken_iff.mp hlate).2.2

/-- The bay an expiry stops: no arm of it flows any more, and an arm holds DEADMAN. -/
theorem State.deadmanStop_bay {x : DeadmanExpiry} (hflow : s.flowLaw) {k : Arm} (hk : k ∈ s.deadmanHit x) :
    (s.deadmanStop x).bayFlowing x.bay = false
      ∧ (x.bay.arms.any fun a => ((s.deadmanStop x).fc.get a).causes.contains .deadman) = true := by
  have harms := State.raiseOnDeadman_arms (s := s.deadmanTold x.bay) (arms := s.deadmanHit x) hflow
    ((Bay.nodup_arms _).filter _) fun a => State.deadmanHit_busy
  rw [← State.deadmanStop_eq] at harms
  refine ⟨?_, List.any_eq_true.mpr ⟨k, Bay.mem_arms_iff.mpr (State.mem_deadmanHit_iff.mp hk).1, ((harms k).1 hk).2⟩⟩
  rw [State.bayFlowing, List.any_eq_false]
  intro a ha
  by_cases hmet : a ∈ s.deadmanHit x
  · rw [((harms a).1 hmet).1]
    decide
  · rw [State.armFlowing, (harms a).2 hmet]
    intro hf
    exact hmet (State.mem_deadmanHit_iff.mpr ⟨Bay.mem_arms_iff.mp ha, Bool.or_eq_true _ _ ▸ .inl hf⟩)

/-- The arms of the other bay stay as they were. -/
theorem State.deadmanStop_other {x : DeadmanExpiry} {k : Arm} (hk : k.bay ≠ x.bay) : (s.deadmanStop x).fc.get k = s.fc.get k := by
  obtain ⟨hothers, -, -⟩ := State.raiseOn_arms (s.deadmanHit x) ((Bay.nodup_arms _).filter _) .deadman (s.deadmanTold x.bay)
  exact (hothers k fun hmem => hk (State.mem_deadmanHit_iff.mp hmem).1).1

/-- The expiry in WARNING: every flowing arm of the bay stops with DEADMAN, and so the alarm it sets stands (R91). -/
theorem State.keeps_deadmanStop (s : State) (x : DeadmanExpiry) (hhit : s.deadmanLaw → ∃ k, k ∈ s.deadmanHit x) :
    s.Keeps (s.deadmanStop x) := by
  have hbay : (s.deadmanTold x.bay).bsc.get x.bay =
      { s.bsc.get x.bay with stage := .quiet, alarm := true, deadmanTimer := none, leftInWarning := [] } := PerBay.get_modify_self ..
  have hbsc : (s.deadmanStop x).bsc = (s.deadmanTold x.bay).bsc := by
    rw [State.deadmanStop_eq]
    exact State.raiseOn_bsc_of_quiet rfl (by rw [hbay]) (by rw [hbay]) fun k hk => (State.mem_deadmanHit_iff.mp hk).1
  refine ⟨fun hflow hdeadman => ⟨State.flowLaw_raiseOnDeadman (s := s.deadmanTold x.bay) hflow (s.deadmanHit x), fun b => ?_⟩,
    (((State.SameOrders.refl s).modifyBay x.bay).raiseOn _ .deadman).keeps (State.raiseOn_idle _ _ .deadman)⟩
  rw [hbsc]
  by_cases hb : b = x.bay
  · obtain ⟨k, hk⟩ := hhit hdeadman
    obtain ⟨hstopped, hheld⟩ := State.deadmanStop_bay hflow hk
    rw [hb, hstopped, hheld, hbay]
    exact ⟨rfl, by simp, rfl⟩
  · have hsame : ∀ k ∈ b.arms, (s.deadmanStop x).fc.get k = s.fc.get k := fun k hk =>
      State.deadmanStop_other fun h => hb ((Bay.mem_arms_iff.mp hk).symm.trans h)
    have hflowing : (s.deadmanStop x).bayFlowing b = s.bayFlowing b :=
      Bay.any_congr fun k hk => by rw [State.armFlowing, hsame k hk, State.armFlowing]
    have hheld : (b.arms.any fun k => ((s.deadmanStop x).fc.get k).causes.contains .deadman) =
        b.arms.any fun k => (s.fc.get k).causes.contains .deadman := Bay.any_congr fun k hk => by rw [hsame k hk]
    have hbays : (s.deadmanTold x.bay).bsc.get b = s.bsc.get b := PerBay.get_modify_of_ne _ _ hb
    rw [hflowing, hheld, hbays]
    exact hdeadman b

theorem State.keeps_deadmanExpired (s : State) (x : DeadmanExpiry) : s.Keeps (s.deadmanExpired x) := by
  have hflows : s.deadmanLaw → (s.bsc.get x.bay).deadmanTimer.isSome = true → s.bayFlowing x.bay = true := fun h ht =>
    (h x.bay).1.symm.trans ht
  have hstop : ((s.deadmanLaw → s.bayFlowing x.bay = true) ∨ (x.bay.arms.any (s.overtaken x)) = true) → s.Keeps (s.deadmanStop x) := by
    intro h
    refine s.keeps_deadmanStop x fun hlaw => ?_
    rcases h with hbay | hlate
    · obtain ⟨k, hk, hf⟩ := List.any_eq_true.mp (hbay hlaw)
      exact ⟨k, State.mem_deadmanHit_iff.mpr ⟨Bay.mem_arms_iff.mp hk, by rw [hf]; rfl⟩⟩
    · obtain ⟨k, hk, hl⟩ := List.any_eq_true.mp hlate
      exact ⟨k, State.mem_deadmanHit_iff.mpr ⟨Bay.mem_arms_iff.mp hk, by rw [hl, Bool.or_true]⟩⟩
  unfold State.deadmanExpired
  split
  case isTrue htimer =>
    split
    · exact (State.Keeps.refl s).watch x.bay fun hlaw => hflows hlaw htimer
    · exact hstop (.inl fun hlaw => hflows hlaw htimer)
  case isFalse => exact .ite (fun hlate => hstop (.inr hlate)) fun _ => .refl s

/-! ### Causes acknowledged (R92, R124) -/

theorem State.contains_filter_ne {d : StopCause} (h : c ≠ d) (l : List StopCause) :
    (l.filter (· ≠ c)).contains d = l.contains d := by
  rw [Bool.eq_iff_iff, List.contains_iff_mem, List.contains_iff_mem, List.mem_filter]
  exact and_iff_left (by simpa using h.symm)

/-- Once an arm's set has lost DEADMAN, its bay's alarm follows the other arm's (R92). -/
theorem State.deadmanLaw_causeLeft (h : s.deadmanLaw) (hfc : t.fc = s.fc.set a x) (hstate : x.state.flowing = (s.fc.get a).state.flowing)
    (hheld : (s.fc.get a).causes.contains .deadman = true) (hleft : x.causes.contains .deadman = false)
    (hbsc : t.bsc = s.bsc) : (t.deadmanCauseLeft a.bay).deadmanLaw := by
  have hflowing : ∀ b, t.bayFlowing b = s.bayFlowing b := fun b => Bay.any_congr fun k _ => by
    rw [State.armFlowing_of_set hfc]
    split
    case isTrue hk => rw [hk, State.armFlowing, hstate]
    case isFalse => rfl
  have hholds : (a.bay.arms.any fun k => (t.fc.get k).causes.contains .deadman) = (s.fc.get a.other).causes.contains .deadman := by
    rw [Arm.any_bay_arms, hfc, PerArm.get_set_self, PerArm.get_set_other, hleft, Bool.false_or]
  intro b
  obtain ⟨htimer, hstage, halarm⟩ := h b
  have hsame : (t.deadmanCauseLeft a.bay).bayFlowing b = s.bayFlowing b := by
    rw [← hflowing, State.bayFlowing]
    exact Bay.any_congr fun k _ => by rw [State.armFlowing, State.deadmanCauseLeft_fc]; rfl
  rw [hsame, State.deadmanCauseLeft_fc]
  by_cases hb : b = a.bay
  · subst hb
    rw [hholds]
    rw [Arm.any_bay_arms, hheld, Bool.true_or] at halarm
    unfold State.deadmanCauseLeft
    rw [hholds]
    cases (s.fc.get a.other).causes.contains .deadman
    · simpa [hbsc] using ⟨htimer, hstage⟩
    · simpa [hbsc, halarm] using ⟨htimer, hstage⟩
  · have hbay : (t.deadmanCauseLeft a.bay).bsc.get b = s.bsc.get b := by
      unfold State.deadmanCauseLeft
      split
      · rw [hbsc]
      · rw [State.modifyBay_bsc, PerBay.get_modify_of_ne _ _ hb, hbsc]
    have hothers : (b.arms.any fun k => (t.fc.get k).causes.contains .deadman) =
        b.arms.any fun k => (s.fc.get k).causes.contains .deadman := Bay.any_congr fun k hk => by
      rw [hfc, PerArm.get_set_of_ne]
      rintro rfl
      exact hb (Bay.mem_arms_iff.mp hk).symm
    rw [hothers, hbay]
    exact ⟨htimer, hstage, halarm⟩

theorem State.deadmanCauseLeft_sameOrders (s : State) (b : Bay) : s.SameOrders (s.deadmanCauseLeft b) :=
  .ite (.refl s) ((State.SameOrders.refl s).modifyBay b)

/-- A Flow Controller with a cause acknowledged (R124). -/
def FlowController.acknowledged (x : FlowController) (c : StopCause) : FlowController :=
  { x with causes := x.causes.filter (· ≠ c), releaseMark := if c = .officeStop then false else x.releaseMark }

theorem State.removeCause_eq (s : State) (a : Arm) (c : StopCause) :
    s.removeCause a c =
      if c = .deadman then (s.modifyFc a (·.acknowledged c)).deadmanCauseLeft a.bay else s.modifyFc a (·.acknowledged c) := rfl

theorem State.flowLaw_of_eq (h : s.flowLaw) (hfc : t.fc = s.fc) (hic : t.ic = s.ic) : t.flowLaw := fun a => by
  rw [State.armFlowing, State.armIdle, State.loadingPermissive_of_ic hic, hfc]
  exact h a

/-- A cause that an arm holds is acknowledged (R124). -/
theorem State.Keeps.removeCause (h : s.Keeps t) {a : Arm} {c : StopCause} (hheld : c ∈ (t.fc.get a).causes) :
    s.Keeps (t.removeCause a c) := by
  have hfc : (t.modifyFc a (·.acknowledged c)).fc = t.fc.set a ((t.fc.get a).acknowledged c) := rfl
  have hflow : t.flowLaw → (t.modifyFc a (·.acknowledged c)).flowLaw := fun hlaw => by
    obtain ⟨hclose, hempty, hpermissive⟩ := hlaw a
    rw [← State.flowLawBut_nil]
    refine State.flowLawBut_of_set ((State.flowLawBut_nil.mpr hlaw).mono (by simp)) hfc rfl hclose (fun hst => ?_) hpermissive
    have hnone : (t.fc.get a).causes = [] := hempty (hst.imp id decide_eq_true)
    rw [FlowController.acknowledged, hnone]
    rfl
  have hidle : ∀ k, (t.modifyFc a (·.acknowledged c)).armIdle k = t.armIdle k := fun k => by
    rw [State.armIdle_of_set hfc]
    split
    case isTrue hk => rw [hk]; rfl
    case isFalse => rfl
  rw [State.removeCause_eq]
  split
  case isTrue hc =>
    subst hc
    refine h.trans ⟨fun hlaw hdeadman => ⟨State.flowLaw_of_eq (hflow hlaw) (by simp) (by simp), ?_⟩, ?_⟩
    · exact State.deadmanLaw_causeLeft hdeadman hfc rfl (List.contains_iff_mem.mpr hheld) (by simp [FlowController.acknowledged]) rfl
    · refine State.SameOrders.keeps (State.SameOrders.trans .of_eq (State.deadmanCauseLeft_sameOrders _ _)) fun k => ?_
      rw [State.armIdle, State.deadmanCauseLeft_fc]
      exact hidle k
  case isFalse hc =>
    refine h.trans ⟨fun hlaw hdeadman => ⟨hflow hlaw, State.deadmanLaw_of_set hdeadman hfc ?_ (State.contains_filter_ne hc _)⟩,
      State.SameOrders.keeps .of_eq hidle⟩
    exact (if_pos rfl).symm

/-! ### A permissive lost, the emergency stop (R122) -/

/-- A level accepted that takes the loading permissive condition from no arms but those named, and a cause raised on these. -/
theorem State.Keeps.interrupt (h : s.Keeps t) (hfc : u.fc = t.fc) (hbsc : u.bsc = t.bsc) (hrunning : u.running = t.running)
    (hob : u.ob = t.ob) (hlost : ∀ a ∉ arms, t.loadingPermissive a = true → u.loadingPermissive a = true) (hc : c ≠ .deadman) :
    s.Keeps (u.raiseOn arms c) := by
  refine h.trans ⟨fun hflow hdeadman => ?_, ?_⟩
  · refine State.flowLaws_raiseOn (fun a => ?_) ?_ hc
    · obtain ⟨hclose, hempty, hpresent⟩ := hflow a
      rw [State.armFlowing, State.armIdle, hfc]
      exact ⟨hclose, hempty, fun hf ha => hlost a ha (hpresent hf)⟩
    · intro b
      simp only [State.bayFlowing, State.armFlowing, hfc, hbsc]
      exact hdeadman b
  · refine (State.SameOrders.raiseOn (.of_eq hrunning hbsc hob) arms c).keeps fun k => ?_
    rw [State.raiseOn_idle, State.armIdle, State.armIdle, hfc]

/-! ### An arm's entry into flow (R84, R90, R115, R116, R126) -/

theorem State.enterFlow_moves (s : State) (a : Arm) (st : ArmState) :
    ∃ x : FlowController, (s.enterFlow a st).fc = s.fc.set a x ∧ x.state = st ∧ x.causes = (s.fc.get a).causes
      ∧ (s.enterFlow a st).bsc = s.deadmanStarted a := by
  unfold State.enterFlow State.deadmanStarted
  dsimp only
  have hother : s.armFlowing a.other = (s.fc.get a.other).state.flowing := rfl
  rw [← hother]
  cases s.armFlowing a.other <;> exact ⟨_, rfl, rfl, rfl, rfl⟩

/-- An arm outside flow, with an empty set and its loading permissive condition holding, takes a stage. -/
theorem State.flowLaws_enterStage (hflow : s.flowLaw) (hdeadman : s.deadmanLaw) (hstill : s.armFlowing a = false)
    (hempty : (s.fc.get a).causes = []) (hpresent : s.loadingPermissive a = true) (stage : Stage) :
    (s.enterStage a stage).flowLaw ∧ (s.enterStage a stage).deadmanLaw := by
  have hlaw : s.flowLawBut [a] := (State.flowLawBut_nil.mpr hflow).mono (by simp)
  have hflows : ∀ st : ArmState, st.flowing = true → (s.enterFlow a st).flowLaw ∧ (s.enterFlow a st).deadmanLaw := by
    intro st hst
    obtain ⟨x, hfc, hstate, hcauses, hbsc⟩ := s.enterFlow_moves a st
    rw [← State.flowLawBut_nil]
    refine State.flowLaws_of_set hlaw hdeadman hfc (by simp) ?_ (by simp [hstate, hst]) (fun _ => hcauses.trans hempty)
      (fun _ => hpresent) (by rw [hcauses])
    simp [hbsc, hstill, hstate, hst]
  cases stage
  case closing =>
    obtain ⟨x, hfc, hstate, hcommand, hcauses, hbsc⟩ := s.enterClosing_moves a .complete
    rw [← State.flowLawBut_nil]
    refine State.flowLaws_of_set hlaw hdeadman hfc (by simp [State.enterStage]) ?_ (fun _ => hcommand)
      (fun _ => hcauses.trans hempty) (fun _ => hpresent) (by rw [hcauses])
    simp [State.enterStage, hbsc, hstill, hstate, ArmState.flowing]
  all_goals exact hflows _ rfl

/-- The arm that takes a stage is not IDLE then, and the others stay. -/
theorem State.enterStage_idle (s : State) (a : Arm) (stage : Stage) (k : Arm) :
    (s.enterStage a stage).armIdle k = if k = a then false else s.armIdle k := by
  have hflows : ∀ st : ArmState, st ≠ .idle → (s.enterFlow a st).armIdle k = if k = a then false else s.armIdle k := by
    intro st hst
    obtain ⟨x, hfc, hstate, -⟩ := s.enterFlow_moves a st
    rw [State.armIdle_of_set hfc, hstate, decide_eq_false hst]
  cases stage
  case closing =>
    obtain ⟨x, hfc, hstate, -⟩ := s.enterClosing_moves a .complete
    rw [State.enterStage, State.armIdle_of_set hfc, hstate]
    rfl
  all_goals exact hflows _ (by decide)

end Sys2Proof.Machine
end

section
/-! Sessions and orders, step by step: bays that move, orders claimed, let go and cancelled, and the hand-over keep the laws (R67, R68,
R71, R72, R74, R76, R82, R86 to R89, R119). -/

namespace Sys2Proof.Machine

-- One after the other: a thread for each of these proofs would pass the memory the check allows.
set_option Elab.async false

variable {s t u : State} {a : Arm} {b : Bay} {n : Nat}

/-! ### One bay moved -/

/-- From `s` to `t` of all that the laws speak of only bay `b`'s session and the holders of orders change. -/
structure State.OnBay (b : Bay) (s t : State) : Prop where
  flow : s.SameFlow t
  loaded : ∀ a, t.loadedOrder a = s.loadedOrder a
  others : ∀ x, x ≠ b → (t.bsc.get x).session = (s.bsc.get x).session

theorem State.OnBay.trans (h : State.OnBay b s t) (h' : State.OnBay b t u) : State.OnBay b s u where
  flow := h.flow.trans h'.flow
  loaded := fun a => (h'.loaded a).trans (h.loaded a)
  others := fun x hx => (h'.others x hx).trans (h.others x hx)

/-- All but the orders, the bays, the drivers and the links the same. -/
theorem State.OnBay.of_eq (fc : t.fc = s.fc := by simp) (ic : t.ic = s.ic := by simp) (bsc : t.bsc = s.bsc := by simp)
    (running : t.running = s.running := by simp) : State.OnBay b s t where
  flow := .of_eq fc ic bsc
  loaded := by simp [State.loadedOrder, running]
  others := by simp [bsc]

theorem State.OnBay.refl (s : State) : State.OnBay b s s := State.OnBay.of_eq

theorem State.OnBay.modifyBay (h : State.OnBay b s t) {f : BayController → BayController}
    (hf : ∀ x, (f x).watch = x.watch := by exact fun _ => rfl) : State.OnBay b s (t.modifyBay b f) := by
  refine h.trans ⟨⟨fun _ => rfl, State.loadingPermissive_of_ic rfl, fun x => ?_⟩, fun _ => rfl, fun x hx => ?_⟩
  · rw [State.modifyBay_bsc, PerBay.get_modify]
    split
    · exact hf _
    · rfl
  · rw [State.modifyBay_bsc, PerBay.get_modify_of_ne _ _ hx]

theorem State.OnBay.ite {p : Prop} [Decidable p] (h : State.OnBay b s t) (h' : State.OnBay b s u) :
    State.OnBay b s (if p then t else u) := by split <;> assumption

theorem State.OnBay.moveBay (h : State.OnBay b s t) (st : BayStatus) : State.OnBay b s (t.moveBay b st) :=
  .ite h ((h.modifyBay (f := fun x => { x with status := st })).trans .of_eq)

theorem State.OnBay.modifyOrder (h : State.OnBay b s t) (n : Nat) (f : Order → Order) : State.OnBay b s (t.modifyOrder n f) :=
  h.trans .of_eq

theorem State.OnBay.unbind (h : State.OnBay b s t) : State.OnBay b s (t.unbind b) := by
  unfold State.unbind
  split
  · exact State.OnBay.modifyBay (h.trans .of_eq)
  · exact h

theorem State.OnBay.releaseOrder (h : State.OnBay b s t) : State.OnBay b s (t.releaseOrder b) := by
  unfold State.releaseOrder
  split
  · exact (h.modifyOrder _ _).modifyBay
  · exact h

theorem State.OnBay.closeSession (h : State.OnBay b s t) (dest : BayStatus) : State.OnBay b s (t.closeSession b dest) :=
  h.releaseOrder.unbind.modifyBay.moveBay dest

theorem State.OnBay.refreshInactivity (h : State.OnBay b s t) : State.OnBay b s (t.refreshInactivity b) := h.modifyBay

/-- One bay moved keeps the law of the sessions, where its arms are IDLE, it keeps no order outside PLANNING and LOADING, and every
order is held by it or as before. -/
theorem State.OnBay.keeps (h : State.OnBay b s t)
    (hlaw : s.sessionLaw → s.armsIdle b = true
      ∧ ((t.bsc.get b).status ≠ .planning → (t.bsc.get b).status ≠ .loading → (t.bsc.get b).order = none)
      ∧ ∀ m x, t.holder m = some x → if x = b then (t.bsc.get b).order = some m else s.holder m = some x) : s.Keeps t := by
  refine ⟨h.flow.keeps, fun hs => ?_⟩
  obtain ⟨hfree, hempty, hholder⟩ := hlaw hs
  rw [State.sessionLaw_iff] at hs ⊢
  obtain ⟨hworks, hnone, hheld⟩ := hs
  have hstatus : ∀ x, x ≠ b → (t.bsc.get x).status = (s.bsc.get x).status := fun x hx => congrArg Prod.fst (h.others x hx)
  have htimer : ∀ x, x ≠ b → (t.bsc.get x).inactivityTimer = (s.bsc.get x).inactivityTimer := fun x hx =>
    congrArg (·.2.1) (h.others x hx)
  have horder : ∀ x, x ≠ b → (t.bsc.get x).order = (s.bsc.get x).order := fun x hx => congrArg (·.2.2) (h.others x hx)
  refine ⟨fun a ha => ?_, fun x => ?_, fun m x hm => ?_⟩
  · rw [h.flow.idle] at ha
    have hab : a.bay ≠ b := fun hab => by
      rw [State.armsIdle_iff] at hfree
      exact State.armIdle_eq_false_iff.mp ha (hfree a (Bay.mem_arms_iff.mpr hab))
    rw [hstatus _ hab, htimer _ hab, horder _ hab, h.loaded]
    exact hworks a ha
  · by_cases hx : x = b
    · subst hx
      exact hempty
    · rw [hstatus x hx, horder x hx]
      exact hnone x
  · have := hholder m x hm
    split at this
    case isTrue hx => rwa [hx]
    case isFalse hx =>
      rw [horder x hx]
      exact hheld m x this

/-- The arms of a bay that is not LOADING, or whose inactivity timer runs, are IDLE. -/
theorem State.sessionLaw.armsIdle (h : s.sessionLaw)
    (hb : (s.bsc.get b).status ≠ .loading ∨ (s.bsc.get b).inactivityTimer ≠ none) : s.armsIdle b = true := by
  rw [State.armsIdle_iff]
  intro a ha
  by_contra hne
  obtain ⟨hstatus, htimer, -⟩ := h.1 a (State.armIdle_eq_false_iff.mpr hne)
  rw [Bay.mem_arms_iff.mp ha] at hstatus htimer
  exact hb.elim (fun h => h hstatus) fun h => h htimer

/-! ### The holders of orders -/

theorem State.holder_congr (h : t.ob = s.ob) (m : Nat) : t.holder m = s.holder m := by rw [State.holder, h, State.holder]

/-- The holders after an order is changed. -/
theorem State.holder_modifyOrder (s : State) (n : Nat) (f : Order → Order) (m : Nat) :
    (s.modifyOrder n f).holder m = if m = n then (s.ob.orders.find n).bind fun o => (f o).holding else s.holder m := by
  unfold State.modifyOrder
  cases ho : s.ob.orders.find n with
  | none =>
    by_cases hm : m = n
    · simp [State.holder, hm, ho]
    · simp [hm]
  | some o =>
    by_cases hm : m = n
    · simp [State.holder, hm, Assoc.find_put_self]
    · simp [State.holder, hm, Assoc.find_put_ne _ _ hm]

/-- An order changed but for its holder. -/
theorem State.holder_modifyOrder_same {f : Order → Order} (hf : ∀ o, (f o).holding = o.holding) (s : State) (n m : Nat) :
    (s.modifyOrder n f).holder m = s.holder m := by
  rw [State.holder_modifyOrder]
  split
  case isTrue hm => simp only [hf, hm]; rfl
  case isFalse => rfl

/-- An order that is let go. -/
theorem State.holder_modifyOrder_none {f : Order → Order} (hf : ∀ o, (f o).holding = none) (s : State) (n m : Nat) :
    (s.modifyOrder n f).holder m = if m = n then none else s.holder m := by
  rw [State.holder_modifyOrder]
  simp [hf]

/-- Orders changed so that each is held as before, or by no bay. -/
theorem State.Keeps.setOrders (h : s.Keeps t) {orders : Assoc Order}
    (hheld : ∀ m x, (t.setOrders orders).holder m = some x → t.holder m = some x) : s.Keeps (t.setOrders orders) := by
  refine h.trans ⟨State.SameFlow.keeps .of_eq, fun hs => ?_⟩
  rw [State.sessionLaw_iff] at hs ⊢
  exact ⟨hs.1, hs.2.1, fun m x hm => hs.2.2 m x (hheld m x hm)⟩

theorem State.Keeps.modifyOrder (h : s.Keeps t) (n : Nat) {f : Order → Order}
    (hf : ∀ o, (f o).holding = o.holding ∨ (f o).holding = none) : s.Keeps (t.modifyOrder n f) := by
  have hheld : ∀ m x, (t.modifyOrder n f).holder m = some x → t.holder m = some x := by
    intro m x hm
    rw [State.holder_modifyOrder] at hm
    split at hm
    case isFalse => exact hm
    case isTrue heq =>
      obtain ⟨o, ho, hx⟩ := Option.bind_eq_some_iff.mp hm
      rcases hf o with h | h
      · rw [State.holder, heq, ho, ← hx, h]
        rfl
      · rw [h] at hx
        exact absurd hx (by simp)
  unfold State.modifyOrder at hheld ⊢
  cases hfind : t.ob.orders.find n with
  | none => exact h
  | some o => exact h.setOrders (by simpa only [hfind] using hheld)

/-! ### Bays that move (R74, R86, R87) -/

theorem State.moveBay_bay (s : State) (b : Bay) (st : BayStatus) :
    (s.moveBay b st).bsc.get b = { s.bsc.get b with status := st } := by
  unfold State.moveBay
  split
  case isTrue h => rw [← h]
  case isFalse => simp

theorem State.Keeps.moveBay (h : s.Keeps t) (b : Bay) {st : BayStatus} (hfree : t.sessionLaw → t.armsIdle b = true)
    (hempty : t.sessionLaw → st ≠ .planning → st ≠ .loading → (t.bsc.get b).order = none) : s.Keeps (t.moveBay b st) := by
  refine h.trans (((State.OnBay.refl t).moveBay st).keeps fun hs => ⟨hfree hs, ?_, fun m x hm => ?_⟩)
  · rw [State.moveBay_bay]
    exact hempty hs
  · rw [State.holder_congr (State.moveBay_ob ..)] at hm
    split
    case isTrue hx =>
      rw [State.moveBay_bay]
      exact hx ▸ (State.sessionLaw_iff.mp hs).2.2 m x hm
    case isFalse => exact hm

/-- A change of a bay outside its session's law and its watch. -/
theorem State.Keeps.modifyBay (h : s.Keeps t) (b : Bay) {f : BayController → BayController}
    (hf : ∀ x, (f x).session = x.session ∧ (f x).watch = x.watch := by exact fun _ => ⟨rfl, rfl⟩) : s.Keeps (t.modifyBay b f) :=
  h.trans (.of_same ((State.OnBay.refl t).modifyBay fun x => (hf x).2).flow
    ((State.SameOrders.refl t).modifyBay b fun x => (hf x).1))

theorem State.Keeps.unbind (h : s.Keeps t) (b : Bay) : s.Keeps (t.unbind b) := by
  unfold State.unbind
  split
  · exact State.Keeps.modifyBay (h.trans .of_eq) b
  · exact h

theorem State.refreshInactivity_bay (s : State) (b x : Bay) :
    (s.refreshInactivity b).bsc.get x =
      { s.bsc.get x with
        inactivityTimer :=
          if x = b then (if (s.bsc.get b).status.signedIn && s.armsIdle b then some Config.inactivityTime else none)
          else (s.bsc.get x).inactivityTimer } := by
  rw [State.refreshInactivity, State.modifyBay_bsc, PerBay.get_modify]
  by_cases hx : x = b
  · subst hx
    rw [if_pos rfl, if_pos rfl]
  · rw [if_neg hx, if_neg hx]

/-- A bay with an arm at work has no IDLE pair of arms. -/
theorem State.armsIdle_of_works (ha : s.armIdle a = false) : s.armsIdle a.bay = false := by
  rw [← Bool.not_eq_true, State.armsIdle_iff]
  exact fun hidle => State.armIdle_eq_false_iff.mp ha (hidle a (Bay.mem_arms_iff.mpr rfl))

/-- The inactivity timer of a bay follows its arms. -/
theorem State.Keeps.refreshInactivity (h : s.Keeps t) (b : Bay) : s.Keeps (t.refreshInactivity b) := by
  refine h.trans ⟨(State.OnBay.refl t).refreshInactivity.flow.keeps, fun hs => ?_⟩
  rw [State.sessionLaw_iff] at hs ⊢
  obtain ⟨hworks, hnone, hheld⟩ := hs
  refine ⟨fun a ha => ?_, fun x => ?_, fun m x hm => ?_⟩
  · obtain ⟨hstatus, htimer, n, horder, hloaded⟩ := hworks a ha
    rw [State.refreshInactivity_bay]
    refine ⟨hstatus, ?_, n, horder, hloaded⟩
    split
    case isFalse => exact htimer
    case isTrue hab =>
      have hbusy : t.armsIdle b = false := hab ▸ State.armsIdle_of_works ha
      simp [hbusy]
  · rw [State.refreshInactivity_bay]
    exact hnone x
  · rw [State.refreshInactivity_bay]
    exact hheld m x hm

/-- A bay in IDENT goes back to LOCKED. -/
theorem State.Keeps.abandonIdent (h : s.Keeps t) (b : Bay) (hident : (t.bsc.get b).status = .ident) : s.Keeps (t.abandonIdent b) := by
  have hunbound : ((t.unbind b).bsc.get b).status = .ident := by
    rw [State.unbind_eq]
    simpa using hident
  have hst : (((t.unbind b).modifyBay b fun x => { x with pinTimer := none }).bsc.get b).status = .ident := by
    simpa using hunbound
  refine ((h.unbind b).modifyBay b).moveBay b (fun hs => hs.armsIdle (.inl (by rw [hst]; decide))) fun hs _ _ => ?_
  exact hs.2.1 b (by rw [hst]; decide) (by rw [hst]; decide)

theorem State.closeSession_bay (s : State) (b : Bay) (dest : BayStatus) :
    ((s.closeSession b dest).bsc.get b).status = dest ∧ ((s.closeSession b dest).bsc.get b).order = none := by
  have hreleased : ((s.releaseOrder b).bsc.get b).order = none := by
    unfold State.releaseOrder
    split
    · simp
    · assumption
  rw [State.closeSession, State.moveBay_bay, State.unbind_eq]
  simpa using hreleased

theorem State.closeSession_ob (s : State) (b : Bay) (dest : BayStatus) : (s.closeSession b dest).ob = (s.releaseOrder b).ob := by
  simp [State.closeSession]

theorem State.releaseOrder_holder (hs : s.sessionLaw) (b : Bay) (m : Nat) :
    ∀ x, (s.releaseOrder b).holder m = some x → x ≠ b ∧ s.holder m = some x := by
  intro x hm
  have hheld := (State.sessionLaw_iff.mp hs).2.2
  unfold State.releaseOrder at hm
  split at hm
  case h_1 n hn =>
    rw [State.holder_congr (State.modifyBay_ob ..), State.holder_modifyOrder_none (by exact fun _ => rfl)] at hm
    split at hm
    case isTrue => exact absurd hm (by simp)
    case isFalse hmn =>
      refine ⟨?_, hm⟩
      rintro rfl
      have := hheld m x hm
      rw [hn] at this
      exact hmn (Option.some.inj this).symm
  case h_2 hn =>
    refine ⟨?_, hm⟩
    rintro rfl
    have := hheld m x hm
    rw [hn] at this
    exact absurd this (by simp)

/-- A session closes where both arms of its bay are IDLE. -/
theorem State.Keeps.closeSession (h : s.Keeps t) (b : Bay) (dest : BayStatus) (hfree : t.sessionLaw → t.armsIdle b = true) :
    s.Keeps (t.closeSession b dest) := by
  obtain ⟨hstatus, horder⟩ := t.closeSession_bay b dest
  refine h.trans (((State.OnBay.refl t).closeSession dest).keeps fun hs => ⟨hfree hs, fun _ _ => horder, fun m x hm => ?_⟩)
  rw [State.holder_congr (State.closeSession_ob ..)] at hm
  obtain ⟨hx, hm⟩ := State.releaseOrder_holder hs b m x hm
  rwa [if_neg hx]

end Sys2Proof.Machine
end

section
/-! Orders claimed and cancelled, an accepted START or RESUME, and the hand-over keep the laws (R67, R71, R72, R84, R87, R88, R92, R119,
R126). -/

namespace Sys2Proof.Machine

-- One after the other: a thread for each of these proofs would pass the memory the check allows.
set_option Elab.async false

variable {s t u : State} {a : Arm} {b : Bay} {n k : Nat}

/-! ### Orders claimed and taken away (R67, R71, R72) -/

theorem State.claimOrder_order (s : State) (b : Bay) (n : Nat) : ((s.claimOrder b n).bsc.get b).order = some n := by
  simp [State.claimOrder]

/-- After a claim the bay holds the claimed order and no other. -/
theorem State.claimOrder_holder (hs : s.sessionLaw) (b : Bay) (n m : Nat) (x : Bay) (hm : (s.claimOrder b n).holder m = some x) :
    if x = b then m = n else s.holder m = some x := by
  have hheld := (State.sessionLaw_iff.mp hs).2.2
  have hothers : m ≠ n → (if (s.bsc.get b).order = some n then s else s.releaseOrder b).holder m = some x →
      x ≠ b ∧ s.holder m = some x := by
    intro hmn hx
    split at hx
    case isTrue horder =>
      refine ⟨?_, hx⟩
      rintro rfl
      have := hheld m x hx
      rw [horder] at this
      exact hmn (Option.some.inj this).symm
    case isFalse => exact State.releaseOrder_holder hs b m x hx
  rw [State.claimOrder, State.holder_congr (State.modifyBay_ob ..), State.holder_modifyOrder] at hm
  split at hm
  case isTrue hmn =>
    obtain ⟨o, -, hx⟩ := Option.bind_eq_some_iff.mp hm
    rw [if_pos (Option.some.inj hx).symm]
    exact hmn
  case isFalse hmn =>
    obtain ⟨hx, hsame⟩ := hothers hmn hm
    rwa [if_neg hx]

theorem State.OnBay.claimOrder (h : State.OnBay b s t) (n : Nat) : State.OnBay b s (t.claimOrder b n) :=
  ((State.OnBay.ite h h.releaseOrder).modifyOrder _ _).modifyBay

/-- A bay outside LOADING claims an order, and is in PLANNING then. -/
theorem State.keeps_claimed (h : State.OnBay b (s.claimOrder b n) t) (hst : (s.bsc.get b).status ≠ .loading)
    (hplanning : (t.bsc.get b).status = .planning) (horder : (t.bsc.get b).order = some n)
    (hob : t.ob = (s.claimOrder b n).ob) : s.Keeps t := by
  refine (((State.OnBay.refl s).claimOrder n).trans h).keeps fun hs =>
    ⟨hs.armsIdle (.inl hst), fun hne => absurd hplanning hne, fun m x hm => ?_⟩
  rw [State.holder_congr hob] at hm
  have := State.claimOrder_holder hs b n m x hm
  split at this
  case isTrue hx => rw [if_pos hx, horder, this]
  case isFalse hx => rwa [if_neg hx]

/-- A bay loses its order, which no arm is on. -/
theorem State.OnBay.keeps_taken (h : State.OnBay b s t) (hheld : s.holder n = some b) (hfree : ∀ a, s.armOnOrder n a = false)
    (horder : (t.bsc.get b).order = none) (hholder : ∀ m, t.holder m = if m = n then none else s.holder m) : s.Keeps t := by
  refine h.keeps fun hs => ?_
  obtain ⟨hworks, -, hholds⟩ := State.sessionLaw_iff.mp hs
  have hhas := hholds n b hheld
  refine ⟨?_, fun _ _ => horder, fun m x hm => ?_⟩
  · rw [State.armsIdle_iff]
    intro a ha
    by_contra hne
    obtain ⟨-, -, m, hm, hloaded⟩ := hworks a (State.armIdle_eq_false_iff.mpr hne)
    rw [Bay.mem_arms_iff.mp ha, hhas] at hm
    obtain ⟨r, hr, hrm⟩ := Option.map_eq_some_iff.mp hloaded
    have hon : s.armOnOrder n a = true := State.armOnOrder_iff.mpr ⟨hne, r, hr, hrm.trans (Option.some.inj hm).symm⟩
    rw [hfree a] at hon
    exact absurd hon (by decide)
  · rw [hholder] at hm
    split at hm
    case isTrue => exact absurd hm (by simp)
    case isFalse hmn =>
      split
      case isFalse => exact hm
      case isTrue hx =>
        subst hx
        have := hholds m x hm
        rw [hhas] at this
        exact absurd (Option.some.inj this).symm hmn

theorem State.dropOrder_order (s : State) (b : Bay) : ((s.dropOrder b).bsc.get b).order = none := by simp [State.dropOrder]

theorem State.holder_dropCancelled (s : State) (n : Nat) (b : Bay) (m : Nat) :
    ((s.modifyOrder n Order.cancelled).dropOrder b).holder m = if m = n then none else s.holder m :=
  State.holder_modifyOrder_none (fun _ => rfl) s n m

/-- An order taken from its session, of which no arm is on it. -/
theorem State.Keeps.takeFromSession (h : s.Keeps t) {o : Order} (ho : t.ob.orders.find n = some o)
    (hfree : ∀ a, t.armOnOrder n a = false) : s.Keeps (t.takeFromSession n o.holding) := by
  unfold State.takeFromSession
  dsimp only
  cases hb : o.holding with
  | none => exact h.modifyOrder n fun _ => .inr rfl
  | some b =>
    refine State.Keeps.refreshInactivity (h.trans ?_) b
    refine (((State.OnBay.refl t).modifyOrder n _).modifyBay.moveBay _).keeps_taken (n := n) ?_ hfree ?_ fun m => ?_
    · rw [State.holder, ho, ← hb]
      rfl
    · rw [State.moveBay_bay]
      exact State.dropOrder_order ..
    · exact (State.holder_congr (State.moveBay_ob ..) m).trans (t.holder_dropCancelled n b m)

/-- A pending cancellation completes. -/
theorem State.Keeps.completeCancellation (h : s.Keeps t) (n : Nat) : s.Keeps (t.completeCancellation n) := by
  unfold State.completeCancellation
  cases ho : t.ob.orders.find n with
  | none => exact h
  | some o =>
    dsimp only
    refine .ite (fun hcomplete => ?_) fun _ => h
    have hfree : ∀ a, t.armOnOrder n a = false := fun a => by
      rw [Bool.and_eq_true, Bool.not_eq_true', List.any_eq_false] at hcomplete
      exact Bool.eq_false_iff.mpr (hcomplete.2 a (by cases a <;> decide))
    have htaken := h.takeFromSession ho hfree
    unfold State.takeFromSession at htaken
    cases hb : o.holding with
    | none => simpa [hb] using htaken
    | some b =>
      rw [hb] at htaken
      refine .ite (fun _ => h.trans ?_) fun _ => htaken
      refine ((State.OnBay.refl t).modifyOrder n _).modifyBay.keeps_taken (n := n) ?_ hfree ?_ fun m => ?_
      · rw [State.holder, ho, ← hb]
        rfl
      · exact State.dropOrder_order ..
      · exact t.holder_dropCancelled n b m

/-! ### An arm that takes up its order (R84, R87, R126) -/

/-- An arm of a LOADING bay takes a stage, on the order that its bay holds. -/
theorem State.keeps_entered (hflow : s.SameFlow u) (hsession : ∀ x, (u.bsc.get x).session = (s.bsc.get x).session)
    (hholder : ∀ m, u.holder m = s.holder m) (hloaded : ∀ x, u.loadedOrder x = if x = a then some k else s.loadedOrder x)
    (hstill : s.armFlowing a = false) (hempty : s.flowLaw → (s.fc.get a).causes = []) (hpresent : s.loadingPermissive a = true)
    (hloading : (s.bsc.get a.bay).status = .loading) (horder : s.sessionLaw → (s.bsc.get a.bay).order = some k) (stage : Stage) :
    s.Keeps ((u.enterStage a stage).refreshInactivity a.bay) := by
  refine ⟨fun hlaw hdeadman => ?_, fun hs => ?_⟩
  · obtain ⟨hlaw', hdeadman'⟩ := hflow.keeps hlaw hdeadman
    have hstill' : u.armFlowing a = false := by
      rw [State.armFlowing, show (u.fc.get a).state = (s.fc.get a).state from congrArg Prod.fst (hflow.course a)]
      exact hstill
    have hempty' : (u.fc.get a).causes = [] :=
      (show (u.fc.get a).causes = (s.fc.get a).causes from congrArg (·.2.2) (hflow.course a)).trans (hempty hlaw)
    obtain ⟨h, h'⟩ := State.flowLaws_enterStage hlaw' hdeadman' hstill' hempty' ((hflow.permissive a).trans hpresent) stage
    exact ((State.Keeps.refl _).refreshInactivity a.bay).flow h h'
  · have hentered := (State.SameOrders.refl u).enterStage a stage
    have hbay : ∀ x, ((u.enterStage a stage).bsc.get x).session = (s.bsc.get x).session := fun x =>
      (hentered.session x).trans (hsession x)
    have hstatus : ∀ x, ((u.enterStage a stage).bsc.get x).status = (s.bsc.get x).status := fun x => congrArg Prod.fst (hbay x)
    have htimer : ∀ x, ((u.enterStage a stage).bsc.get x).inactivityTimer = (s.bsc.get x).inactivityTimer := fun x =>
      congrArg (·.2.1) (hbay x)
    have hholds : ∀ x, ((u.enterStage a stage).bsc.get x).order = (s.bsc.get x).order := fun x => congrArg (·.2.2) (hbay x)
    have hbusy : (u.enterStage a stage).armsIdle a.bay = false :=
      State.armsIdle_of_works (by rw [State.enterStage_idle, if_pos rfl])
    have hhas := horder hs
    rw [State.sessionLaw_iff] at hs ⊢
    obtain ⟨hworks, hnone, hheld⟩ := hs
    refine ⟨fun x hx => ?_, fun x => ?_, fun m x hm => ?_⟩
    · have hx : (u.enterStage a stage).armIdle x = false := hx
      have hl : ((u.enterStage a stage).refreshInactivity a.bay).loadedOrder x = if x = a then some k else s.loadedOrder x :=
        (hentered.loaded x).trans (hloaded x)
      rw [State.enterStage_idle, hflow.idle] at hx
      rw [State.refreshInactivity_bay, hl]
      simp only [hstatus, htimer, hholds, hbusy, Bool.and_false]
      by_cases hxa : x = a
      · subst hxa
        exact ⟨hloading, if_pos rfl, k, hhas, if_pos rfl⟩
      · rw [if_neg hxa] at hx ⊢
        obtain ⟨hst, ht, hn⟩ := hworks x hx
        exact ⟨hst, by split <;> [rfl; exact ht], hn⟩
    · rw [State.refreshInactivity_bay, hstatus, hholds]
      exact hnone x
    · rw [State.refreshInactivity_bay, hholds]
      refine hheld m x ?_
      rw [← hholder, ← hentered.holder]
      exact hm

end Sys2Proof.Machine
end

section
/-! The hand-over, and what a reset restores, keep the laws (R72, R74, R87, R88, R92, R119, R161, R162). -/

namespace Sys2Proof.Machine

-- One after the other: a thread for each of these proofs would pass the memory the check allows.
set_option Elab.async false

variable {s t u : State} {a : Arm} {b : Bay} {n : Nat} {r : Running}

/-! ### The hand-over (R119) -/

theorem State.SameFlow.deadmanCauseLeft (h : s.SameFlow t) (b : Bay) : (s.deadmanCauseLeft b).SameFlow (t.deadmanCauseLeft b) := by
  have hheld : (b.arms.any fun k => (t.fc.get k).causes.contains .deadman) =
      b.arms.any fun k => (s.fc.get k).causes.contains .deadman :=
    Bay.any_congr fun k _ => congrArg (·.2.2.contains .deadman) (h.course k)
  unfold State.deadmanCauseLeft
  rw [hheld]
  split
  · exact h
  · refine ⟨h.course, h.permissive, fun x => ?_⟩
    rw [State.modifyBay_bsc, State.modifyBay_bsc, PerBay.get_modify, PerBay.get_modify]
    split
    · exact congrArg (fun y => (y.1, y.2.1, false)) (h.watch x)
    · exact h.watch x

theorem State.completeCancellation_sameFlow (s : State) (n : Nat) : s.SameFlow (s.completeCancellation n) := by
  unfold State.completeCancellation
  cases s.ob.orders.find n with
  | none => exact .of_eq
  | some o =>
    dsimp only
    split
    case isFalse => exact .of_eq
    case isTrue =>
      cases o.holding with
      | none => exact .of_eq
      | some b =>
        have hdropped : State.OnBay b s ((s.modifyOrder n Order.cancelled).dropOrder b) :=
          ((State.OnBay.refl s).modifyOrder n _).modifyBay
        exact (State.OnBay.ite hdropped (hdropped.moveBay _).refreshInactivity).flow

theorem State.Keeps.armReachedIdle (h : s.Keeps t) (b : Bay) : s.Keeps (t.armReachedIdle b) :=
  .ite (fun hidle => .ite (fun _ => h.closeSession b _ fun _ => hidle) fun _ => .ite (fun _ => h.refreshInactivity b) fun _ => h)
    fun _ => h

theorem State.takeCompartment_holder (s : State) (a : Arm) (r : Running) (m : Nat) :
    (s.takeCompartment a r).holder m = s.holder m := by
  unfold State.takeCompartment
  split
  · exact State.holder_modifyOrder_same (by exact fun _ => rfl) _ _ m
  · exact (State.holder_modifyOrder_same (by exact fun _ => rfl) _ _ m).trans (State.holder_congr (State.addNote_ob ..) m)

/-- An arm whose compartment is taken is IDLE, and the law of the sessions asks nothing of it any more. -/
theorem State.sessionLaw_armToIdle (h : s.sessionLaw) (a : Arm) (r : Running) :
    ((s.takeCompartment a r).armToIdle a).sessionLaw := by
  rw [State.sessionLaw_iff] at h ⊢
  obtain ⟨hworks, hnone, hheld⟩ := h
  have hfc : ((s.takeCompartment a r).armToIdle a).fc = s.fc.set a (s.fc.get a).handedOver := by
    rw [State.armToIdle_fc, State.takeCompartment_fc]
    rfl
  have hbsc : ((s.takeCompartment a r).armToIdle a).bsc = s.bsc := by simp
  refine ⟨fun k hk => ?_, by simpa [hbsc] using hnone, fun m x hm => ?_⟩
  · rw [State.armIdle_of_set hfc] at hk
    have hka : k ≠ a := by
      rintro rfl
      simp [FlowController.handedOver] at hk
    rw [if_neg hka] at hk
    have hloaded : ((s.takeCompartment a r).armToIdle a).loadedOrder k = s.loadedOrder k := by
      rw [State.loadedOrder, State.armToIdle_eq, State.loadedOrder, State.takeCompartment_running, PerArm.get_set_of_ne _ _ hka]
    rw [hbsc, hloaded]
    exact hworks k hk
  · rw [State.holder_congr (State.armToIdle_ob ..), State.takeCompartment_holder] at hm
    rw [hbsc]
    exact hheld m x hm

/-- An arm outside flow handed over keeps the law of the valves. -/
theorem State.flowLaw_handedOver (h : s.flowLaw) (a : Arm) : (s.modifyFc a FlowController.handedOver).flowLaw := by
  rw [← State.flowLawBut_nil]
  exact State.flowLawBut_of_set (x := (s.fc.get a).handedOver) ((State.flowLawBut_nil.mpr h).mono (by simp)) rfl rfl
    (fun _ => rfl) (fun _ => rfl) (fun hf => Bool.noConfusion hf)

/-- An ENDING arm handed over, and its bay told whether DEADMAN has left it: `t` is the part then, but for the bay's alarm. -/
theorem State.keeps_settled (hending : (s.fc.get a).state = .ending) (hflow : (s.modifyFc a FlowController.handedOver).SameFlow t)
    (hsessions : s.sessionLaw → t.sessionLaw) :
    s.Keeps (if (s.fc.get a).causes.contains .deadman then t.deadmanCauseLeft a.bay else t) := by
  have hstill : (s.fc.get a).handedOver.state.flowing = (s.fc.get a).state.flowing := by
    rw [hending]
    rfl
  refine ⟨fun hlaw hdeadman => ?_, fun hs => ?_⟩
  · have hw := State.flowLaw_handedOver hlaw a
    split
    case isTrue hheld =>
      have hcalm : ((s.modifyFc a FlowController.handedOver).deadmanCauseLeft a.bay).deadmanLaw :=
        State.deadmanLaw_causeLeft (x := (s.fc.get a).handedOver) hdeadman rfl hstill hheld rfl rfl
      exact (hflow.deadmanCauseLeft a.bay).keeps (State.flowLaw_of_eq hw (by simp) (by simp)) hcalm
    case isFalse hheld =>
      refine hflow.keeps hw (State.deadmanLaw_of_set (x := (s.fc.get a).handedOver) hdeadman rfl (if_pos hstill.symm).symm ?_)
      rw [Bool.eq_false_iff.mpr hheld]
      rfl
  · split
    case isTrue =>
      refine (State.deadmanCauseLeft_sameOrders t a.bay).keeps (fun k => ?_) (hsessions hs)
      rw [State.armIdle, State.deadmanCauseLeft_fc]
      rfl
    case isFalse => exact hsessions hs

theorem State.Keeps.handOver (h : s.Keeps t) (a : Arm) (hending : (t.fc.get a).state = .ending) : s.Keeps (t.handOver a) := by
  cases hr : t.running.get a with
  | none =>
    rw [State.handOver, hr]
    exact h
  | some r =>
    have htaken : (t.modifyFc a FlowController.handedOver).SameFlow ((t.takeCompartment a r).armToIdle a) := by
      refine .of_eq ?_ (by simp) (by simp)
      rw [State.armToIdle_fc, State.takeCompartment_fc]
      rfl
    have hsettled := State.keeps_settled hending
      (htaken.trans (State.completeCancellation_sameFlow _ r.flow.order)) fun hs =>
        ((State.Keeps.refl _).completeCancellation r.flow.order).sessions (State.sessionLaw_armToIdle hs a r)
    rw [State.handOver_of_running hr]
    exact ((h.trans hsettled).modifyBay a.bay).armReachedIdle a.bay

theorem State.handOverReady_ending (h : s.handOverReady a = true) : (s.fc.get a).state = .ending := by
  unfold State.handOverReady at h
  simp only [Bool.and_eq_true, decide_eq_true_eq] at h
  obtain ⟨⟨⟨⟨⟨-, hending⟩, -⟩, -⟩, -⟩, -⟩ := h
  exact hending

theorem State.Keeps.takeFreed (h : s.Keeps t) (before : State) : s.Keeps (t.takeFreed before) :=
  State.takeFreed_keeps s.Keeps before h fun _ a ht _ hready => ht.handOver a (State.handOverReady_ending hready)

/-! ### Resets (R161, R162) -/

/-- Every arm IDLE and closed, every bay without an order or a watch, and no order on the table: as a reset leaves these. -/
structure State.AtRest (s : State) : Prop where
  course : ∀ a, (s.fc.get a).course = (.idle, .close, [])
  watch : ∀ b, (s.bsc.get b).watch = (false, .quiet, false)
  order : ∀ b, (s.bsc.get b).order = none
  orders : s.ob.orders = []

theorem State.AtRest.laws (h : s.AtRest) : (s.flowLaw ∧ s.deadmanLaw) ∧ s.sessionLaw := by
  have hstate : ∀ a, (s.fc.get a).state = .idle := fun a => congrArg Prod.fst (h.course a)
  have hcommand : ∀ a, (s.fc.get a).command = .close := fun a => congrArg (·.2.1) (h.course a)
  have hcauses : ∀ a, (s.fc.get a).causes = [] := fun a => congrArg (·.2.2) (h.course a)
  have hflowing : ∀ a, s.armFlowing a = false := fun a => by rw [State.armFlowing, hstate]; rfl
  have htimer : ∀ b, (s.bsc.get b).deadmanTimer.isSome = false := fun b => congrArg Prod.fst (h.watch b)
  have hstage : ∀ b, (s.bsc.get b).stage = .quiet := fun b => congrArg (·.2.1) (h.watch b)
  have halarm : ∀ b, (s.bsc.get b).alarm = false := fun b => congrArg (·.2.2) (h.watch b)
  refine ⟨⟨fun a => ?_, fun b => ?_⟩, ?_⟩
  · simp [hflowing, hcommand, hcauses]
  · simp [State.bayFlowing, hflowing, htimer, hstage, halarm, hcauses]
  · rw [State.sessionLaw_iff]
    simp [State.armIdle, hstate, h.order, State.holder, h.orders, Assoc.find]

theorem State.AtRest.of_eq (h : s.AtRest) (fc : t.fc = s.fc := by simp) (bsc : t.bsc = s.bsc := by simp)
    (ob : t.ob = s.ob := by simp) : t.AtRest where
  course := by rw [fc]; exact h.course
  watch := by rw [bsc]; exact h.watch
  order := by rw [bsc]; exact h.order
  orders := by rw [ob]; exact h.orders

/-- A reset leaves every arm at rest; recovery notes do not touch the arms and the bays. -/
theorem State.atRest_leaveReset (s : State) (x : ResetLines) (valid : Bool) : (s.leaveReset x valid).AtRest := by
  have hrecover : ∀ (kind : Restoration) (arms : List Arm) (v : State), v.AtRest → (arms.foldl (State.recover kind) v).AtRest := by
    intro kind arms
    induction arms with
    | nil => exact fun v hv => hv
    | cons a rest ih =>
      intro v hv
      refine ih _ ?_
      unfold State.recover
      split
      · exact hv.of_eq
      · exact hv
  refine hrecover _ _ _ ⟨fun a => ?_, fun b => ?_, fun b => ?_, rfl⟩
  · simp [State.restored, FlowController.fresh, FlowController.course]
  · simp [State.restored, BayController.fresh, BayController.watch]
  · simp [State.restored, BayController.fresh]

theorem State.keeps_leaveReset (s : State) (x : ResetLines) (valid : Bool) : s.Keeps (s.leaveReset x valid) :=
  have ⟨hflow, hsessions⟩ := (s.atRest_leaveReset x valid).laws
  ⟨fun _ _ => hflow, fun _ => hsessions⟩

end Sys2Proof.Machine
end

section
/-! Each request keeps the laws of flow, of the dead-man timers and of the sessions. -/

namespace Sys2Proof.Machine

-- One after the other: a thread for each of these proofs would pass the memory the check allows.
set_option Elab.async false

variable {s t u : State} {a : Arm} {b : Bay} {n : Nat} {l : Link} {α : Type} {form : Walk α}

/-! ### Answers -/

/-- What a bay's controller answers keeps the laws, with its inactivity timer refreshed where the answer is OK (R87). -/
def State.KeepsBay (s : State) (b : Bay) (x : Answer) : Prop :=
  s.Keeps (x.state.refreshInactivity b) ∧ (x.result ≠ .ok → s.Keeps x.state)

theorem State.KeepsBay.of_keeps {x : Answer} (h : s.Keeps x.state) : s.KeepsBay b x := ⟨h.refreshInactivity b, fun _ => h⟩

theorem State.serveRequest_keepsLaws {code : Byte} {cls : RequestClass} {owner : α → State → Answer}
    (h : ∀ y, s.Keeps (owner y s).state) : s.Keeps (s.serveRequest l code cls form owner) :=
  State.serveRequest_keeps s.Keeps (.refl s) (fun _ _ _ _ ht => ht.trans .of_eq) fun y _ => h y

theorem State.serveBay_keepsLaws {code : Byte} {owner : Bay → α → State → Answer}
    (h : ∀ b y (t : State), t.KeepsBay b (owner b y t)) : s.Keeps (s.serveBay l code form owner) := by
  refine State.serveRequest_keepsLaws fun y => ?_
  have hreset : s.Keeps (s.setPlanReset l false) := .of_eq
  unfold bayOwner
  split
  case h_1 b _ =>
    obtain ⟨hok, hrefused⟩ := h b y (s.setPlanReset l false)
    dsimp only
    split
    case isTrue => exact hreset.trans hok
    case isFalse hne => exact hreset.trans (hrefused hne)
  all_goals exact .refl s

theorem State.Keeps.setPlanReset (h : s.Keeps t) (l : Link) (x : Bool) : s.Keeps (t.setPlanReset l x) := h.trans .of_eq

theorem State.Keeps.resetSelection (h : s.Keeps t) (b : Bay) (l : Link) : s.Keeps (t.resetSelection b l) :=
  (h.modifyBay b).setPlanReset l true

theorem State.Keeps.refuseBayState (h : s.Keeps t) (b : Bay) (l : Link) : s.Keeps (t.refuseBayState b l).state := by
  unfold State.refuseBayState
  split
  · exact h.resetSelection b l
  · exact h

theorem State.Keeps.commit (h : s.Keeps t) (c : NvContents) (cls : EntryClass) : s.Keeps (t.commit c cls) := h.trans .of_eq

/-! ### Signing in (R45 to R50) -/

/-- The bay of an unbound session keeps no order. -/
theorem State.sessionLaw.order_none (h : s.sessionLaw) (hst : (s.bsc.get b).status ∉ [BayStatus.planning, .loading]) :
    (s.bsc.get b).order = none := by
  simp only [List.mem_cons, List.not_mem_nil, or_false, not_or] at hst
  exact h.2.1 b hst.1 hst.2

/-- A bay in a state without an order moves to another. -/
theorem State.Keeps.moveBay_unheld (h : s.Keeps t) (b : Bay) (st : BayStatus)
    (hst : (t.bsc.get b).status ∉ [BayStatus.planning, .loading]) : s.Keeps (t.moveBay b st) :=
  h.moveBay b (fun hs => hs.armsIdle (.inl fun hl => hst (by simp [hl]))) fun hs _ _ => hs.order_none hst

theorem cardOwner_keeps (s : State) (l : Link) (b : Bay) (n : Nat) : s.Keeps (cardOwner l b n s).state := by
  unfold cardOwner
  split
  · exact (State.Keeps.refl s).refuseBayState b l
  · rename_i hlocked
    rw [ne_eq, not_not] at hlocked
    split
    · exact .refl s
    · split
      · exact .refl s
      · repeat' split
        case isFalse =>
          refine State.Keeps.moveBay_unheld (State.Keeps.modifyBay ?_ b) b _ (by simp [hlocked])
          exact .of_eq
        all_goals exact .refl s

theorem State.judgePin_keeps (s : State) (b : Bay) (n : Nat) (d : DriverRecord) (p : PinField)
    (hident : (s.bsc.get b).status = .ident) : s.Keeps (s.judgePin b n d p).state := by
  have hput : ∀ d', s.Keeps (s.putDriver n d') := fun d' => (State.Keeps.refl s).commit _ _
  unfold State.judgePin
  split
  · exact (State.Keeps.refl s).abandonIdent b hident
  · split
    · exact .refl s
    · split
      · have hcleared : s.Keeps (if d.failed = 0 then s else s.putDriver n { d with failed := 0 }) :=
          .ite (fun _ => .refl s) fun _ => hput _
        refine (hcleared.modifyBay b).moveBay_unheld b _ ?_
        split <;> simp [hident, State.putDriver]
      · unfold State.pinFailed
        dsimp only
        split
        · exact (hput _).modifyBay b
        · exact (hput _).abandonIdent b (by simpa [State.putDriver] using hident)

theorem pinOwner_keeps (s : State) (l : Link) (b : Bay) (p : PinField) : s.Keeps (pinOwner l b p s).state := by
  unfold pinOwner
  split
  · exact (State.Keeps.refl s).refuseBayState b l
  · rename_i hident
    repeat' split
    case h_1 => exact s.judgePin_keeps b _ _ p (not_not.mp hident)
    all_goals exact .refl s

/-! ### Planning (R67, R76 to R82, R86) -/

theorem State.claimOrder_status (s : State) (b : Bay) (n : Nat) :
    ((s.claimOrder b n).bsc.get b).status = (s.bsc.get b).status := by
  have hreleased : ((s.releaseOrder b).bsc.get b).status = (s.bsc.get b).status := by
    unfold State.releaseOrder
    split <;> simp
  unfold State.claimOrder
  dsimp only
  split <;> simp [hreleased]

theorem selectOwner_keeps (s : State) (l : Link) (b : Bay) (n : Nat) : s.Keeps (selectOwner l b n s).state := by
  unfold selectOwner
  split
  case h_1 hst =>
    split
    · exact .refl s
    · refine State.keeps_claimed (n := n) ((State.OnBay.refl _).modifyBay.moveBay _) (by rw [hst]; decide) ?_ ?_ (by simp)
      · exact congrArg BayController.status (State.moveBay_bay ..)
      · exact (congrArg BayController.order (State.moveBay_bay ..)).trans (by simpa using s.claimOrder_order b n)
  case h_2 hst =>
    dsimp only
    have hreset := (State.Keeps.refl s).resetSelection b l
    have hkept : ((s.resetSelection b l).bsc.get b).status = .planning := by simpa [State.resetSelection] using hst
    split
    · exact hreset
    · refine hreset.trans (State.keeps_claimed (n := n) (State.OnBay.refl _) (by rw [hkept]; decide) ?_ ?_ rfl)
      · exact (State.claimOrder_status ..).trans hkept
      · exact State.claimOrder_order ..
  all_goals exact .refl s

theorem planningOwner_keeps (s : State) (l : Link) (b : Bay) (judge : Selection → Except ResultCode Selection) :
    s.Keeps (planningOwner l b judge s).state := by
  unfold planningOwner
  repeat' split
  case h_1 => exact (State.Keeps.refl s).modifyBay b
  case h_2 => exact (State.Keeps.refl s).resetSelection b l
  case isTrue => exact .refl s

theorem commitOwner_keeps (s : State) (l : Link) (b : Bay) : s.Keeps (commitOwner l b s).state := by
  have hreset := (State.Keeps.refl s).resetSelection b l
  unfold commitOwner
  split
  case isTrue => exact .refl s
  case isFalse hst =>
    rw [ne_eq, not_not] at hst
    split
    case h_1 =>
      dsimp only
      split
      · exact hreset
      · refine ((State.Keeps.refl s).modifyBay b).moveBay b (fun hs => hs.armsIdle (.inl ?_)) fun _ _ hne => absurd rfl hne
        simp [hst]
    all_goals exact hreset

theorem newPlanOwner_keeps (s : State) (l : Link) (b : Bay) : s.Keeps (newPlanOwner l b s).state := by
  unfold newPlanOwner
  repeat' split
  · exact (State.Keeps.refl s).refuseBayState b l
  · exact .refl s
  · rename_i hidle
    rw [Bool.not_eq_true', Bool.not_eq_false] at hidle
    exact ((State.Keeps.refl s).modifyBay b).moveBay b (fun _ => hidle) fun _ hne => absurd rfl hne

theorem signOffOwner_keeps (s : State) (b : Bay) : s.Keeps (signOffOwner b s).state := by
  have hclosed : (s.sessionLaw → s.armsIdle b = true) → s.Keeps (s.closeSession b .locked) := (State.Keeps.refl s).closeSession b _
  have hquiet : (s.bsc.get b).status ≠ .loading → s.Keeps (s.closeSession b .locked) := fun hne =>
    hclosed fun hs => hs.armsIdle (.inl hne)
  unfold signOffOwner
  split
  case h_1 hst | h_2 hst | h_3 hst => exact hquiet (by rw [hst]; decide)
  case h_4 =>
    split
    case isTrue hidle => exact hclosed fun _ => hidle
    case isFalse => exact .refl s
  all_goals exact .refl s

/-! ### The arms (R83 to R85, R116, R124 to R126) -/

/-- START's checks that fail no check: the loading permissive condition holds (R83, check 7). -/
theorem State.startChecks_permissive {x : Compartment} (h : s.startChecks b a x = none) : s.loadingPermissive a = true := by
  unfold State.startChecks at h
  by_contra hlost
  simp only [Bool.eq_false_iff.mpr hlost, Bool.not_false, if_true] at h
  revert h
  repeat' split
  all_goals simp

theorem State.startCompartment_order {k : Nat} {o : Order} {c : Compartment} (h : s.startCompartment b n = some (k, o, c)) :
    (s.bsc.get b).order = some k := by
  unfold State.startCompartment State.heldOrder at h
  cases horder : (s.bsc.get b).order with
  | none => simp [horder] at h
  | some m =>
    cases hfind : s.ob.orders.find m with
    | none => simp [horder, hfind] at h
    | some o' =>
      simp only [horder, hfind, Option.map_some] at h
      split at h
      · split at h
        · cases h; rfl
        · exact absurd h (by simp)
      · exact absurd h (by simp)

theorem State.startArm_keeps (hloading : (s.bsc.get b).status = .loading) (harm : s.startArmOk b a = true) {k : Nat} {o : Order}
    {c : Compartment} (horder : (s.bsc.get b).order = some k) (hchecks : s.startChecks b a c = none) :
    s.Keeps ((s.startArm b a k o c).refreshInactivity b) := by
  simp only [State.startArmOk, Bool.and_eq_true, decide_eq_true_eq] at harm
  obtain ⟨⟨rfl, hidle⟩, -⟩ := harm
  have hstill : s.armFlowing a = false := by
    rw [State.armFlowing, State.armIdle_iff.mp hidle]
    rfl
  refine State.keeps_entered (k := k) (s := s) (State.SameFlow.of_eq (by simp) (by simp) (by simp)) (by simp) (fun m => ?_)
    (fun x => ?_) hstill (fun hlaw => (hlaw a).2.1 (.inr hidle)) (State.startChecks_permissive hchecks) hloading (fun _ => horder) _
  · refine (State.holder_congr ?_ m).trans
      (State.holder_modifyOrder_same (f := fun x => x.modifyCompartment c.number fun y => y.started a) (fun _ => rfl)
        (s.setNs { s.ns with reserved := s.ns.reserved.set a true }) k m)
    simp
  · have hrunning : x = a ∨ x ≠ a := eq_or_ne x a
    rw [State.loadedOrder, State.serveLines_running]
    rcases hrunning with rfl | hx
    · simp [State.openRecord]
    · simp [State.loadedOrder, PerArm.get_set_of_ne _ _ hx, hx]

theorem startOwner_keeps (s : State) (l : Link) (b : Bay) (x : Nat × Nat) : s.KeepsBay b (startOwner l b x s) := by
  unfold startOwner
  split
  · exact .of_keeps ((State.Keeps.refl s).refuseBayState b l)
  · rename_i hloading
    rw [ne_eq, not_not] at hloading
    split
    · exact .of_keeps (.refl s)
    · split
      · exact .of_keeps (.refl s)
      · split
        · exact .of_keeps (.refl s)
        · split
          · exact .of_keeps (.refl s)
          · rename_i harm
            rw [Bool.not_eq_true', Bool.not_eq_false] at harm
            split
            · exact .of_keeps (.refl s)
            · rename_i hcompartment
              split
              · exact .of_keeps (.refl s)
              · rename_i hchecks
                exact ⟨State.startArm_keeps hloading harm (State.startCompartment_order hcompartment) hchecks, absurd rfl⟩

theorem armOwner_keeps (s : State) (l : Link) (b : Bay) (n : Nat) {flow : Arm → State → Answer}
    (h : ∀ a, a.bay = b → (s.bsc.get b).status = .loading → s.KeepsBay b (flow a s)) : s.KeepsBay b (armOwner l b n flow s) := by
  unfold armOwner
  split
  · exact .of_keeps ((State.Keeps.refl s).refuseBayState b l)
  · rename_i hloading
    repeat' split
    case h_2.isFalse hbay => exact h _ (not_not.mp hbay) (not_not.mp hloading)
    all_goals exact .of_keeps (.refl s)

theorem stopFlow_keeps (s : State) (a : Arm) : s.Keeps (stopFlow a s).state := by
  unfold stopFlow
  split
  · exact (State.Keeps.refl s).raiseCause a (by decide)
  · exact .refl s

theorem resumeFlow_keeps (s : State) (a : Arm) (hloading : (s.bsc.get a.bay).status = .loading) :
    s.KeepsBay a.bay (resumeFlow a s) := by
  unfold resumeFlow
  split
  case isFalse => exact .of_keeps (.refl s)
  case isTrue hresumable =>
    simp only [Bool.and_eq_true, decide_eq_true_eq, List.isEmpty_iff] at hresumable
    obtain ⟨⟨hpaused, hempty⟩, hpresent⟩ := hresumable
    cases hr : s.running.get a with
    | none => exact .of_keeps (.refl s)
    | some r =>
      refine ⟨State.keeps_entered (k := r.flow.order) .of_eq (fun _ => rfl) (fun _ => rfl) (fun x => ?_) ?_ (fun _ => hempty) hpresent
        hloading (fun hs => ?_) _, fun hne => absurd rfl hne⟩
      · split
        case isTrue hx => rw [hx, State.loadedOrder, hr]; rfl
        case isFalse => rfl
      · rw [State.armFlowing, hpaused]
        rfl
      · obtain ⟨-, -, m, hm, hloaded⟩ := (State.sessionLaw_iff.mp hs).1 a (State.armIdle_of_paused hpaused)
        rw [State.loadedOrder, hr] at hloaded
        rw [hm]
        exact hloaded.symm

theorem ackFlow_keeps (s : State) (c : StopCause) (a : Arm) : s.Keeps (ackFlow c a s).state := by
  unfold ackFlow
  split
  case isTrue hshown =>
    rw [Bool.and_eq_true, decide_eq_true_eq] at hshown
    exact (State.Keeps.refl s).removeCause (List.mem_of_mem_head? hshown.1)
  case isFalse => exact .refl s

theorem ackOwner_keeps (s : State) (l : Link) (b : Bay) (x : Nat × Nat) : s.KeepsBay b (ackOwner l b x s) := by
  unfold ackOwner
  repeat' split
  · exact .of_keeps ((State.Keeps.refl s).refuseBayState b l)
  · exact .of_keeps (.refl s)
  · exact armOwner_keeps s l b _ fun a _ _ => .of_keeps (ackFlow_keeps s _ a)

theorem finishFlow_keeps (s : State) (a : Arm) : s.Keeps (finishFlow a s).state := by
  unfold finishFlow
  split
  · exact (State.Keeps.refl s).endPaused a _ (by assumption)
  · exact .refl s

/-! ### The Office requests -/

theorem State.writeSetting_keeps (s : State) (held : Bool) (c : NvContents) : s.Keeps (s.writeSetting held c).state := by
  unfold State.writeSetting
  repeat' split
  · exact .refl s
  · exact .refl s
  · exact (State.Keeps.refl s).commit _ _

theorem writeDriverOwner_keeps (s : State) (x : DriverFields) : s.Keeps (writeDriverOwner x s).state := by
  unfold writeDriverOwner
  repeat' split
  case h_2.isFalse.isFalse => exact s.writeSetting_keeps _ _
  all_goals exact .refl s

theorem deleteDriverOwner_keeps (s : State) (n : Nat) : s.Keeps (deleteDriverOwner n s).state := by
  unfold deleteDriverOwner
  repeat' split
  case isFalse.isFalse.isFalse => exact s.writeSetting_keeps _ _
  all_goals exact .refl s

theorem resetPinOwner_keeps (s : State) (x : Nat × PinField) : s.Keeps (resetPinOwner x s).state := by
  unfold resetPinOwner
  repeat' split
  case h_2 => exact s.writeSetting_keeps _ _
  all_goals exact .refl s

theorem readDriverOwner_keeps (s : State) (x : Nat × Nat) : s.Keeps (readDriverOwner x s).state := by
  unfold readDriverOwner
  split <;> exact .refl s

/-- An order written that no bay holds. -/
theorem State.Keeps.putOrder (h : s.Keeps t) (n : Nat) {o : Order} (ho : o.holding = none) :
    s.Keeps (t.setOrders (t.ob.orders.put n o)) := by
  refine h.setOrders fun m x hm => ?_
  rw [State.holder, State.setOrders_ob] at hm
  by_cases hmn : m = n
  · simp [hmn, Assoc.find_put_self, ho] at hm
  · simpa [State.holder, Assoc.find_put_ne _ _ hmn] using hm

theorem writeOrderOwner_keeps (s : State) (x : OrderFields) : s.Keeps (writeOrderOwner x s).state := by
  have hwritten : s.Keeps (s.setOrders (s.ob.orders.put x.number x.order)) := (State.Keeps.refl s).putOrder _ rfl
  unfold writeOrderOwner
  split
  · exact .refl s
  · split
    · exact .refl s
    · split
      · exact .refl s
      · split <;> split <;> [exact .refl s; exact hwritten; exact .refl s; exact hwritten]

theorem deleteOrderOwner_keeps (s : State) (n : Nat) : s.Keeps (deleteOrderOwner n s).state := by
  unfold deleteOrderOwner
  repeat' split
  case h_2.isFalse =>
    refine (State.Keeps.refl s).setOrders fun m x hm => ?_
    rw [State.holder, State.setOrders_ob] at hm
    by_cases hmn : m = n
    · simp [hmn, Assoc.find_remove_self] at hm
    · simpa [State.holder, Assoc.find_remove_ne _ hmn] using hm
  all_goals exact .refl s

theorem readOrderOwner_keeps (s : State) (x : Nat × Nat) : s.Keeps (readOrderOwner x s).state := by
  unfold readOrderOwner
  split <;> exact .refl s

theorem State.Keeps.cancelOrder (h : s.Keeps t) {o : Order} (ho : t.ob.orders.find n = some o) : s.Keeps (t.cancelOrder n o) := by
  unfold State.cancelOrder
  split
  case h_1 | h_2 => exact h.modifyOrder n fun _ => .inr rfl
  case h_3 => exact h
  case h_4 =>
    refine .ite (fun _ => h) fun _ => .ite (fun _ => ?_) fun hfree => h.takeFromSession ho fun a => ?_
    · exact (h.modifyOrder n (f := fun o => { o with cancelPending := true }) fun _ => .inl rfl).raiseOn (c := .orderCancelled) _
        (by decide)
    · rw [Bool.not_eq_true, List.any_eq_false] at hfree
      exact Bool.eq_false_iff.mpr (hfree a (by cases a <;> decide))

theorem cancelOrderOwner_keeps (s : State) (n : Nat) : s.Keeps (cancelOrderOwner n s).state := by
  unfold cancelOrderOwner
  repeat' split
  case h_2 ho => exact (State.Keeps.refl s).cancelOrder ho
  all_goals exact .refl s

theorem writeRecipeOwner_keeps (s : State) (x : RecipeFields) : s.Keeps (writeRecipeOwner x s).state := by
  unfold writeRecipeOwner
  repeat' split
  case h_2.isFalse.isFalse.isFalse => exact s.writeSetting_keeps _ _
  all_goals exact .refl s

theorem State.keeps_takeOut (s : State) (b : Bay) : s.Keeps (s.takeOut b) := by
  have hset : s.Keeps (s.setService b true) := (State.Keeps.refl s).commit _ _
  have hbsc : (s.setService b true).bsc = s.bsc := by simp [State.setService]
  have hquiet : (s.bsc.get b).status ≠ .loading → s.Keeps ((s.setService b true).closeSession b .outOfService) := fun hne =>
    hset.closeSession b _ fun hs => hs.armsIdle (.inl (by rwa [hbsc]))
  unfold State.takeOut
  split
  case h_1 hst => exact hset.moveBay_unheld b _ (by simp [hbsc, hst])
  case h_2 hst | h_3 hst | h_4 hst => exact hquiet (by rw [hst]; decide)
  case h_5 =>
    refine .ite (fun hidle => hset.closeSession b _ fun _ => ?_) fun _ => (hset.modifyBay b).raiseOn _ (by decide)
    simpa [State.setService, State.armsIdle, State.armIdle] using hidle
  case h_6 => exact .refl s

theorem State.keeps_bringIn (s : State) (b : Bay) : s.Keeps (s.bringIn b) := by
  have hset : s.Keeps (s.setService b false) := (State.Keeps.refl s).commit _ _
  exact .ite (fun hout => hset.moveBay_unheld b _ (by simp [State.setService, hout])) fun _ => hset.modifyBay b

theorem setServiceOwner_keeps (s : State) (x : Nat × Nat) : s.Keeps (setServiceOwner x s).state := by
  unfold setServiceOwner
  repeat' split
  case h_1.isFalse.isFalse => exact s.keeps_takeOut _
  case h_2.isFalse.isFalse => exact s.keeps_bringIn _
  all_goals exact .refl s

/-- Laws kept arm by arm. -/
theorem State.Keeps.foldl {f : State → Arm → State} (hf : ∀ t a, s.Keeps t → s.Keeps (f t a)) (h : s.Keeps t) (arms : List Arm) :
    s.Keeps (arms.foldl f t) := by
  induction arms generalizing t with
  | nil => exact h
  | cons a rest ih => exact ih (hf t a h)

theorem officeStopOwner_keeps (s : State) (n : Nat) : s.Keeps (officeStopOwner n s).state := by
  unfold officeStopOwner
  split
  · exact State.Keeps.foldl (fun t a h => .ite (fun _ => h.modifyFc a) fun _ => h.raiseCause a (by decide)) (.refl s) _
  · exact .refl s

theorem officeReleaseOwner_keeps (s : State) (n : Nat) : s.Keeps (officeReleaseOwner n s).state := by
  unfold officeReleaseOwner
  split
  · exact State.Keeps.foldl (fun t a h => .ite (fun _ => h.modifyFc a) fun _ => h) (.refl s) _
  · exact .refl s

theorem State.Keeps.judgeReserve (h : s.Keeps t) (before after : StockRecord) : s.Keeps (t.judgeReserve before after) :=
  h.trans .of_eq

theorem setStockOwner_keeps (s : State) (x : StockFields) : s.Keeps (setStockOwner x s).state := by
  unfold setStockOwner
  dsimp only
  repeat' split
  case h_2.isFalse.isFalse => exact ((State.Keeps.refl s).commit _ _).judgeReserve _ _
  all_goals exact .refl s

theorem readNoteOwner_keeps (s : State) (n : Nat) : s.Keeps (readNoteOwner n s).state := by
  unfold readNoteOwner
  split <;> exact .refl s

theorem releaseNoteOwner_keeps (s : State) (n : Nat) : s.Keeps (releaseNoteOwner n s).state := by
  unfold releaseNoteOwner
  repeat' split
  case h_2.isTrue => exact ((State.Keeps.refl s).commit _ _).takeFreed s
  all_goals exact .refl s

/-! ### The Service requests -/

theorem State.Keeps.logSealed (h : s.Keeps t) (subject : AuditSubject) (changes : List ParameterChange) :
    s.Keeps (t.logSealed subject changes) := h.commit _ _

theorem writeProductOwner_keeps (s : State) (x : ProductFields) : s.Keeps (writeProductOwner x s).state := by
  unfold writeProductOwner
  dsimp only
  repeat' split
  case h_2.isFalse => exact ((State.Keeps.refl s).commit _ _).logSealed _ _
  case isFalse.isFalse => exact s.writeSetting_keeps _ _
  all_goals exact .refl s

theorem State.Keeps.writeArm (h : s.Keeps t) (a : Arm) (new : ArmRecord) : s.Keeps (t.writeArm a new) := by
  unfold State.writeArm
  dsimp only
  split
  · exact (h.commit _ _).modifyFc a
  · exact ((h.commit _ _).logSealed _ _).modifyFc a

theorem writeArmOwner_keeps (s : State) (x : ArmFields) : s.Keeps (writeArmOwner x s).state := by
  unfold writeArmOwner
  repeat' split
  case h_2.isFalse => exact (State.Keeps.refl s).writeArm _ _
  all_goals exact .refl s

theorem writeInjectorOwner_keeps (s : State) (x : InjectorFields) : s.Keeps (writeInjectorOwner x s).state := by
  unfold writeInjectorOwner
  repeat' split
  case h_1.isFalse => exact s.writeSetting_keeps _ _
  all_goals exact .refl s

theorem writePumpOwner_keeps (s : State) (x : Nat × Nat) : s.Keeps (writePumpOwner x s).state := by
  unfold writePumpOwner
  repeat' split
  case h_1.isFalse => exact s.writeSetting_keeps _ _
  all_goals exact .refl s

theorem writeRackOwner_keeps (s : State) (x : RackFields) : s.Keeps (writeRackOwner x s).state := by
  unfold writeRackOwner
  repeat' split
  case h_2.isFalse => exact s.writeSetting_keeps _ _
  all_goals exact .refl s

theorem readAuditOwner_keeps (s : State) (n : Nat) : s.Keeps (readAuditOwner n s).state := by
  unfold readAuditOwner
  split <;> exact .refl s

theorem readBayOwner_keeps (s : State) (n : Nat) : s.Keeps (readBayOwner n s).state := by
  unfold readBayOwner
  split <;> exact .refl s

theorem readArmOwner_keeps (s : State) (n : Nat) : s.Keeps (readArmOwner n s).state := by
  unfold readArmOwner
  split <;> exact .refl s

end Sys2Proof.Machine
end

section
/-! Each event keeps the laws of flow, of the dead-man timers and of the sessions, and with it every step does. -/

namespace Sys2Proof.Machine

-- One after the other: a thread for each of these proofs would pass the memory the check allows.
set_option Elab.async false

variable {s t u : State} {a : Arm} {b : Bay} {n : Nat} {l : Link} {d : DiscreteInput}

/-! ### Links and inputs -/

theorem State.Keeps.respond (h : s.Keeps t) (l : Link) (r : Request) (result : ResultCode) (payload : List Byte) :
    s.Keeps (t.respond l r result payload) := h.trans .of_eq

theorem State.serveUnknown_keeps (s : State) (l : Link) : s.Keeps (s.serveUnknown l) := by
  unfold State.serveUnknown
  split
  case h_1 => exact .ite (fun _ => (State.Keeps.refl s).respond l _ _ _) fun _ => .refl s
  case h_2 | h_3 => exact .refl s

theorem State.Keeps.modifyLink (h : s.Keeps t) (l : Link) (f : StationLink → StationLink) : s.Keeps (t.modifyLink l f) :=
  h.trans .of_eq

theorem State.Keeps.setReceiver (h : s.Keeps t) (l : Link) (r : Receiver) : s.Keeps (t.setReceiver l r) := h.modifyLink l _

theorem State.Keeps.discardFrame (h : s.Keeps t) (l : Link) : s.Keeps (t.discardFrame l) := (h.setReceiver l _).raiseFlag _

theorem State.Keeps.offerFrame (h : s.Keeps t) (l : Link) (r : Request) : s.Keeps (t.offerFrame l r) := by
  refine .ite (fun _ => h) fun _ => ?_
  split
  · exact h.modifyLink l _
  all_goals exact h.raiseFlag _

theorem State.takeCharacter_keeps (s : State) (l : Link) (c : Byte) (stop : Bool) : s.Keeps (s.takeCharacter l c stop) := by
  unfold State.takeCharacter
  split
  · exact .ite (fun _ => (State.Keeps.refl s).setReceiver l _) fun _ => .refl s
  · refine .ite (fun _ => ?_) fun _ => (State.Keeps.refl s).discardFrame l
    unfold State.collect
    split
    · exact (State.Keeps.refl s).setReceiver l _
    · exact (State.Keeps.refl s).discardFrame l
    · exact ((State.Keeps.refl s).setReceiver l _).offerFrame l _

theorem State.gapTimeout_keeps (s : State) (l : Link) : s.Keeps (s.gapTimeout l) := by
  unfold State.gapTimeout
  split
  · exact .refl s
  · exact (State.Keeps.refl s).discardFrame l

theorem State.responseSent_keeps (s : State) (l : Link) : s.Keeps (s.responseSent l) := by
  unfold State.responseSent
  split
  · exact (State.Keeps.refl s).modifyLink l _
  all_goals exact .refl s

/-- An input whose accepted level stays leaves every loading permissive condition as it was. -/
theorem State.Keeps.setInput (h : s.Keeps t) (d : DiscreteInput) (x : InputState)
    (hx : x.accepted = (t.ic.inputs.get d).accepted) : s.Keeps (t.setInput d x) := by
  have haccepts : ∀ i, (t.setInput d x).accepts i = t.accepts i := fun i => by
    by_cases hi : i = d
    · simp [State.accepts, hi, hx]
    · simp [State.accepts, PerInput.get_set_of_ne _ _ hi]
  refine h.trans (.of_same ⟨fun _ => rfl, fun a => ?_, fun _ => rfl⟩ .of_eq)
  simp only [State.loadingPermissive, State.permissivesPresent, State.notParked, State.stopInactive, haccepts]

/-- A level accepted takes the loading permissive condition from an arm only where it is the lost level of an input of that arm. -/
theorem State.loadingPermissive_reported (h : (s.ic.inputs.get d).line = .energized
      ∨ (∀ p, d ≠ .permissive p a.bay) ∧ d ≠ .parked a ∧ d ≠ .emergencyStop) (hpresent : s.loadingPermissive a = true) :
    (s.reported d).loadingPermissive a = true := by
  have hkept : ∀ i, s.accepts i = true → ((s.ic.inputs.get d).line = .energized ∨ d ≠ i) → (s.reported d).accepts i = true := by
    rintro i hi hline
    by_cases hid : d = i
    · subst hid
      exact State.accepts_reported (hline.resolve_right (not_not.mpr rfl))
    · simpa [State.reported, State.settled, State.accepts, PerInput.get_set_of_ne _ _ (Ne.symm hid)] using hi
  rw [State.loadingPermissive_iff] at hpresent ⊢
  obtain ⟨hbay, hparked, hstop⟩ := hpresent
  exact ⟨fun p => hkept _ (hbay p) (h.imp_right fun hd => hd.1 p), hkept _ hparked (h.imp_right fun hd => hd.2.1),
    hkept _ hstop (h.imp_right fun hd => hd.2.2)⟩

theorem State.Keeps.buttonAccepted (h : s.Keeps t) (b : Bay) (first : Bool) (level : LineLevel) :
    s.Keeps (t.buttonAccepted b first level) := by
  have hset : ∀ x, s.Keeps (t.setButton b x) := fun x => by
    refine h.trans (.of_same ⟨fun _ => rfl, fun _ => rfl, fun _ => rfl⟩ .of_eq)
  unfold State.buttonAccepted
  split
  case h_2 => exact (hset _).deadmanPress b
  all_goals exact hset _

theorem State.Keeps.emptyQueues (h : s.Keeps t) : s.Keeps t.emptyQueues :=
  h.trans (.of_same .of_eq (State.SameOrders.refl t).emptyQueues)

theorem State.Keeps.cutShots (h : s.Keeps t) (cut : Channel → Bool) : s.Keeps (t.cutShots cut) := h.trans .of_eq

/-- A level accepted that is lost to the arms named at most, and a cause raised on these (R122). -/
theorem State.keeps_lost {arms : List Arm} {c : StopCause} {v : State} (hc : c ≠ .deadman)
    (hothers : ∀ a ∉ arms, (∀ p, d ≠ .permissive p a.bay) ∧ d ≠ .parked a ∧ d ≠ .emergencyStop)
    (hic : v.ic = (s.reported d).ic := by simp only [State.cutShots_ic]) (hfc : v.fc = s.fc := by simp [State.reported, State.settled])
    (hbsc : v.bsc = s.bsc := by simp [State.reported, State.settled])
    (hrunning : v.running = s.running := by simp [State.reported, State.settled])
    (hob : v.ob = s.ob := by simp [State.reported, State.settled]) : s.Keeps (v.raiseOn arms c) := by
  refine State.Keeps.interrupt (.refl s) hfc hbsc hrunning hob (fun a ha hpresent => ?_) hc
  rw [State.loadingPermissive_of_ic hic]
  exact State.loadingPermissive_reported (.inr (hothers a ha)) hpresent

theorem State.keeps_debounce (s : State) (d : DiscreteInput) : s.Keeps (s.debounce d) := by
  by_cases hsame : (s.ic.inputs.get d).accepted = (s.ic.inputs.get d).line
  · rw [State.debounce_of_same hsame]
    exact (State.Keeps.refl s).setInput d _ hsame.symm
  · have hreported : ((s.ic.inputs.get d).line = .energized
        ∨ ∀ a, (∀ p, d ≠ .permissive p a.bay) ∧ d ≠ .parked a ∧ d ≠ .emergencyStop) → s.Keeps (s.reported d) := fun h =>
      State.Keeps.interrupt (arms := []) (c := .powerFail) (.refl s) rfl rfl rfl rfl
        (fun a _ => State.loadingPermissive_reported (h.imp_right fun hd => hd a)) (by decide)
    rw [State.debounce_of_change hsame]
    unfold State.changeAccepted
    split
    case h_1 p b _ =>
      refine State.keeps_lost (d := .permissive p b) (v := (s.reported _).cutShots _) (by decide) fun a ha =>
        ⟨fun q hq => ?_, by simp, by simp⟩
      rw [DiscreteInput.permissive.injEq] at hq
      exact ha (Bay.mem_arms_iff.mpr hq.2.symm)
    case h_3 a _ =>
      refine State.keeps_lost (d := .parked a) (v := s.reported _) (arms := [a]) (by decide) fun x hx =>
        ⟨by simp, fun h => ?_, by simp⟩
      rw [DiscreteInput.parked.injEq] at h
      exact hx (by simp [h])
    case h_5 =>
      have hstopped : s.Keeps ((s.reported .emergencyStop).raiseOn Arm.all .emergencyStop) :=
        State.keeps_lost (d := .emergencyStop) (by decide) (fun a ha => absurd (by cases a <;> decide) ha) rfl
      exact (hstopped.cutShots _).emptyQueues
    case h_6 hline => exact (hreported (.inl hline)).trans .of_eq
    case h_7 => exact (hreported (.inr (by simp))).buttonAccepted _ _ _
    case h_2 hline | h_4 hline => exact hreported (.inl hline)
    case h_8 => exact hreported (.inr (by simp))

/-! ### Additive pulses, intervals and pumps -/

theorem State.Keeps.modifyLine (h : s.Keeps t) (c : Channel) (f : LineRecord → LineRecord) : s.Keeps (t.modifyLine c f) :=
  h.trans (.of_same .of_eq ((State.SameOrders.refl t).modifyLine c f))

theorem State.Keeps.modifyChannel (h : s.Keeps t) (c : Channel) (f : ChannelState → ChannelState) : s.Keeps (t.modifyChannel c f) :=
  h.trans .of_eq

theorem State.Keeps.modifyPump (h : s.Keeps t) (p : Additive) (f : PumpState → PumpState) : s.Keeps (t.modifyPump p f) :=
  h.trans .of_eq

theorem State.Keeps.endShot (h : s.Keeps t) (p : Additive) : s.Keeps (t.endShot p) := h.trans .of_eq

theorem State.Keeps.serve (h : s.Keeps t) (p : Additive) : s.Keeps (t.serve p) := h.trans .of_eq

theorem State.Keeps.setStockOf (h : s.Keeps t) (p : Additive) (x : StockRecord) : s.Keeps (t.setStockOf p x) := h.trans .of_eq

theorem State.Keeps.draw (h : s.Keeps t) (p : Additive) (ml : Nat) : s.Keeps (t.draw p ml) :=
  .ite (fun _ => ((h.setStockOf p _).judgeReserve _ _).raiseOn _ (by decide)) fun _ => (h.setStockOf p _).judgeReserve _ _

theorem State.Keeps.takePulse (h : s.Keeps t) (c : Channel) : s.Keeps (t.takePulse c) := by
  have hcounted : ∀ (v : State) (p : Additive) (ml : Nat), s.Keeps v → s.Keeps (v.countShotPulse p c ml) := fun v p ml hv =>
    .ite (fun _ => (((hv.modifyPump p _).modifyLine c _).endShot p).modifyChannel c _) fun _ => (hv.modifyPump p _).modifyLine c _
  have hleak : ∀ (v : State) (ml : Nat), s.Keeps v → s.Keeps (v.countLeak c ml) := fun v ml hv => hv.modifyChannel c _
  have hresidue := h.modifyChannel c fun k => { k with residue := pulseResidue (t.wc.injectors.get c).kMilli k.residue }
  unfold State.takePulse
  dsimp only
  split <;> split
  · exact (hcounted _ _ _ hresidue).draw _ _
  · exact (hleak _ _ hresidue).draw _ _
  · exact hcounted _ _ _ hresidue
  · exact hleak _ _ hresidue

/-- Pacing raises causes of dosing alone (R136). -/
theorem State.pace_causes (s : State) (a : Arm) : StopCause.deadman ∉ (s.pace a).2 := by
  have hline : ∀ (v : State) (g : Nat) (x : LineRecord), StopCause.deadman ∉ (v.paceLine g x).2 := by
    intro v g x
    unfold State.paceLine
    split
    · simp
    · dsimp only
      split <;> simp
  have hlines : ∀ (g : Nat) (lines : List LineRecord) (v : State), StopCause.deadman ∉ (v.paceLines g lines).2 := by
    intro g lines
    induction lines with
    | nil => exact fun _ => List.not_mem_nil
    | cons x rest ih =>
      intro v hmem
      rcases List.mem_append.mp hmem with h | h
      · exact hline v g x h
      · exact ih _ h
  unfold State.pace
  repeat' split
  · exact hlines _ _ s
  all_goals exact List.not_mem_nil

/-- The computation raises causes of metering alone (R96, R97, R104). -/
theorem State.meterResult_causes (s : State) (a : Arm) (h : Handover) : StopCause.deadman ∉ (s.meterResult a h).causes := by
  have hpart : ∀ (x : MeteringPart) (p : MeterParameters) (ml : Nat), StopCause.deadman ∉ x.causes p h ml := by
    intro x p ml hmem
    unfold MeteringPart.causes at hmem
    rcases List.mem_append.mp hmem with hm | hm <;> split at hm <;> simp at hm
  unfold State.meterResult meterInterval
  dsimp only
  split
  · exact hpart _ _ _
  · exact List.not_mem_nil

theorem State.Keeps.pace (h : s.Keeps t) (a : Arm) : s.Keeps (t.pace a).1 :=
  h.trans (.of_same .of_eq ((State.SameOrders.refl t).pace a))

theorem State.keeps_intervalEnd (s : State) (a : Arm) (raw : Nat) (order : IntervalOrder) :
    s.Keeps (s.intervalEnd a raw order) := by
  have htaken : s.Keeps (s.takeHandover a (s.handoverOf a raw)) :=
    .of_same ⟨fun _ => rfl, fun _ => rfl, fun _ => rfl⟩ .of_eq
  have hcauses := (s.takeHandover a (s.handoverOf a raw)).meterResult_causes a (s.handoverOf a raw)
  unfold State.intervalEnd
  dsimp only
  generalize (s.takeHandover a (s.handoverOf a raw)).meterResult a (s.handoverOf a raw) = r at hcauses ⊢
  have hcredited : s.Keeps ((s.takeHandover a (s.handoverOf a raw)).credit a r) :=
    htaken.trans (.of_same .of_eq ((State.SameOrders.refl _).credit a r))
  cases order
  case flowFirst =>
    have hflow := hcredited.flowInterval a r.forward hcauses
    exact (hflow.pace a).raiseCauses a (State.pace_causes _ a)
  case dosingFirst => exact ((hcredited.pace a).raiseCauses a (State.pace_causes _ a)).flowInterval a _ hcauses
  case leavingLast => exact ((hcredited.pace a).flowInterval a _ hcauses).raiseCauses a (State.pace_causes _ a)

theorem State.keeps_shotShort (s : State) (p : Additive) : s.Keeps (s.shotShort p) := by
  have hended := (State.Keeps.refl s).endShot p
  unfold State.shotShort
  split
  case h_1 c _ =>
    dsimp only
    refine .ite (fun _ => .ite (fun _ => hended.modifyChannel c _) fun _ => ?_) fun _ => hended.modifyChannel c _
    exact (hended.modifyChannel c _).raiseCause _ (by decide)
  all_goals exact .refl s

/-! ### Store, supply and restoration -/

theorem State.Keeps.setNvc (h : s.Keeps t) (x : NvController) : s.Keeps (t.setNvc x) := h.trans .of_eq

theorem State.Keeps.advanceNv (h : s.Keeps t) : s.Keeps t.advanceNv := h.trans .of_eq

theorem State.keeps_writeComplete (s : State) : s.Keeps s.writeComplete := by
  unfold State.writeComplete
  split
  · exact (((State.Keeps.refl s).setNvc _).advanceNv).takeFreed s
  · exact .refl s

theorem State.keeps_checkpointComplete (s : State) : s.Keeps s.checkpointComplete := by
  unfold State.checkpointComplete
  split
  · exact ((State.Keeps.refl s).setNvc _).advanceNv
  all_goals exact .refl s

theorem State.keeps_areaCleared (s : State) : s.Keeps s.areaCleared := by
  unfold State.areaCleared
  split
  · exact (((State.Keeps.refl s).setNvc _).advanceNv).takeFreed s
  all_goals exact .refl s

/-- The inputs' accepted levels stay, and all that the laws speak of. -/
theorem State.Keeps.of_inputs (fc : t.fc = s.fc := by rfl) (inputs : t.ic.inputs = s.ic.inputs := by rfl)
    (bsc : t.bsc = s.bsc := by rfl) (running : t.running = s.running := by rfl) (ob : t.ob = s.ob := by rfl) : s.Keeps t := by
  refine .of_same ⟨fun a => by rw [fc], fun a => ?_, fun b => by rw [bsc]⟩ (.of_eq running bsc ob)
  simp only [State.loadingPermissive, State.permissivesPresent, State.notParked, State.stopInactive, State.accepts, inputs]

theorem State.Keeps.holdHandOvers (h : s.Keeps t) : s.Keeps t.holdHandOvers := h.trans .of_inputs

theorem State.keeps_warn (s : State) (begun : PerLink Bool) : s.Keeps (s.warn begun) := by
  have hdropped : s.Keeps ((s.setWarning true).dropUnanswered begun) := .of_inputs
  have hcut := ((hdropped.raiseOn Arm.all (c := .powerFail) (by decide)).cutShots fun _ => true).emptyQueues
  exact (hcut.holdHandOvers.setNvc _).advanceNv

theorem State.keeps_endWarning (s : State) : s.Keeps s.endWarning := by
  have hover : s.Keeps (s.setWarning false) := .of_inputs
  have hserved : s.Keeps (s.setWarning false).serveAll := hover.trans .of_eq
  exact ((hserved.setNvc _).advanceNv).takeFreed s

theorem State.keeps_completeRestoration (s : State) : s.Keeps s.completeRestoration :=
  State.Keeps.advanceNv .of_inputs

/-! ### Every command -/

/-- Every request keeps the laws. -/
theorem exec_request_keeps {c : Instr} {x : Link × Byte × RequestClass} (h : c.request = some x) (s : State) :
    ∃ t, exec c s = .next t ∧ s.Keeps t := by
  cases c <;> cases h <;> refine ⟨_, rfl, ?_⟩
  case identify | readStatus | readClock | readStock => exact State.serveRequest_keepsLaws fun _ => .refl s
  case readBay => exact State.serveRequest_keepsLaws (readBayOwner_keeps s)
  case readArm => exact State.serveRequest_keepsLaws (readArmOwner_keeps s)
  case setClock => exact State.serveRequest_keepsLaws fun _ => .of_inputs
  case card l => exact State.serveBay_keepsLaws fun b y t => .of_keeps (cardOwner_keeps t l b y)
  case pin l => exact State.serveBay_keepsLaws fun b y t => .of_keeps (pinOwner_keeps t l b y)
  case selectOrder l => exact State.serveBay_keepsLaws fun b y t => .of_keeps (selectOwner_keeps t l b y)
  case markFirst l | markLast l | exclude l =>
    exact State.serveBay_keepsLaws fun b y t => .of_keeps (planningOwner_keeps t l b _)
  case commitPlan l => exact State.serveBay_keepsLaws fun b _ t => .of_keeps (commitOwner_keeps t l b)
  case newPlan l => exact State.serveBay_keepsLaws fun b _ t => .of_keeps (newPlanOwner_keeps t l b)
  case start l => exact State.serveBay_keepsLaws fun b y t => startOwner_keeps t l b y
  case stop l =>
    exact State.serveBay_keepsLaws fun b y t => armOwner_keeps t l b y fun a _ _ => .of_keeps (stopFlow_keeps t a)
  case resume l =>
    exact State.serveBay_keepsLaws fun b y t => armOwner_keeps t l b y fun a hbay hloading => by
      subst hbay
      exact resumeFlow_keeps t a hloading
  case ackCause l => exact State.serveBay_keepsLaws fun b y t => ackOwner_keeps t l b y
  case finish l =>
    exact State.serveBay_keepsLaws fun b y t => armOwner_keeps t l b y fun a _ _ => .of_keeps (finishFlow_keeps t a)
  case signOff => exact State.serveBay_keepsLaws fun b _ t => .of_keeps (signOffOwner_keeps t b)
  case writeDriver => exact State.serveRequest_keepsLaws (writeDriverOwner_keeps s)
  case deleteDriver => exact State.serveRequest_keepsLaws (deleteDriverOwner_keeps s)
  case resetPin => exact State.serveRequest_keepsLaws (resetPinOwner_keeps s)
  case readDriver => exact State.serveRequest_keepsLaws (readDriverOwner_keeps s)
  case writeOrder => exact State.serveRequest_keepsLaws (writeOrderOwner_keeps s)
  case deleteOrder => exact State.serveRequest_keepsLaws (deleteOrderOwner_keeps s)
  case readOrder => exact State.serveRequest_keepsLaws (readOrderOwner_keeps s)
  case cancelOrder => exact State.serveRequest_keepsLaws (cancelOrderOwner_keeps s)
  case writeRecipe => exact State.serveRequest_keepsLaws (writeRecipeOwner_keeps s)
  case setBayService => exact State.serveRequest_keepsLaws (setServiceOwner_keeps s)
  case officeStop => exact State.serveRequest_keepsLaws (officeStopOwner_keeps s)
  case officeRelease => exact State.serveRequest_keepsLaws (officeReleaseOwner_keeps s)
  case setStock => exact State.serveRequest_keepsLaws (setStockOwner_keeps s)
  case readNote => exact State.serveRequest_keepsLaws (readNoteOwner_keeps s)
  case releaseNote => exact State.serveRequest_keepsLaws (releaseNoteOwner_keeps s)
  case writeProduct => exact State.serveRequest_keepsLaws (writeProductOwner_keeps s)
  case writeArm => exact State.serveRequest_keepsLaws (writeArmOwner_keeps s)
  case writeInjector => exact State.serveRequest_keepsLaws (writeInjectorOwner_keeps s)
  case writePump => exact State.serveRequest_keepsLaws (writePumpOwner_keeps s)
  case writeRack => exact State.serveRequest_keepsLaws (writeRackOwner_keeps s)
  case readAudit => exact State.serveRequest_keepsLaws (readAuditOwner_keeps s)

/-- Every event keeps the laws. -/
theorem exec_event_keeps {c : Instr} (h : c.request = none) (s : State) : ∃ t, exec c s = .next t ∧ s.Keeps t := by
  have acts : ∀ (p : Prop) [Decidable p] (t : State), (p → s.Keeps t) → s.Keeps (if p then t else s) :=
    fun p _ t ht => .ite ht fun _ => .refl s
  cases c <;> cases h <;> refine ⟨_, rfl, ?_⟩
  case unknownRequest l => exact s.serveUnknown_keeps l
  case characterReceived => exact acts _ _ fun _ => s.takeCharacter_keeps _ _ _
  case gapTimeout => exact acts _ _ fun _ => s.gapTimeout_keeps _
  case responseSent => exact acts _ _ fun _ => s.responseSent_keeps _
  case discreteLineChange d level =>
    refine acts _ _ fun _ => (State.Keeps.refl s).setInput d _ ?_
    unfold InputState.lineMoved
    split <;> rfl
  case debounceExpiry => exact acts _ _ fun _ => s.keeps_debounce _
  case stuckTimerExpiry => exact acts _ _ fun _ => State.Keeps.raiseFlag .of_inputs _
  case productMeterEdge => exact acts _ _ fun _ => .of_inputs
  case additivePulse c => exact acts _ _ fun _ => State.Keeps.takePulse .of_inputs c
  case meteringIntervalEnd => exact acts _ _ fun _ => s.keeps_intervalEnd _ _ _
  case shotTimerExpiry => exact acts _ _ fun _ => s.keeps_shotShort _
  case restTimerExpiry => exact acts _ _ fun _ => ((State.Keeps.refl s).modifyPump _ _).serve _
  case closingTimerExpiry a => exact acts _ _ fun h => (State.Keeps.refl s).endClosing a (by simp_all)
  case noFlowTimerExpiry a => exact acts _ _ fun _ => ((State.Keeps.refl s).modifyFc a).raiseCause a (by decide)
  case pauseTimerExpiry a => exact acts _ _ fun h => (State.Keeps.refl s).endPaused a _ (by simp_all)
  case pinTimerExpiry b => exact acts _ _ fun h => (State.Keeps.refl s).abandonIdent b (by simp_all)
  case inactivityTimerExpiry b =>
    refine acts _ _ fun h => (State.Keeps.refl s).closeSession b _ fun hs => hs.armsIdle (.inr ?_)
    rw [Bool.and_eq_true] at h
    exact Option.isSome_iff_ne_none.mp h.2
  case deadmanTimerExpiry x => exact acts _ _ fun _ => s.keeps_deadmanExpired x
  case handOver a => exact acts _ _ fun h => (State.Keeps.refl s).handOver a (State.handOverReady_ending h)
  case nvWriteComplete => exact acts _ _ fun _ => s.keeps_writeComplete
  case checkpointWriteComplete => exact acts _ _ fun _ => s.keeps_checkpointComplete
  case checkpointAreaCleared => exact acts _ _ fun _ => s.keeps_areaCleared
  case powerFailWarningAssert begun => exact acts _ _ fun _ => s.keeps_warn begun
  case powerFailWarningDeassert => exact acts _ _ fun _ => s.keeps_endWarning
  case rackClockTick => exact .of_inputs
  case resetAsserted => exact .ite (fun _ => .refl s) fun _ => .of_inputs
  case externalReset lines => exact .ite (fun _ => .refl s) fun _ => s.keeps_leaveReset lines true
  case powerOnReset lines => exact s.keeps_leaveReset lines _
  case restorationComplete => exact acts _ _ fun _ => s.keeps_completeRestoration
  case mainPowerLoss => exact .of_inputs
  case backupSupplyRanFlat => exact acts _ _ fun _ => .of_inputs

/-- Every step keeps the laws. -/
theorem step_keeps (h : step s = .next t) : s.Keeps t := by
  unfold step at h
  split at h
  case h_1 => cases h; exact .refl s
  case h_2 c rest _ =>
    obtain ⟨t', ht', hkeeps⟩ : ∃ t', exec c { s with pending := rest } = .next t' ∧ State.Keeps { s with pending := rest } t' := by
      cases hrequest : c.request with
      | some x => exact exec_request_keeps hrequest _
      | none => exact exec_event_keeps hrequest _
    cases ht'.symm.trans h
    exact State.Keeps.trans .of_inputs hkeeps

/-- Settles O54: every step keeps the valves and the dead-man timers in step with the flow. -/
theorem flowAndDeadmanLawsAreKept : Obligations.FlowAndDeadmanLawsAreKept :=
  fun _ _ hflow hdeadman h => (step_keeps h).flow hflow hdeadman

/-- Settles O55: every step keeps a working arm within its LOADING bay's session. -/
theorem sessionLawIsKept : Obligations.SessionLawIsKept := fun _ _ hs h => (step_keeps h).sessions hs

end Sys2Proof.Machine
end


section
/-! Bay requests out of state and out of step: STATE by the bay's state, and the selection of PLANNING (R75 to R78). -/

namespace Sys2Proof.Machine

-- One after the other: a thread for each of these proofs would pass the memory the check allows.
set_option Elab.async false

variable {α : Type} {s u : State} {l : Link} {b : Bay} {r : Request} {code : Byte} {form : Walk α} {x : α} {c n : Nat}
  {owner : Bay → α → State → Answer} {res : ResultCode} {sel : Selection} {judge : Selection → Except ResultCode Selection}

/-! ### The state a Bay request needs (R75) -/

theorem Walk.runs_formTwoBytes : Walk.Runs formTwoBytes 2 :=
  Walk.runs_bind (Walk.runs_nat 1) fun _ => Walk.runs_bind (Walk.runs_nat 1) fun _ => Walk.runs_pure _

/-- A frame whose payload has the length its form takes carries some fields. -/
theorem State.asksAs_of_length {role : Role} (hrun : s.condition = .running) (hwarn : s.ic.warning = false)
    (hslot : (s.lc.links.get l).slot = .pending r) (hcode : r.code = code) (hlen : r.payload.length = n)
    (hrole : (s.lc.links.get l).role = role) (hform : Walk.Runs form n) : ∃ x, s.asksAs role l r code form x := by
  obtain ⟨x, hx⟩ := Walk.walkPayload_of_length hlen hform
  exact ⟨x, ⟨hrun, hwarn, hslot, hcode, hx⟩, hrole⟩

/-- A Bay request that resets the selection and is refused: the reset, and PLAN_RESET. -/
theorem State.answers_of_reset {ans : Answer} {pl : List Byte} (h : s.asksAs (.panel b) l r code form x)
    (ha : owner b x (s.setPlanReset l false) = ans) (hr : ans.result = res) (hres : res ≠ .ok) (hp : ans.payload = pl)
    (hst : ans.state = (s.setPlanReset l false).resetSelection b l) :
    s.answers (.next (s.serveBay l code form owner)) l r res pl true []
      { s with bsc := s.bsc.set b { s.bsc.get b with selection := { first := none, last := none, excluded := [] } } } := by
  refine State.answers_of_bay h.1 h.2 ha hr hp ?_ ((if_neg (by rwa [hr])).trans (by rw [hst]; rfl))
  exact State.linked_congr (State.linked_setPlanReset (State.linked_setPlanReset (State.linked_refl s l))) (by rw [hst]; rfl)

/-- A Bay request refused for the bay's state, of those that R78 names: in PLANNING it resets the selection. -/
theorem State.answers_of_bayState (h : s.asksAs (.panel b) l r code form x)
    (ha : owner b x (s.setPlanReset l false) = (s.setPlanReset l false).refuseBayState b l) :
    s.answers (.next (s.serveBay l code form owner)) l r .state [] (decide ((s.bsc.get b).status = .planning)) []
      (if (s.bsc.get b).status = .planning then
        { s with bsc := s.bsc.set b { s.bsc.get b with selection := { first := none, last := none, excluded := [] } } }
      else s) := by
  by_cases hst : (s.bsc.get b).status = .planning
  · rw [if_pos hst, decide_eq_true hst]
    exact State.answers_of_reset h (ha.trans (if_pos hst)) rfl (by decide) rfl rfl
  · rw [if_neg hst, decide_eq_false hst]
    exact State.replies_of_bay h (by decide) (ha.trans (if_neg hst))

theorem selectOwner_of_state (hst : (s.bsc.get b).status ≠ .signed ∧ (s.bsc.get b).status ≠ .planning) :
    selectOwner l b n s = s.refuse .state := by
  unfold selectOwner
  split
  case h_1 h => exact absurd h hst.1
  case h_2 h => exact absurd h hst.2
  all_goals rfl

theorem armOwner_of_state {flow : Arm → State → Answer} (hst : (s.bsc.get b).status ≠ .loading) :
    armOwner l b n flow s = s.refuseBayState b l := if_pos hst

/-- Settles O8: each Bay request tests the bay's state first, and refuses by it, with the reset of R78 or without. -/
theorem bayRequestOutOfStateIsRefused : Obligations.BayRequestOutOfStateIsRefused := by
  intro c l b code n r s hreq hlen hrun hwarn hslot hcode hpayload hrole
  have hasks : ∀ {α : Type} {form : Walk α} {m : Nat}, c.fixedLength = some m → Walk.Runs form m →
      ∃ x, s.asksAs (.panel b) l r code form x := fun hm hform =>
    State.asksAs_of_length hrun hwarn hslot hcode (hpayload.trans (Option.some.inj (hlen.symm.trans hm))) hrole hform
  refine ⟨?_, ?_⟩
  · rintro (⟨rfl, hst⟩ | ⟨rfl, hst⟩ | ⟨hc, hst⟩)
    · cases hreq
      obtain ⟨x, h⟩ := hasks rfl (Walk.runs_nat 4)
      exact State.answers_of_bayState h (if_pos hst)
    · cases hreq
      obtain ⟨x, h⟩ := hasks rfl Walk.runs_pin
      exact State.answers_of_bayState h (if_pos hst)
    · have hc : c = .newPlan l ∨ (c = .start l ∨ c = .ackCause l) ∨ (c = .stop l ∨ c = .resume l ∨ c = .finish l) := by
        simp only [List.mem_cons, List.not_mem_nil, or_false] at hc
        tauto
      rcases hc with rfl | (rfl | rfl) | (rfl | rfl | rfl) <;> cases hreq
      · obtain ⟨x, h⟩ := hasks rfl (Walk.runs_pure ())
        exact State.answers_of_bayState h (if_pos hst)
      iterate 2
        obtain ⟨x, h⟩ := hasks rfl Walk.runs_formTwoBytes
        exact State.answers_of_bayState h (if_pos hst)
      all_goals
        obtain ⟨x, h⟩ := hasks rfl (Walk.runs_nat 1)
        exact State.answers_of_bayState h (armOwner_of_state hst)
  · rintro hc hplanning
    rcases hc with ⟨rfl, hsigned⟩ | hc
    · cases hreq
      obtain ⟨x, h⟩ := hasks rfl (Walk.runs_nat 4)
      exact State.replies_of_bay h (by decide) (selectOwner_of_state (s := s.setPlanReset l false) ⟨hsigned, hplanning⟩)
    · simp only [List.mem_cons, List.not_mem_nil, or_false] at hc
      rcases hc with rfl | rfl | rfl | rfl <;> cases hreq
      iterate 3
        obtain ⟨x, h⟩ := hasks rfl (Walk.runs_nat 1)
        exact State.replies_of_bay h (by decide) (if_pos hplanning)
      · obtain ⟨x, h⟩ := hasks rfl (Walk.runs_pure ())
        exact State.replies_of_bay h (by decide) (if_pos hplanning)

/-! ### The selection (R77, R78) -/

theorem compartmentNumberOk_iff : compartmentNumberOk c = true ↔ 1 ≤ c ∧ c ≤ 8 := within_iff

theorem compartmentNumberOk_eq_false (hc : c < 1 ∨ 8 < c) : compartmentNumberOk c = false := by
  rw [← Bool.not_eq_true, compartmentNumberOk_iff]
  omega

section Judged

theorem Selection.markFirst_of_range (hc : c < 1 ∨ 8 < c) : sel.markFirst c = .error .range := by
  rw [Selection.markFirst, compartmentNumberOk_eq_false hc]
  rfl

theorem Selection.markLast_of_range (hc : c < 1 ∨ 8 < c) : sel.markLast c = .error .range := by
  rw [Selection.markLast, compartmentNumberOk_eq_false hc]
  rfl

theorem Selection.exclude_of_range (hc : c < 1 ∨ 8 < c) : sel.exclude c = .error .range := by
  rw [Selection.exclude, compartmentNumberOk_eq_false hc]
  rfl

variable (hc : 1 ≤ c ∧ c ≤ 8)
include hc

theorem Selection.markFirst_of_number :
    sel.markFirst c = if sel.first = none then .ok { sel with first := some c } else .error .sequence := by
  rw [Selection.markFirst, compartmentNumberOk_iff.mpr hc, if_neg (by decide)]
  cases sel.first <;> rfl

theorem Selection.markLast_of_marked {f : Nat} (hf : sel.first = some f) (ht : sel.last = none) :
    sel.markLast c = if f ≤ c then .ok { sel with last := some c } else .error .sequence := by
  rw [Selection.markLast, compartmentNumberOk_iff.mpr hc, if_neg (by decide), hf, ht]

theorem Selection.markLast_of_sequence (h : sel.first = none ∨ sel.last ≠ none ∨ ∃ f, sel.first = some f ∧ c < f) :
    sel.markLast c = .error .sequence := by
  rw [Selection.markLast, compartmentNumberOk_iff.mpr hc, if_neg (by decide)]
  split
  case h_1 f hf ht =>
    refine if_neg ?_
    rintro hle
    simp only [hf, ht, ne_eq, not_true_eq_false, Option.some.injEq, false_or, reduceCtorEq] at h
    obtain ⟨_, rfl, hlt⟩ := h
    omega
  all_goals rfl

/-- EXCLUDE in the range marked phase, check by check (R77). -/
theorem Selection.exclude_of_marked {f t : Nat} (hf : sel.first = some f) (ht : sel.last = some t) :
    sel.exclude c =
      if ¬(f ≤ c ∧ c ≤ t) then .error .sequence
      else if c ∈ sel.excluded then .ok sel
      else if 6 ≤ sel.excluded.length then .error .sequence
      else .ok { sel with excluded := sel.excluded ++ [c] } := by
  rw [Selection.exclude, compartmentNumberOk_iff.mpr hc, if_neg (by decide), hf, ht]
  simp only [Bool.not_eq_true', ← Bool.not_eq_true, within_iff, List.contains_iff_mem]

theorem Selection.exclude_of_sequence
    (h : sel.first = none ∨ sel.last = none ∨ (∃ f, sel.first = some f ∧ c < f) ∨ (∃ t, sel.last = some t ∧ t < c)
      ∨ (c ∉ sel.excluded ∧ 6 ≤ sel.excluded.length)) :
    sel.exclude c = .error .sequence := by
  cases hf : sel.first with
  | none => rw [Selection.exclude, compartmentNumberOk_iff.mpr hc, if_neg (by decide), hf]
  | some f =>
    cases ht : sel.last with
    | none => rw [Selection.exclude, compartmentNumberOk_iff.mpr hc, if_neg (by decide), hf, ht]
    | some t =>
      rw [Selection.exclude_of_marked hc hf ht]
      split
      · rfl
      · rename_i hwithin
        simp only [hf, ht, Option.some.injEq, exists_eq_left', reduceCtorEq, false_or] at h
        obtain ⟨hnew, hfull⟩ : c ∉ sel.excluded ∧ 6 ≤ sel.excluded.length := by
          rcases h with h | h | h
          · omega
          · omega
          · exact h
        rw [if_neg hnew, if_pos hfull]

end Judged

theorem planningOwner_of_planning (hst : (s.bsc.get b).status = .planning) :
    planningOwner l b judge s =
      match judge (s.bsc.get b).selection with
      | .ok sel => (s.modifyBay b fun y => { y with selection := sel }).accept []
      | .error res => (s.resetSelection b l).refuse res := if_neg (not_not.mpr hst)

/-- A planning request in step: OK, with the selection it makes. -/
theorem State.answers_of_selected (h : s.asksAs (.panel b) l r code form x) (hst : (s.bsc.get b).status = .planning)
    (howner : owner b x = planningOwner l b judge) (hjudge : judge (s.bsc.get b).selection = .ok sel) :
    s.answers (.next (s.serveBay l code form owner)) l r .ok [] false []
      { s with
        bsc := s.bsc.set b
          { s.bsc.get b with
            selection := sel
            inactivityTimer := if s.armsIdle b then some 300000 else none } } := by
  have ha : owner b x (s.setPlanReset l false) =
      ((s.setPlanReset l false).modifyBay b fun y => { y with selection := sel }).accept [] := by
    have hjudge : judge ((s.setPlanReset l false).bsc.get b).selection = .ok sel := hjudge
    rw [howner, planningOwner_of_planning (s := s.setPlanReset l false) hst, hjudge]
  refine State.answers_of_bay h.1 h.2 ha rfl rfl
    (State.linked_congr (State.linked_setPlanReset (State.linked_refl s l)) rfl)
    ((if_pos rfl).trans ((State.refreshInactivity_of_signedIn ?_).trans ?_))
  · simp [State.accept, State.setPlanReset, State.modifyLink, hst, BayStatus.signedIn]
  · cases b <;> rfl

/-- A planning request out of range or out of step: the refusal, with the selection reset. -/
theorem State.answers_of_unselected (h : s.asksAs (.panel b) l r code form x) (hst : (s.bsc.get b).status = .planning)
    (howner : owner b x = planningOwner l b judge) (hjudge : judge (s.bsc.get b).selection = .error res) (hres : res ≠ .ok) :
    s.answers (.next (s.serveBay l code form owner)) l r res [] true []
      { s with bsc := s.bsc.set b { s.bsc.get b with selection := { first := none, last := none, excluded := [] } } } := by
  have ha : owner b x (s.setPlanReset l false) = ((s.setPlanReset l false).resetSelection b l).refuse res := by
    have hjudge : judge ((s.setPlanReset l false).bsc.get b).selection = .error res := hjudge
    rw [howner, planningOwner_of_planning (s := s.setPlanReset l false) hst, hjudge]
  exact State.answers_of_reset h ha rfl hres rfl rfl

theorem commitOwner_of_sequence (hst : (s.bsc.get b).status = .planning)
    (h : (s.bsc.get b).selection.first = none ∨ (s.bsc.get b).selection.last = none) :
    commitOwner l b s = (s.resetSelection b l).refuse .sequence := by
  rw [commitOwner, if_neg (not_not.mpr hst)]
  split
  case h_1 f t hf ht => simp [hf, ht] at h
  all_goals rfl

/-- Settles O11: the judgement of each planning request on the selection, and the answer it gives. -/
theorem selectionIsMarkedOrReset : Obligations.SelectionIsMarkedOrReset := by
  refine ⟨fun l b r c s hst hlo hhi => ⟨fun h hf => ?_, fun f h hf ht hle => ?_, fun f t h hf ht hle hge hroom => ?_⟩,
    fun l b r c s hst => ?_⟩
  · exact State.answers_of_selected h hst rfl ((Selection.markFirst_of_number ⟨hlo, hhi⟩).trans (if_pos hf))
  · exact State.answers_of_selected h hst rfl ((Selection.markLast_of_marked ⟨hlo, hhi⟩ hf ht).trans (if_pos hle))
  · refine State.answers_of_selected h hst rfl ((Selection.exclude_of_marked ⟨hlo, hhi⟩ hf ht).trans ?_)
    rw [if_neg (not_not.mpr ⟨hle, hge⟩)]
    split
    · rfl
    · rename_i hnew
      rw [if_neg (by have := hroom.resolve_left hnew; omega)]
  · refine ⟨fun h => ⟨fun hc => ?_, fun ⟨hlo, hhi, hf⟩ => ?_⟩, fun h => ⟨fun hc => ?_, fun ⟨hlo, hhi, hout⟩ => ?_⟩,
      fun h => ⟨fun hc => ?_, fun ⟨hlo, hhi, hout⟩ => ?_⟩, fun h hout => ?_⟩
    · exact State.answers_of_unselected h hst rfl (Selection.markFirst_of_range hc) (by decide)
    · exact State.answers_of_unselected h hst rfl ((Selection.markFirst_of_number ⟨hlo, hhi⟩).trans (if_neg hf)) (by decide)
    · exact State.answers_of_unselected h hst rfl (Selection.markLast_of_range hc) (by decide)
    · exact State.answers_of_unselected h hst rfl (Selection.markLast_of_sequence ⟨hlo, hhi⟩ hout) (by decide)
    · exact State.answers_of_unselected h hst rfl (Selection.exclude_of_range hc) (by decide)
    · exact State.answers_of_unselected h hst rfl (Selection.exclude_of_sequence ⟨hlo, hhi⟩ hout) (by decide)
    · exact State.answers_of_reset h (commitOwner_of_sequence (s := s.setPlanReset l false) hst hout) rfl (by decide) rfl rfl

end Sys2Proof.Machine
end


section
/-! A cause raised on an arm, by the arm's state (R90, R117, R120, R121, R137, R140). -/

namespace Sys2Proof.Machine

-- One after the other: a thread for each of these proofs would pass the memory the check allows.
set_option Elab.async false

variable {s t u : State} {a : Arm} {c : StopCause} {reason : EndReason}

/-! ### What the arm's stop reads of the part -/

/-- The Shot Queues are left alike whatever the Flow Controllers and the Link Controller hold. -/
theorem State.dosingLeft_frame (s : State) (a : Arm) (fc : PerArm FlowController) (lc : LinkController) :
    State.dosingLeft { s with fc := fc, lc := lc } a = { s.dosingLeft a with fc := fc, lc := lc } := by
  obtain ⟨hadu, hrunning⟩ := State.dosingLeft_congr (s := { s with fc := fc, lc := lc }) (u := s) a rfl rfl
  rw [State.dosingLeft_parts, hadu, hrunning]
  conv_rhs => rw [State.dosingLeft_parts s]

/-- The set with a cause joined, its flag raised, and the arm's shots cut off (R140). -/
def State.causeJoined (s : State) (a : Arm) (c : StopCause) : State :=
  { s.cutShots fun k => k.arm = a with
    fc := s.fc.set a { s.fc.get a with causes := joinCause c (s.fc.get a).causes }
    lc := (s.raiseFlag (.causeRaised a)).lc }

theorem State.causeJoined_fc (s : State) (a : Arm) (c : StopCause) :
    (s.causeJoined a c).fc.get a = { s.fc.get a with causes := joinCause c (s.fc.get a).causes } := PerArm.get_set_self ..

theorem State.causeJoined_armFlowing (s : State) (a : Arm) (c : StopCause) :
    (s.causeJoined a c).armFlowing a = s.armFlowing a := by
  rw [State.armFlowing, State.causeJoined_fc]
  rfl

theorem State.deadmanLeft_causeJoined (s : State) (a : Arm) (c : StopCause) :
    (s.causeJoined a c).deadmanLeft a = s.deadmanLeft a :=
  State.deadmanLeft_congr (State.cutShots_bsc ..) (PerArm.get_set_other ..)

/-! ### A new cause, by the arm's state and by its kind (R121) -/

section New

variable (hnew : c ∉ (s.fc.get a).causes)
include hnew

theorem State.raiseCause_of_terminal (hr : c.endReason = some reason)
    (hst : (s.fc.get a).state ∈ [ArmState.lowStart, .highFlow, .topOff, .paused]) :
    s.raiseCause a c = (s.causeJoined a c).enterClosing a reason := by
  rw [State.raiseCause_eq (by intro h; simp [h] at hst) hnew, hr]
  simp only [List.mem_cons, List.not_mem_nil, or_false] at hst
  rcases hst with hst | hst | hst | hst <;> rw [hst] <;> rfl

theorem State.raiseCause_of_resumable (hr : c.endReason = none)
    (hst : (s.fc.get a).state ∈ [ArmState.lowStart, .highFlow, .topOff]) :
    s.raiseCause a c = (s.causeJoined a c).enterPaused a := by
  rw [State.raiseCause_eq (by intro h; simp [h] at hst) hnew, hr]
  simp only [List.mem_cons, List.not_mem_nil, or_false] at hst
  rcases hst with hst | hst | hst <;> rw [hst] <;> rfl

theorem State.raiseCause_of_joined
    (hst : (s.fc.get a).state ∈ [ArmState.closing, .ending] ∨ (c.endReason = none ∧ (s.fc.get a).state = .paused)) :
    s.raiseCause a c = s.causeJoined a c := by
  rw [State.raiseCause_eq (by rintro h; simp [h] at hst) hnew]
  rcases hst with hst | ⟨hr, hst⟩
  · simp only [List.mem_cons, List.not_mem_nil, or_false] at hst
    rcases hst with hst | hst <;> rw [hst] <;> rfl
  · rw [hst, hr]
    rfl

end New

/-! ### The states that a new cause leaves -/

/-- The arm's controller as a terminal cause leaves it: CLOSING (R117). -/
def FlowController.closedBy (x : FlowController) (c : StopCause) : FlowController :=
  { x with
    state := .closing, command := .close, causes := joinCause c x.causes, closingCount := 0
    closingTimer := some 10000, noFlowTimer := none, pauseTimer := none }

/-- The arm's controller as a resumable cause leaves it: PAUSED, for the pause timeout (R121, R128). -/
def FlowController.pausedBy (x : FlowController) (c : StopCause) (timeout : Nat) : FlowController :=
  { x with
    state := .paused, command := .close, causes := joinCause c x.causes, noFlowTimer := none
    pauseTimer := some (timeout * 1000) }

theorem State.causeJoined_closed_of_flowing (hflow : s.armFlowing a = true) :
    (s.causeJoined a c).enterClosing a reason =
      { ((s.cutShots fun k => k.arm = a).setEndReason a reason).dosingLeft a with
        fc := s.fc.set a ((s.fc.get a).closedBy c), bsc := s.deadmanLeft a, lc := (s.raiseFlag (.causeRaised a)).lc } := by
  have hreason : (s.causeJoined a c).setEndReason a reason =
      { (s.cutShots fun k => k.arm = a).setEndReason a reason with
        fc := (s.causeJoined a c).fc, lc := (s.causeJoined a c).lc } := rfl
  rw [State.enterClosing_of_flowing _ _ _ ((s.causeJoined_armFlowing a c).trans hflow), State.deadmanLeft_causeJoined,
    State.causeJoined_fc, hreason, State.dosingLeft_frame]
  simp only [State.causeJoined, PerArm.set_set]
  rfl

theorem State.causeJoined_closed_of_still (hstill : s.armFlowing a = false) :
    (s.causeJoined a c).enterClosing a reason =
      { (s.cutShots fun k => k.arm = a).setEndReason a reason with
        fc := s.fc.set a ((s.fc.get a).closedBy c), lc := (s.raiseFlag (.causeRaised a)).lc } := by
  rw [State.enterClosing_of_not_flowing _ _ _ ((s.causeJoined_armFlowing a c).trans hstill), State.causeJoined_fc]
  simp only [State.causeJoined, PerArm.set_set]
  rfl

theorem State.causeJoined_paused :
    (s.causeJoined a c).enterPaused a =
      { (s.cutShots fun k => k.arm = a).dosingLeft a with
        fc := s.fc.set a ((s.fc.get a).pausedBy c s.wc.rack.pauseTimeout), bsc := s.deadmanLeft a
        lc := (s.raiseFlag (.causeRaised a)).lc } := by
  have hjoined : s.causeJoined a c =
      { s.cutShots fun k => k.arm = a with fc := (s.causeJoined a c).fc, lc := (s.causeJoined a c).lc } := rfl
  have hwc : (s.causeJoined a c).wc = s.wc := State.cutShots_wc ..
  rw [State.enterPaused_eq, State.deadmanLeft_causeJoined, State.causeJoined_fc, hwc, hjoined, State.dosingLeft_frame]
  simp only [State.causeJoined, PerArm.set_set]
  rfl

/-- A terminal cause fixes its end reason (R120). -/
theorem StopCause.endReason_of_mem
    (h : (c, reason) ∈ [(StopCause.emergencyStop, EndReason.emergencyStop), (.powerFail, .powerFail),
      (.bayOutOfService, .bayOutOfService), (.orderCancelled, .orderCancelled), (.pulseFault, .pulseFault),
      (.probeFault, .probeFault)]) : c.endReason = some reason := by
  simp only [List.mem_cons, Prod.mk.injEq, List.not_mem_nil, or_false] at h
  rcases h with ⟨rfl, rfl⟩ | ⟨rfl, rfl⟩ | ⟨rfl, rfl⟩ | ⟨rfl, rfl⟩ | ⟨rfl, rfl⟩ | ⟨rfl, rfl⟩ <;> rfl

/-- A resumable cause fixes none (R120). -/
theorem StopCause.endReason_eq_none
    (h : c ∈ [StopCause.permissiveLost, .additiveFault, .additiveLag, .noFlow, .deadman, .officeStop, .driverStop]) :
    c.endReason = none := by
  simp only [List.mem_cons, List.not_mem_nil, or_false] at h
  rcases h with rfl | rfl | rfl | rfl | rfl | rfl | rfl <;> rfl

/-- Settles O14: a cause held or raised in IDLE does nothing; a new one joins the set, and closes or pauses the arm by its kind and the
arm's state. -/
theorem causeStopsTheArm : Obligations.CauseStopsTheArm := by
  intro a c s fc q closing paused flowing terminal resumable
  have hflag : s.flagged (s.raiseFlag (.causeRaised a)) [.causeRaised a] :=
    State.flagged_raiseFlag (State.flagged_refl s) (.causeRaised a)
  refine ⟨State.raiseCause_of_held, fun _ hnew => ⟨fun r hterminal => ⟨fun hflow => ?_, fun hpaused => ?_⟩,
    fun hresumable hflow => ?_, fun hstays => ?_⟩, fun d causes => mem_joinCause c d causes, joinCause_sorted c⟩
  · rw [State.raiseCause_of_terminal hnew (StopCause.endReason_of_mem hterminal) (List.mem_append_left [ArmState.paused] hflow),
      State.causeJoined_closed_of_flowing (State.armFlowing_iff.mpr hflow)]
    exact State.becomes_of_parts hflag rfl rfl
  · have hpaused : (s.fc.get a).state = .paused := hpaused
    have hstill : s.armFlowing a = false := by rw [State.armFlowing, hpaused]; rfl
    rw [State.raiseCause_of_terminal hnew (StopCause.endReason_of_mem hterminal) (by rw [hpaused]; decide),
      State.causeJoined_closed_of_still hstill]
    exact State.becomes_of_parts hflag rfl rfl
  · rw [State.raiseCause_of_resumable hnew (StopCause.endReason_eq_none hresumable) hflow, State.causeJoined_paused]
    exact State.becomes_of_parts hflag rfl rfl
  · rw [State.raiseCause_of_joined hnew (hstays.imp id fun h => ⟨StopCause.endReason_eq_none h.1, h.2⟩)]
    exact State.becomes_of_parts hflag rfl rfl

end Sys2Proof.Machine
end


section
/-! START refused: the checks of R83 in their order. -/

namespace Sys2Proof.Machine

-- One after the other: a thread for each of these proofs would pass the memory the check allows.
set_option Elab.async false

variable {s : State} {l : Link} {a : Arm} {b : Bay} {k m n : Nat} {o : Order} {c : Compartment} {lines : List RecipeLine}
  {res : ResultCode}

/-! ### The range, the bay, the arm and the compartment -/

theorem State.startArmOk_iff :
    s.startArmOk b a = true ↔ a.bay = b ∧ (s.fc.get a).state = .idle ∧ (s.wc.arms.get a).kMilli ≠ none := by
  simp [State.startArmOk, State.armIdle, Option.isSome_iff_ne_none, and_assoc]

section Loading

variable (hst : (s.bsc.get b).status = .loading)
include hst

theorem startOwner_of_range (h : 3 < k ∨ n < 1 ∨ 8 < n) : startOwner l b (k, n) s = s.refuse .range := by
  rw [startOwner, if_neg (not_not.mpr hst)]
  split
  · rfl
  · rename_i a ha
    have hk : ¬3 < k := fun hk => by simp [Arm.ofNat?_eq_none hk] at ha
    rw [if_pos]
    simp only [compartmentNumberOk_eq_false (h.resolve_left hk), Bool.not_false]

variable (hn : 1 ≤ n ∧ n ≤ 8)
include hn

/-- A START of an arm and a compartment number that exist (R83). -/
theorem startOwner_of_numbers :
    startOwner l b (a.toNat, n) s =
      if (s.bsc.get b).closePending = true ∨ s.startArmOk b a = false then s.refuse .state
      else
        match s.startCompartment b n with
        | none => s.refuse .state
        | some (k, o, c) =>
          match s.startChecks b a c with
          | some r => s.refuse r
          | none =>
            (s.startArm b a k o c).accept (natBytes 2 c.remaining ++ natBytes 1 ((s.startArm b a k o c).fc.get a).state.code) := by
  rw [startOwner, if_neg (not_not.mpr hst)]
  simp only [Arm.ofNat?_toNat, compartmentNumberOk_iff.mpr hn]
  cases (s.bsc.get b).closePending <;> cases s.startArmOk b a <;> rfl

variable (hopen : (s.bsc.get b).closePending = false) (harm : s.startArmOk b a = true)
include hopen harm

theorem startOwner_of_no_compartment (hc : s.startCompartment b n = none) :
    startOwner l b (a.toNat, n) s = s.refuse .state := by
  rw [startOwner_of_numbers hst hn, if_neg (by simp [hopen, harm]), hc]

theorem startOwner_of_checks (hc : s.startCompartment b n = some (m, o, c)) (hchecks : s.startChecks b a c = some res) :
    startOwner l b (a.toNat, n) s = s.refuse res := by
  rw [startOwner_of_numbers hst hn, if_neg (by simp [hopen, harm]), hc]
  simp only [hchecks]

end Loading

/-! ### Checks 3 to 9 -/

theorem State.startChecks_of_mismatch (hproduct : (s.wc.arms.get a).product ≠ c.product) :
    s.startChecks b a c = some .productMismatch := if_pos hproduct

section Checks

variable (hproduct : (s.wc.arms.get a).product = c.product)
include hproduct

theorem State.startChecks_of_blocked (hdriver : s.driverActive b = false) : s.startChecks b a c = some .blocked := by
  rw [State.startChecks, if_neg (not_not.mpr hproduct), hdriver]
  rfl

variable (hdriver : s.driverActive b = true)
include hdriver

theorem State.startChecks_of_no_recipe (hrecipe : s.recipeLines c = none) :
    s.startChecks b a c = some .recipeUnavailable := by
  rw [State.startChecks, if_neg (not_not.mpr hproduct), hdriver, hrecipe]
  rfl

variable (hrecipe : s.recipeLines c = some lines)
include hrecipe

/-- What is left to check of a compartment whose recipe is usable, check by check (R83). -/
theorem State.startChecks_of_recipe :
    s.startChecks b a c =
      if ∃ x ∈ lines, s.servingChannel a x.additive = none then some .recipeUnavailable
      else if ∃ x ∈ lines, (s.wc.stock.get x.additive).stock ≤ (s.wc.stock.get x.additive).reserve then some .additiveLow
      else if s.loadingPermissive a = false then some .permissive
      else if 64 ≤ s.notesHeld + s.reservations then some .noteStoreFull
      else if c.planned ≤ c.delivered then some .nothingToLoad
      else none := by
  have hserved : (!(lines.all fun x => (s.servingChannel a x.additive).isSome)) = true ↔
      ∃ x ∈ lines, s.servingChannel a x.additive = none := by simp
  have hstocked :
      (!(lines.all fun x => decide ((s.wc.stock.get x.additive).reserve < (s.wc.stock.get x.additive).stock))) = true ↔
        ∃ x ∈ lines, (s.wc.stock.get x.additive).stock ≤ (s.wc.stock.get x.additive).reserve := by simp
  have hleft : c.remaining = 0 ↔ c.planned ≤ c.delivered := Nat.sub_eq_zero_iff_le
  rw [State.startChecks, if_neg (not_not.mpr hproduct), hdriver, if_neg (by decide), hrecipe]
  simp only [hserved, hstocked, hleft, Bool.not_eq_true']
  rfl

end Checks

/-- Settles O17: each check of R83, where those before it pass, gives its own refusal. -/
theorem startChecksInOrder : Obligations.StartChecksInOrder := by
  intro l b r k n s h hst refuses
  have hrefuses : ∀ res, res ≠ .ok → startOwner l b (k, n) (s.setPlanReset l false) = (s.setPlanReset l false).refuse res →
      refuses res := fun res => State.replies_of_bay h
  refine ⟨fun hrange => ?_, ?_⟩
  · exact hrefuses _ (by decide) (startOwner_of_range hst hrange)
  rintro a rfl hlo hhi
  refine ⟨fun hbad => ?_, fun hopen hbay hidle hk => ⟨fun hnone => ?_, fun m o c hc => ?_⟩⟩
  · refine hrefuses _ (by decide) ((startOwner_of_numbers (s := s.setPlanReset l false) hst ⟨hlo, hhi⟩).trans (if_pos ?_))
    refine hbad.imp id fun harm => ?_
    rw [← Bool.not_eq_true, State.startArmOk_iff]
    exact fun hok => by tauto
  all_goals have harm : (s.setPlanReset l false).startArmOk b a = true := State.startArmOk_iff.mpr ⟨hbay, hidle, hk⟩
  · exact hrefuses _ (by decide) (startOwner_of_no_compartment hst ⟨hlo, hhi⟩ hopen harm hnone)
  have hchecks : ∀ res, res ≠ .ok → (s.setPlanReset l false).startChecks b a c = some res → refuses res := fun res hres hcheck =>
    hrefuses res hres (startOwner_of_checks hst ⟨hlo, hhi⟩ hopen harm hc hcheck)
  refine ⟨fun hne => ?_, fun hproduct => ⟨fun hblocked => ?_, fun hdriver => ⟨fun hnone => ?_, fun lines hrecipe => ?_⟩⟩⟩
  · exact hchecks _ (by decide) (State.startChecks_of_mismatch hne)
  · exact hchecks _ (by decide) (State.startChecks_of_blocked hproduct hblocked)
  · exact hchecks _ (by decide) (State.startChecks_of_no_recipe hproduct hdriver hnone)
  have hlines := State.startChecks_of_recipe (s := s.setPlanReset l false) (b := b) hproduct hdriver hrecipe
  refine ⟨fun hunserved => ?_, fun hserved => ⟨fun hlow => ?_, fun hstock => ⟨fun hno => ?_, fun hpermissive =>
    ⟨fun hfull => ?_, fun hroom hdone => ?_⟩⟩⟩⟩
  · exact hchecks _ (by decide) (hlines.trans (if_pos hunserved))
  all_goals replace hlines := hlines.trans (if_neg fun ⟨x, hx, hnone⟩ => hserved x hx hnone)
  · exact hchecks _ (by decide) (hlines.trans (if_pos hlow))
  all_goals replace hlines := hlines.trans (if_neg fun ⟨x, hx, hlow⟩ => absurd (hstock x hx) (not_lt.mpr hlow))
  · exact hchecks _ (by decide) (hlines.trans (if_pos hno))
  all_goals replace hlines := hlines.trans (if_neg fun hno => absurd hpermissive (ne_true_of_eq_false hno))
  · exact hchecks _ (by decide) (hlines.trans (if_pos hfull))
  · exact hchecks _ (by decide) (hlines.trans ((if_neg (not_le.mpr hroom)).trans (if_pos hdone)))

end Sys2Proof.Machine
end


section
/-! STOP, FINISH, RESUME and ACK_CAUSE: the arm and the cause named, and what its Flow Controller makes of them (R85, R92, R115, R119 to
R121, R124 to R126, R128). -/

namespace Sys2Proof.Machine

-- One after the other: a thread for each of these proofs would pass the memory the check allows.
set_option Elab.async false

variable {α : Type} {s t u : State} {l : Link} {a : Arm} {b : Bay} {r : Request} {n : Nat} {c : StopCause} {stage : Stage}
  {flow : Arm → State → Answer} {code : Byte} {form : Walk α} {x : α} {owner : Bay → α → State → Answer} {pl : List Byte}

/-! ### The arm named (R85) -/

section Loading

variable (hst : (s.bsc.get b).status = .loading)
include hst

theorem armOwner_of_range (h : 3 < n) : armOwner l b n flow s = s.refuse .range := by
  rw [armOwner, if_neg (not_not.mpr hst), Arm.ofNat?_eq_none h]

theorem armOwner_of_other_bay (hbay : a.bay ≠ b) : armOwner l b a.toNat flow s = s.refuse .state := by
  rw [armOwner, if_neg (not_not.mpr hst), Arm.ofNat?_toNat]
  exact if_pos hbay

theorem armOwner_of_arm (hbay : a.bay = b) : armOwner l b a.toNat flow s = flow a s := by
  rw [armOwner, if_neg (not_not.mpr hst), Arm.ofNat?_toNat]
  exact if_neg (not_not.mpr hbay)

end Loading

/-- An arm request answered OK whose arm is then at work: the inactivity timer of its bay stands (R87). -/
theorem State.answers_of_arm (h : s.asksAs (.panel b) l r code formByte a.toNat) (hst : (s.bsc.get b).status = .loading)
    (hbay : a.bay = b) {events : List FlagEvent} (ha : flow a (s.setPlanReset l false) = t.accept pl)
    (hlinked : s.linked u l false events) (hlc : t.lc = u.lc) (hbusy : (t.fc.get a).state ≠ .idle) :
    s.answers (.next (s.serveBay l code formByte fun b n t => armOwner l b n flow t)) l r .ok pl false events
      { t with bsc := t.bsc.modify b fun y => { y with inactivityTimer := none } } :=
  State.answers_of_bay h.1 h.2 ((armOwner_of_arm (s := s.setPlanReset l false) hst hbay).trans ha) rfl rfl
    (State.linked_congr hlinked hlc) ((if_pos rfl).trans (State.refreshInactivity_of_busy hbay hbusy))

/-- An arm request that its Flow Controller refuses changes nothing. -/
theorem State.replies_of_flow {res : ResultCode} (h : s.asksAs (.panel b) l r code formByte a.toNat)
    (hst : (s.bsc.get b).status = .loading) (hbay : a.bay = b) (hres : res ≠ .ok)
    (ha : flow a (s.setPlanReset l false) = (s.setPlanReset l false).refuse res) :
    s.replies (.next (s.serveBay l code formByte fun b n t => armOwner l b n flow t)) l r res [] false :=
  State.replies_of_bay h hres ((armOwner_of_arm (s := s.setPlanReset l false) hst hbay).trans ha)

/-- An arm request of an arm that does not exist, or of the other bay, is refused (R85). -/
theorem State.replies_of_arm (flow : Arm → State → Answer) (h : s.asksAs (.panel b) l r code formByte n)
    (hst : (s.bsc.get b).status = .loading) :
    (3 < n → s.replies (.next (s.serveBay l code formByte fun b n t => armOwner l b n flow t)) l r .range [] false)
    ∧ ∀ a : Arm, n = a.toNat → a.bay ≠ b →
      s.replies (.next (s.serveBay l code formByte fun b n t => armOwner l b n flow t)) l r .state [] false := by
  refine ⟨fun hn => ?_, ?_⟩
  · exact State.replies_of_bay h (by decide) (armOwner_of_range (s := s.setPlanReset l false) hst hn)
  · rintro a rfl hbay
    exact State.replies_of_bay h (by decide) (armOwner_of_other_bay (s := s.setPlanReset l false) hst hbay)

/-! ### STOP (R125) -/

theorem State.cutShots_linkController (s : State) (cut : Channel → Bool) (lc : LinkController) :
    State.cutShots { s with lc := lc } cut = { s.cutShots cut with lc := lc } := by
  rw [State.cutShots_parts, State.cutShots_congr (s := { s with lc := lc }) (u := s) cut rfl rfl]
  conv_rhs => rw [State.cutShots_parts s]

theorem stopFlow_of_still (h : s.armFlowing a = false) : stopFlow a s = s.refuse .state := by
  rw [stopFlow, h]
  rfl

/-- The part with arm `a` stopped by its driver: PAUSED, its shots cut off, out of the Shot Queues, its bay told (R90, R125, R137,
R140). -/
def State.stopped (s : State) (a : Arm) : State :=
  { (s.cutShots fun k => k.arm = a).dosingLeft a with
    fc := s.fc.set a ((s.fc.get a).pausedBy .driverStop s.wc.rack.pauseTimeout), bsc := s.deadmanLeft a }

theorem State.stopped_linkController (s : State) (a : Arm) (lc : LinkController) :
    State.stopped { s with lc := lc } a = { s.stopped a with lc := lc } := by
  rw [State.stopped, State.cutShots_linkController,
    State.dosingLeft_frame (s.cutShots fun k => k.arm = a) a (s.cutShots fun k => k.arm = a).fc lc]
  rfl

theorem stopFlow_of_flowing (h : s.armFlowing a = true) (hcauses : (s.fc.get a).causes = []) :
    stopFlow a s = State.accept { s.stopped a with lc := (s.raiseFlag (.causeRaised a)).lc } (natBytes 1 5) := by
  have hraised : s.raiseCause a .driverStop = { s.stopped a with lc := (s.raiseFlag (.causeRaised a)).lc } :=
    (State.raiseCause_of_resumable (by simp [hcauses]) rfl (State.armFlowing_iff.mp h)).trans State.causeJoined_paused
  have hpaused : ((s.stopped a).fc.get a).state = .paused := by
    rw [State.stopped, PerArm.get_set_self]
    rfl
  rw [stopFlow, if_pos h, hraised]
  exact congrArg (State.accept _) (congrArg (fun st : ArmState => natBytes 1 st.code) hpaused)

/-! ### FINISH (R119, R125) -/

theorem finishFlow_of_not_paused (h : (s.fc.get a).state ≠ .paused) : finishFlow a s = s.refuse .state := if_neg h

/-- Entering ENDING while the warning is de-asserted (R119). -/
theorem State.enterEnding_eq (h : s.ic.warning = false) :
    s.enterEnding a =
      { s with
        fc := s.fc.set a
          { s.fc.get a with
            state := .ending, command := .close, closingTimer := none, noFlowTimer := none, pauseTimer := none } } :=
  if_neg (by simp [h])

/-- Settles O18: STOP by whether the arm flows, FINISH by whether it is PAUSED, and the arm that either names. -/
theorem stopAndFinish : Obligations.StopAndFinish := by
  refine ⟨fun l b r a s h hst hbay => ⟨fun hflow hcauses => ?_, fun hstill => ?_⟩,
    fun l b r a s h hst hbay => ⟨fun hpaused => ?_, fun hnot => ?_⟩, fun c code l b r n s hc h hst => ?_⟩
  · have hflow := stopFlow_of_flowing (s := s.setPlanReset l false) (State.armFlowing_iff.mpr hflow) hcauses
    have hstopped : (s.setPlanReset l false).stopped a = { s.stopped a with lc := (s.setPlanReset l false).lc } :=
      s.stopped_linkController a _
    have hpaused : (s.fc.get a).pausedBy .driverStop s.wc.rack.pauseTimeout =
        { s.fc.get a with
          state := .paused, command := .close, causes := [.driverStop], noFlowTimer := none
          pauseTimer := some (s.wc.rack.pauseTimeout * 1000) } := by
      rw [FlowController.pausedBy, hcauses]
      rfl
    rw [hstopped, State.stopped, hpaused] at hflow
    have hlinked := State.linked_raiseFlag (State.linked_setPlanReset (y := false) (State.linked_refl s l)) (.causeRaised a)
    exact State.answers_of_arm h hst hbay hflow hlinked rfl (by rw [PerArm.get_set_self]; exact nofun)
  · have hnone : s.armFlowing a = false := by
      simp only [List.mem_cons, List.not_mem_nil, or_false] at hstill
      rw [State.armFlowing]
      rcases hstill with hst | hst | hst | hst <;> rw [hst] <;> rfl
    exact State.replies_of_flow h hst hbay (by decide) (stopFlow_of_still hnone)
  · obtain ⟨⟨-, hwarning, -⟩, -⟩ := id h
    have hflow : finishFlow a (s.setPlanReset l false) = _ := if_pos hpaused
    rw [State.enterEnding_eq (by simpa using hwarning)] at hflow
    have hlinked := State.linked_setPlanReset (y := false) (State.linked_refl s l)
    exact State.answers_of_arm h hst hbay hflow hlinked rfl (by rw [PerArm.get_set_self]; exact nofun)
  · exact State.replies_of_flow h hst hbay (by decide) (finishFlow_of_not_paused (s := s.setPlanReset l false) hnot)
  · simp only [List.mem_cons, Prod.mk.injEq, List.not_mem_nil, or_false] at hc
    rcases hc with ⟨rfl, rfl⟩ | ⟨rfl, rfl⟩
    · exact State.replies_of_arm stopFlow h hst
    · exact State.replies_of_arm finishFlow h hst

end Sys2Proof.Machine
end


section
/-! RESUME into the stage the quantity implies (R115, R116, R126). -/

namespace Sys2Proof.Machine

-- One after the other: a thread for each of these proofs would pass the memory the check allows.
set_option Elab.async false

variable {s : State} {a : Arm} {st : ArmState} {lead preset q : Nat} {r : ArmRecord} {x : Running}

/-! ### The stage that a quantity implies (R115) -/

theorem impliedStage_of_reached (h : preset ≤ q + lead) : impliedStage r lead preset q = .closing := if_pos h

/-- Short of the lead, the stage is that of the volumes. -/
theorem impliedStage_state_of_short (h : q + lead < preset) :
    (impliedStage r lead preset q).state =
      if preset ≤ q + r.topOffVolume * 1000 then .topOff else if r.startVolume * 1000 ≤ q then .highFlow else .lowStart := by
  rw [impliedStage, if_neg (not_le.mpr h)]
  repeat' split
  all_goals rfl

theorem impliedStage_ne_closing_of_short (h : q + lead < preset) : impliedStage r lead preset q ≠ .closing := by
  rw [impliedStage, if_neg (not_le.mpr h)]
  repeat' split
  all_goals exact nofun

theorem impliedStage_flows (h : q + lead < preset) :
    (impliedStage r lead preset q).state ∈ [ArmState.lowStart, .highFlow, .topOff] := by
  rw [impliedStage_state_of_short h]
  repeat' split
  all_goals simp

/-! ### RESUME at the Flow Controller (R126) -/

theorem resumeFlow_of_refused (h : (s.fc.get a).state ≠ .paused ∨ (s.fc.get a).causes ≠ [] ∨ s.loadingPermissive a = false) :
    resumeFlow a s = s.refuse .state := by
  refine if_neg fun hready => ?_
  simp only [Bool.and_eq_true, decide_eq_true_eq, List.isEmpty_iff] at hready
  obtain ⟨⟨hpaused, hcauses⟩, hpermissive⟩ := hready
  rcases h with h | h | h
  · exact h hpaused
  · exact h hcauses
  · rw [hpermissive] at h
    exact absurd h (by decide)

section Ready

variable (hpaused : (s.fc.get a).state = .paused) (hcauses : (s.fc.get a).causes = []) (hpermissive : s.loadingPermissive a = true)
  (hx : s.running.get a = some x)
include hpaused hcauses hpermissive hx

theorem resumeFlow_of_ready {t : State}
    (ht : s.enterStage a (impliedStage (s.wc.arms.get a) (s.fc.get a).lead x.flow.preset x.quantity) = t)
    (hst : (t.fc.get a).state = st) : resumeFlow a s = t.accept (natBytes 1 st.code) := by
  rw [resumeFlow, hpaused, hcauses, hpermissive, if_pos (by decide), hx]
  dsimp only
  rw [ht, hst]

/-- RESUME short of the lead: the arm flows in the stage implied, its command chosen from the present rate. -/
theorem resumeFlow_of_short (hlead : x.quantity + (s.fc.get a).lead < x.flow.preset)
    (hst : st = if x.flow.preset ≤ x.quantity + (s.wc.arms.get a).topOffVolume * 1000 then .topOff
      else if (s.wc.arms.get a).startVolume * 1000 ≤ x.quantity then .highFlow else .lowStart) :
    resumeFlow a s =
      State.accept
        { s with
          fc := s.fc.set a
            { s.fc.get a with
              state := st
              command := regulate (if st = .highFlow then (s.wc.arms.get a).highRate else (s.wc.arms.get a).lowRate)
                (s.wc.arms.get a).deadband (s.me.get a).rate
              pauseTimer := none
              noFlowTimer :=
                if regulate (if st = .highFlow then (s.wc.arms.get a).highRate else (s.wc.arms.get a).lowRate)
                    (s.wc.arms.get a).deadband (s.me.get a).rate = .openValve then
                  some ((s.wc.arms.get a).noFlowTime * 1000)
                else none }
          bsc := s.deadmanStarted a }
        (natBytes 1 st.code) := by
  have hstage := (impliedStage_state_of_short hlead).trans hst.symm
  refine resumeFlow_of_ready hpaused hcauses hpermissive hx ?_ (by rw [PerArm.get_set_self])
  rw [State.enterStage_of_ne_closing (impliedStage_ne_closing_of_short hlead), hstage, State.enterFlow_eq,
    ArmRecord.setpoint_of_flowing _ (hstage ▸ impliedStage_flows hlead)]

/-- RESUME at the preset, less the lead: the arm goes straight to CLOSING, COMPLETE. -/
theorem resumeFlow_of_reached (hlead : x.flow.preset ≤ x.quantity + (s.fc.get a).lead) :
    resumeFlow a s =
      State.accept
        { s with
          fc := s.fc.set a
            { s.fc.get a with
              state := .closing, command := .close, closingCount := 0, closingTimer := some 10000, noFlowTimer := none
              pauseTimer := none }
          running := s.running.set a (some { x with flow := { x.flow with endReason := some .complete } }) }
        (natBytes 1 4) := by
  have hstill : s.armFlowing a = false := by rw [State.armFlowing, hpaused]; rfl
  refine resumeFlow_of_ready (st := .closing) hpaused hcauses hpermissive hx ?_ (by rw [PerArm.get_set_self])
  rw [impliedStage_of_reached hlead]
  refine (State.enterClosing_of_not_flowing s a .complete hstill).trans ?_
  simp only [State.setEndReason, State.modifyRunning, PerArm.modify, hx, Option.map_some]

end Ready

/-- Settles O19: RESUME refused, or into the stage implied by the quantity, flowing or CLOSING. -/
theorem resumeEntersTheImpliedStage : Obligations.ResumeEntersTheImpliedStage := by
  refine ⟨fun l b r a s h hst hbay => ⟨fun x q hpaused hcauses hpermissive hx hq => ⟨fun st hlead hstage => ?_, fun hlead => ?_⟩,
    fun hrefused => ?_⟩, fun l b r n s h hst => State.replies_of_arm resumeFlow h hst⟩
  · obtain rfl : q = x.quantity := hq
    have hflow := resumeFlow_of_short (s := s.setPlanReset l false) hpaused hcauses hpermissive hx hlead hstage
    have hbusy : st ≠ .idle := by
      rw [hstage]
      repeat' split
      all_goals exact nofun
    have hlinked := State.linked_setPlanReset (y := false) (State.linked_refl s l)
    exact State.answers_of_arm h hst hbay hflow hlinked rfl (by rw [PerArm.get_set_self]; exact hbusy)
  · obtain rfl : q = x.quantity := hq
    have hflow := resumeFlow_of_reached (s := s.setPlanReset l false) hpaused hcauses hpermissive hx hlead
    have hlinked := State.linked_setPlanReset (y := false) (State.linked_refl s l)
    exact State.answers_of_arm h hst hbay hflow hlinked rfl (by rw [PerArm.get_set_self]; exact nofun)
  · exact State.replies_of_flow h hst hbay (by decide) (resumeFlow_of_refused (s := s.setPlanReset l false) hrefused)

end Sys2Proof.Machine
end


section
/-! ACK_CAUSE: the cause shown, its clearing condition, and what its removal tells the bay (R85, R92, R120, R124). -/

namespace Sys2Proof.Machine

-- One after the other: a thread for each of these proofs would pass the memory the check allows.
set_option Elab.async false

variable {s : State} {l : Link} {a : Arm} {b : Bay} {c : StopCause} {n code : Nat} {rest : List StopCause}

/-! ### The cause and the arm named (R85, R120) -/

theorem StopCause.ofCode_priority (c : StopCause) : StopCause.ofCode c.priority = some c := by cases c <;> rfl

theorem StopCause.ofCode_eq_none (h : code < 1 ∨ 13 < code) : StopCause.ofCode code = none := by
  unfold StopCause.ofCode
  split
  case h_14 => rfl
  all_goals omega

theorem StopCause.exists_ofCode (hlo : 1 ≤ code) (hhi : code ≤ 13) : ∃ c, StopCause.ofCode code = some c := by
  interval_cases code <;> exact ⟨_, rfl⟩

theorem ackOwner_of_range (hst : (s.bsc.get b).status = .loading) (h : 3 < n ∨ code < 1 ∨ 13 < code) :
    ackOwner l b (n, code) s = s.refuse .range := by
  rw [ackOwner, if_neg (not_not.mpr hst)]
  split
  · rfl
  · rename_i c hc
    refine armOwner_of_range hst (h.resolve_right fun hcode => ?_)
    rw [StopCause.ofCode_eq_none hcode] at hc
    cases hc

theorem ackOwner_of_cause (hst : (s.bsc.get b).status = .loading) (hc : StopCause.ofCode code = some c) :
    ackOwner l b (n, code) s = armOwner l b n (ackFlow c) s := by
  rw [ackOwner, if_neg (not_not.mpr hst), hc]

/-! ### The clearing conditions (R120) -/

theorem State.clears_permissiveLost :
    s.clears a .permissiveLost = true ↔ (∀ p, s.accepts (.permissive p a.bay) = true) ∧ s.accepts (.parked a) = true := by
  rw [State.clears, Bool.and_eq_true, State.permissivesPresent_iff]
  rfl

theorem State.clears_additiveLag :
    s.clears a .additiveLag = true ↔ ∀ k : Channel, k.arm = a → (s.adu.channels.get k).owed ≤ 3 := by
  simp only [State.clears, Bool.and_eq_true, decide_eq_true_eq, Channel.ofArm_iff, forall_eq_or_imp, forall_eq]
  rfl

/-! ### The removal (R92, R124) -/

theorem ackFlow_of_refused (h : (s.fc.get a).causes.head? ≠ some c ∨ s.clears a c = false) : ackFlow c a s = s.refuse .state := by
  refine if_neg fun hready => ?_
  rw [Bool.and_eq_true, decide_eq_true_eq] at hready
  rcases h with h | h
  · exact h hready.1
  · exact absurd hready.2 (ne_true_of_eq_false h)

/-- An arm's controller without the cause it showed; OFFICE_STOP takes the release mark with it (R124). -/
def FlowController.without (x : FlowController) (c : StopCause) (rest : List StopCause) : FlowController :=
  { x with causes := rest, releaseMark := if c = .officeStop then false else x.releaseMark }

/-- The alarm of the arm's bay after the arm has lost `c`: cleared with the bay's last DEADMAN (R92). -/
def State.alarmAfter (s : State) (a : Arm) (c : StopCause) : Bool :=
  if c = .deadman ∧ StopCause.deadman ∉ (s.fc.get a.other).causes then false else (s.bsc.get a.bay).alarm

/-- The part with the cause that arm `a` showed removed, `rest` left. -/
def State.uncaused (s : State) (a : Arm) (c : StopCause) (rest : List StopCause) : State :=
  { s with
    fc := s.fc.set a ((s.fc.get a).without c rest)
    bsc := s.bsc.set a.bay { s.bsc.get a.bay with alarm := s.alarmAfter a c } }

theorem State.uncaused_armsIdle : (s.uncaused a c rest).armsIdle b = s.armsIdle b := by
  rw [State.armsIdle, State.armsIdle]
  refine congrArg b.arms.all (funext fun k => ?_)
  rw [State.armIdle_of_set (s := s) (t := s.uncaused a c rest) rfl]
  split
  case isTrue hk => rw [hk]; rfl
  case isFalse => rfl

section Shown

variable (hcauses : (s.fc.get a).causes = c :: rest) (hfresh : c ∉ rest)
include hcauses hfresh

theorem FlowController.acknowledged_of_shown : (s.fc.get a).acknowledged c = (s.fc.get a).without c rest := by
  have hleft : ((s.fc.get a).causes.filter (· ≠ c)) = rest := by
    rw [hcauses, List.filter_cons_of_neg (by simp), List.filter_eq_self]
    exact fun d hd => decide_eq_true fun hdc => hfresh (hdc ▸ hd)
  rw [FlowController.acknowledged, hleft]
  rfl

theorem State.removeCause_of_shown : s.removeCause a c = s.uncaused a c rest := by
  rw [State.removeCause_eq, State.modifyFc, PerArm.modify, FlowController.acknowledged_of_shown hcauses hfresh]
  by_cases hc : c = .deadman
  · subst hc
    have hlost : ((s.fc.get a).without .deadman rest).causes.contains .deadman = false := by
      simpa [FlowController.without] using hfresh
    rw [if_pos rfl, State.deadmanCauseLeft, Arm.any_bay_arms, PerArm.get_set_self, PerArm.get_set_other, hlost, Bool.false_or]
    by_cases hother : StopCause.deadman ∈ (s.fc.get a.other).causes
    · rw [if_pos (List.contains_iff_mem.mpr hother), State.uncaused, State.alarmAfter, if_neg fun h => h.2 hother,
        PerBay.set_get_self]
    · rw [if_neg (List.contains_iff_mem.not.mpr hother), State.uncaused, State.alarmAfter, if_pos ⟨rfl, hother⟩]
      rfl
  · rw [if_neg hc, State.uncaused, State.alarmAfter, if_neg fun h => hc h.1, PerBay.set_get_self]

theorem ackFlow_of_shown (hclears : s.clears a c = true) :
    ackFlow c a s = (s.uncaused a c rest).accept (optionalBytes (fun d => natBytes 1 d.priority) rest.head?) := by
  have hleft : ((s.uncaused a c rest).fc.get a).causes = rest := by
    rw [State.uncaused, PerArm.get_set_self]
    rfl
  rw [ackFlow, if_pos (by simp [hcauses, hclears]), State.removeCause_of_shown hcauses hfresh]
  dsimp only
  rw [hleft]

end Shown

/-- Settles O20: the condition of each cause, the removal of the shown one with what it tells the bay, and the refusals. -/
theorem acknowledgedCauseIsRemoved : Obligations.AcknowledgedCauseIsRemoved := by
  refine ⟨fun l b r a c s h hst hbay => ?_, fun l b r n code s h hst => ⟨fun hrange => ?_, ?_⟩⟩
  · intro clears
    subst hbay
    have howner : ackOwner l a.bay (a.toNat, c.priority) (s.setPlanReset l false) = ackFlow c a (s.setPlanReset l false) :=
      (ackOwner_of_cause (s := s.setPlanReset l false) hst c.ofCode_priority).trans (armOwner_of_arm hst rfl)
    have hclears : clears ↔ s.clears a c = true := by
      cases c
      case emergencyStop | officeStop => exact Iff.rfl
      case permissiveLost => exact State.clears_permissiveLost.symm
      case additiveLag => exact State.clears_additiveLag.symm
      all_goals exact iff_of_true trivial rfl
    refine ⟨fun rest hcauses hfresh hclear => ?_, fun hrefused => ?_⟩
    · have hack := howner.trans (ackFlow_of_shown (s := s.setPlanReset l false) hcauses hfresh (hclears.mp hclear))
      have hloading : (((s.setPlanReset l false).uncaused a c rest).bsc.get a.bay).status = .loading := by
        rw [State.uncaused, PerBay.get_set_self]
        exact hst
      refine State.answers_of_bay h.1 h.2 hack rfl rfl
        (State.linked_congr (State.linked_setPlanReset (State.linked_refl s l)) rfl)
        ((if_pos rfl).trans ((State.refreshInactivity_of_signedIn (by rw [State.accept_state, hloading]; rfl)).trans ?_))
      rw [State.accept_state, State.uncaused_armsIdle, State.uncaused, PerBay.get_set_self, PerBay.set_set]
      rfl
    · refine State.replies_of_bay h (by decide) (howner.trans (ackFlow_of_refused ?_))
      rcases hrefused with hunmet | hhidden
      · exact .inr ((Bool.not_eq_true _).mp (hclears.not.mp hunmet))
      · exact .inl hhidden
  · exact State.replies_of_bay h (by decide) (ackOwner_of_range (s := s.setPlanReset l false) hst hrange)
  · rintro a hlo hhi rfl hbay
    obtain ⟨c, hc⟩ := StopCause.exists_ofCode hlo hhi
    exact State.replies_of_bay h (by decide)
      ((ackOwner_of_cause (s := s.setPlanReset l false) hst hc).trans (armOwner_of_other_bay hst hbay))

end Sys2Proof.Machine
end


section
/-! COMMIT_PLAN and NEW_PLAN: the candidates, those skipped, and the Plan List (R79, R80, R82). -/

namespace Sys2Proof.Machine

-- One after the other: a thread for each of these proofs would pass the memory the check allows.
set_option Elab.async false

variable {s : State} {l : Link} {a : Arm} {b : Bay} {c : Compartment} {n f t : Nat} {o : Order} {skips : Compartment → Bool}

/-! ### The skip tests (R80) -/

theorem State.classPermitted_eq_false_iff {product : Nat} :
    s.classPermitted b product = false ↔
      ∀ k d p, (s.bsc.get b).driver = some k → s.wc.drivers.find k = some d → s.wc.products.find product = some p →
        p.cls ∉ d.classes := by
  unfold State.classPermitted
  cases (s.bsc.get b).driver with
  | none => simp
  | some k =>
    have hbound : (∀ k' d p, some k = some k' → s.wc.drivers.find k' = some d → s.wc.products.find product = some p →
        p.cls ∉ d.classes) ↔
        ∀ d p, s.wc.drivers.find k = some d → s.wc.products.find product = some p → p.cls ∉ d.classes :=
      ⟨fun h d p => h k d p rfl, fun h k' d p hk => Option.some.inj hk ▸ h d p⟩
    rw [hbound]
    dsimp only
    cases s.wc.drivers.find k with
    | none => simp
    | some d => cases s.wc.products.find product <;> simp

theorem Bay.any_eq_false_iff {p : Arm → Bool} : b.arms.any p = false ↔ ∀ a : Arm, a.bay = b → p a = false := by
  simp only [List.any_eq_false, Bay.mem_arms_iff, Bool.not_eq_true]

/-- No channel of the arm serves an additive type (R135). -/
theorem State.servingChannel_eq_none_iff {type : Additive} :
    s.servingChannel a type = none ↔ ∀ k : Channel, k.arm = a → (s.wc.injectors.get k).additive ≠ some type := by
  simp only [Channel.ofArm_iff, forall_eq_or_imp, forall_eq]
  unfold State.servingChannel
  split
  case isTrue hlower => simp [hlower]
  case isFalse hlower =>
    split
    case isTrue hupper => simp [hupper]
    case isFalse hupper => exact iff_of_true rfl ⟨hlower, hupper⟩

theorem State.armServes_eq_false_iff {product : Nat} {lines : List RecipeLine} :
    s.armServes product lines a = false ↔
      ((s.wc.arms.get a).product = product →
        ∃ y ∈ lines, ∀ k : Channel, k.arm = a → (s.wc.injectors.get k).additive ≠ some y.additive) := by
  simp only [State.armServes, Bool.and_eq_false_imp, decide_eq_true_eq, List.all_eq_false, Bool.not_eq_true,
    Option.isSome_eq_false_iff, Option.isNone_iff_eq_none, State.servingChannel_eq_none_iff]

theorem NvRecords.usableRecipe_eq_some_iff {w : NvRecords} {code : Nat} {x : RecipeRecord} :
    w.usableRecipe c code = some x ↔ w.recipes.find code = some x ∧ x.product = c.product := by
  unfold NvRecords.usableRecipe
  cases w.recipes.find code with
  | none => simp
  | some y =>
    simp only [Option.ite_none_right_eq_some, Option.some.injEq]
    exact ⟨fun ⟨hproduct, hyx⟩ => ⟨hyx, hyx ▸ hproduct⟩, fun ⟨hyx, hproduct⟩ => ⟨hyx ▸ hproduct, hyx⟩⟩

/-- The recipe of a compartment, as the last skip test judges it (R80). -/
def State.recipeUnserved (s : State) (b : Bay) (c : Compartment) : Bool :=
  match c.recipe with
  | none => false
  | some code =>
    match s.wc.usableRecipe c code with
    | some x => !(b.arms.any (s.armServes c.product x.lines))
    | none => true

theorem State.recipeUnserved_iff :
    s.recipeUnserved b c = true ↔
      ∃ code, c.recipe = some code
        ∧ ∀ x, s.wc.recipes.find code = some x → x.product = c.product → ∀ a : Arm, a.bay = b →
          (s.wc.arms.get a).product = c.product →
          ∃ y ∈ x.lines, ∀ k : Channel, k.arm = a → (s.wc.injectors.get k).additive ≠ some y.additive := by
  unfold State.recipeUnserved
  cases c.recipe with
  | none => simp
  | some code =>
    simp only [Option.some.injEq, exists_eq_left']
    split
    case h_1 x hx =>
      rw [Bool.not_eq_true', Bay.any_eq_false_iff]
      rw [NvRecords.usableRecipe_eq_some_iff] at hx
      simp only [State.armServes_eq_false_iff]
      refine ⟨fun h y hy _ => ?_, fun h => h x hx.1 hx.2⟩
      obtain rfl : x = y := Option.some.inj (hx.1.symm.trans hy)
      exact h
    case h_2 hnone =>
      refine iff_of_true rfl fun x hx hproduct => ?_
      rw [NvRecords.usableRecipe_eq_some_iff.mpr ⟨hx, hproduct⟩] at hnone
      cases hnone

/-- The four skip tests (R80). -/
theorem State.skipped_iff :
    s.skipped b c = true ↔
      c.status = .loaded ∨ s.classPermitted b c.product = false ∨ (∀ a : Arm, a.bay = b → (s.wc.arms.get a).product ≠ c.product)
        ∨ s.recipeUnserved b c = true := by
  have hskipped : s.skipped b c =
      (c.status = .loaded || !s.classPermitted b c.product || !(b.arms.any fun a => (s.wc.arms.get a).product = c.product)
        || s.recipeUnserved b c) := rfl
  simp only [hskipped, Bool.or_eq_true, decide_eq_true_eq, Bool.not_eq_true', Bay.any_eq_false_iff, decide_eq_false_iff_not,
    or_assoc, ne_eq]

/-! ### The candidates (R79) -/

theorem State.candidatesOf_of_held (horder : (s.bsc.get b).order = some n) (ho : s.ob.orders.find n = some o) :
    s.candidatesOf b f t =
      ([1, 2, 3, 4, 5, 6, 7, 8].filterMap fun k => o.compartments.find? fun c => c.number = k).filter fun c =>
        f ≤ c.number ∧ c.number ≤ t ∧ c.number ∉ (s.bsc.get b).selection.excluded := by
  have hcandidates : s.candidatesOf b f t = o.candidates f t (s.bsc.get b).selection.excluded := by
    simp only [State.candidatesOf, horder, ho]
  rw [hcandidates, Order.candidates]
  refine List.filter_congr fun c _ => ?_
  simp [within, Bool.and_assoc]

/-! ### COMMIT_PLAN (R80) -/

/-- The compartments that a plan takes of its candidates. -/
def planOf (candidates : List Compartment) (skips : Compartment → Bool) : List Nat :=
  (candidates.filter fun c => !skips c).map Compartment.number

theorem length_planOf (candidates : List Compartment) (skips : Compartment → Bool) :
    candidates.length - (planOf candidates skips).length = (candidates.filter skips).length := by
  have hsum := candidates.length_eq_length_filter_add skips
  rw [planOf, List.length_map]
  omega

section Marked

variable (hst : (s.bsc.get b).status = .planning) (hf : (s.bsc.get b).selection.first = some f)
  (ht : (s.bsc.get b).selection.last = some t)
include hst hf ht

/-- COMMIT_PLAN in the range marked phase. -/
theorem commitOwner_of_marked :
    commitOwner l b s =
      if planOf (s.candidatesOf b f t) (s.skipped b) = [] then
        { result := .nothingToLoad, payload := natBytes 1 ((s.candidatesOf b f t).filter (s.skipped b)).length
          state := s.resetSelection b l }
      else
        ((s.modifyBay b fun x =>
          { x with plan := planOf (s.candidatesOf b f t) (s.skipped b), selection := .empty }).moveBay b .loading).accept
          (listBytes (natBytes 1) (planOf (s.candidatesOf b f t) (s.skipped b))
            ++ natBytes 1 ((s.candidatesOf b f t).filter (s.skipped b)).length) := by
  rw [commitOwner, if_neg (not_not.mpr hst), hf, ht]
  simp only [← length_planOf, List.isEmpty_iff]
  rfl

end Marked

/-! ### NEW_PLAN (R82) -/

theorem newPlanOwner_of_busy (hst : (s.bsc.get b).status = .loading) (h : s.armsIdle b = false) :
    newPlanOwner l b s = s.refuse .state := by
  rw [newPlanOwner, if_neg (not_not.mpr hst), h]
  rfl

theorem newPlanOwner_of_idle (hst : (s.bsc.get b).status = .loading) (h : s.armsIdle b = true) :
    newPlanOwner l b s = ((s.modifyBay b fun x => { x with plan := [], selection := .empty }).moveBay b .planning).accept [] := by
  rw [newPlanOwner, if_neg (not_not.mpr hst), h]
  rfl

/-- The inactivity timer of a bay that is signed in with both arms IDLE (R87). -/
theorem State.refreshInactivity_of_idle (hsigned : (s.bsc.get b).status.signedIn = true) (hidle : s.armsIdle b = true) :
    s.refreshInactivity b = { s with bsc := s.bsc.set b { s.bsc.get b with inactivityTimer := some 300000 } } := by
  rw [State.refreshInactivity_of_signedIn hsigned, if_pos hidle]

/-- Settles O12: the plan made of the candidates that no test skips, or NOTHING_TO_LOAD; and the plan cleared where both arms are
IDLE. -/
theorem plansAreCommittedAndCleared : Obligations.PlansAreCommittedAndCleared := by
  refine ⟨fun l b r n f t o skips s hskips h hst hf ht horder ho => ?_, fun l b r s h hst => ⟨fun hidle => ?_, fun hbusy => ?_⟩⟩
  · intro candidates plan
    have hskipped : s.skipped b = skips := funext fun c => by
      rw [Bool.eq_iff_iff, hskips, State.skipped_iff, State.classPermitted_eq_false_iff, State.recipeUnserved_iff]
    have hcandidates : (s.setPlanReset l false).candidatesOf b f t = candidates := State.candidatesOf_of_held horder ho
    have howner := commitOwner_of_marked (l := l) (s := s.setPlanReset l false) hst hf ht
    have hskipped' : (s.setPlanReset l false).skipped b = skips := hskipped
    rw [hcandidates, hskipped'] at howner
    refine ⟨fun hsome => ?_, fun hnone => ?_⟩
    · rw [if_neg (show planOf candidates skips ≠ [] from hsome), State.moveBay_of_ne (by simp [hst])] at howner
      refine State.answers_of_moved h howner rfl rfl rfl ((if_pos rfl).trans ?_)
      cases b <;> rfl
    · rw [if_pos (show planOf candidates skips = [] from hnone)] at howner
      exact State.answers_of_reset h howner rfl (by decide) rfl rfl
  · have howner := newPlanOwner_of_idle (l := l) (s := s.setPlanReset l false) hst (State.armsIdle_iff.mpr hidle)
    rw [State.moveBay_of_ne (by simp [hst])] at howner
    refine State.answers_of_moved h howner rfl rfl rfl ((if_pos rfl).trans ((State.refreshInactivity_of_idle ?_ ?_).trans ?_))
    · rw [State.accept_state, PerBay.get_set_self]
      rfl
    · exact (State.armsIdle_iff (s := s)).mpr hidle
    · cases b <;> rfl
  · exact State.replies_of_bay h (by decide)
      (newPlanOwner_of_busy (s := s.setPlanReset l false) hst (State.armsIdle_eq_false_iff.mpr hbusy))

end Sys2Proof.Machine
end


section
/-! The interval at the Flow Controller: causes, then staging, then the command and the no-flow timer; and the closing count (R113 to R117,
R127). -/

namespace Sys2Proof.Machine

-- One after the other: a thread for each of these proofs would pass the memory the check allows.
set_option Elab.async false

variable {s : State} {a : Arm} {n q : Nat} {causes : List StopCause} {y : Running} {now stage : Stage}

/-! ### The causes first (R113) -/

theorem State.armFlowing_iff_stage : s.armFlowing a = true ↔ ∃ now, (s.fc.get a).state.stage = some now := by
  rw [State.armFlowing]
  cases (s.fc.get a).state <;> simp [ArmState.flowing, ArmState.stage]

theorem State.raiseCauses_nil : s.raiseCauses a [] = s := rfl

/-- The interval of a flowing arm: the causes, the stage, and the command of an arm that flows on. -/
theorem State.flowInterval_of_flowing (h : s.armFlowing a = true) :
    s.flowInterval a n causes =
      if ((s.raiseCauses a causes).stageArm a).armFlowing a then ((s.raiseCauses a causes).stageArm a).regulateArm a n
      else (s.raiseCauses a causes).stageArm a := by
  simp only [State.armFlowing_iff, List.mem_cons, List.not_mem_nil, or_false] at h
  rcases h with h | h | h <;> rw [State.flowInterval, h]

theorem State.flowInterval_of_closing (h : (s.fc.get a).state = .closing) :
    s.flowInterval a n causes = (s.raiseCauses a causes).countClosing a n := by
  rw [State.flowInterval, h]

theorem State.flowInterval_of_waiting (h : (s.fc.get a).state ∈ [ArmState.paused, .ending]) :
    s.flowInterval a n causes = s.raiseCauses a causes := by
  simp only [List.mem_cons, List.not_mem_nil, or_false] at h
  rcases h with h | h <;> rw [State.flowInterval, h]

theorem State.stageArm_of_still (h : s.armFlowing a = false) : s.stageArm a = s := by
  have hnone : (s.fc.get a).state.stage = none := by
    by_contra hsome
    exact absurd (State.armFlowing_iff_stage.mpr (Option.ne_none_iff_exists'.mp hsome)) (by simp [h])
  rw [State.stageArm, hnone]

/-- An interval is its causes, and then an interval without any of what they leave (R113). -/
theorem State.flowInterval_of_causes (h : s.armFlowing a = true) :
    ((s.raiseCauses a causes).armFlowing a = true → s.flowInterval a n causes = (s.raiseCauses a causes).flowInterval a n [])
    ∧ ((s.raiseCauses a causes).armFlowing a = false → s.flowInterval a n causes = s.raiseCauses a causes) := by
  refine ⟨fun hflows => ?_, fun hstopped => ?_⟩
  · rw [State.flowInterval_of_flowing h, State.flowInterval_of_flowing hflows]
    rfl
  · rw [State.flowInterval_of_flowing h, State.stageArm_of_still hstopped, hstopped]
    rfl

/-! ### Staging (R115) -/

theorem State.stageArm_of_staged (hnow : (s.fc.get a).state.stage = some now) (hy : s.running.get a = some y)
    (hstage : impliedStage (s.wc.arms.get a) (s.fc.get a).lead y.flow.preset y.quantity = stage) :
    s.stageArm a =
      if now.rank < stage.rank then
        if stage = .closing then s.enterClosing a .complete else s.modifyFc a fun x => { x with state := stage.state }
      else s := by
  rw [State.stageArm, hnow, hy]
  dsimp only
  generalize impliedStage (s.wc.arms.get a) (s.fc.get a).lead y.flow.preset y.quantity = implied at hstage
  subst hstage
  cases implied <;> rfl

theorem ArmState.rank_lt_closing {st : ArmState} (h : st.stage = some now) : now.rank < Stage.closing.rank := by
  revert h
  cases st <;> rintro ⟨⟩ <;> decide

theorem State.stageArm_of_reached (hnow : (s.fc.get a).state.stage = some now) (hy : s.running.get a = some y)
    (hlead : y.flow.preset ≤ y.quantity + (s.fc.get a).lead) : s.stageArm a = s.enterClosing a .complete := by
  rw [State.stageArm_of_staged hnow hy (impliedStage_of_reached hlead), if_pos (ArmState.rank_lt_closing hnow), if_pos rfl]

/-- The flowing state of an arm that an interval takes on to the implied stage, where that comes later (R115). -/
def ArmState.staged (st : ArmState) (now stage : Stage) : ArmState := if now.rank < stage.rank then stage.state else st

theorem State.stageArm_of_short (hnow : (s.fc.get a).state.stage = some now) (hy : s.running.get a = some y)
    (hstage : impliedStage (s.wc.arms.get a) (s.fc.get a).lead y.flow.preset y.quantity = stage) (hne : stage ≠ .closing) :
    s.stageArm a = { s with fc := s.fc.set a { s.fc.get a with state := (s.fc.get a).state.staged now stage } } := by
  rw [State.stageArm_of_staged hnow hy hstage, ArmState.staged]
  by_cases hlater : now.rank < stage.rank
  · rw [if_pos hlater, if_pos hlater, if_neg hne]
    rfl
  · rw [if_neg hlater, if_neg hlater, PerArm.set_get_self]

theorem ArmState.staged_topOff {st : ArmState} (h : st.stage = some now) : st.staged now .topOff = .topOff := by
  revert h
  cases st <;> rintro ⟨⟩ <;> rfl

theorem ArmState.staged_highFlow {st : ArmState} (h : st.stage = some now) :
    st.staged now .highFlow = if st = .topOff then .topOff else .highFlow := by
  revert h
  cases st <;> rintro ⟨⟩ <;> rfl

theorem ArmState.staged_lowStart (st : ArmState) (now : Stage) : st.staged now .lowStart = st := if_neg (Nat.not_lt_zero _)

theorem ArmState.staged_flows {st : ArmState} (h : st.stage = some now) (hne : stage ≠ .closing) :
    st.staged now stage ∈ [ArmState.lowStart, .highFlow, .topOff] := by
  cases stage with
  | closing => exact absurd rfl hne
  | topOff =>
    rw [ArmState.staged_topOff h]
    decide
  | highFlow =>
    rw [ArmState.staged_highFlow h]
    split <;> decide
  | lowStart =>
    rw [ArmState.staged_lowStart]
    revert h
    cases st <;> rintro ⟨⟩ <;> decide

section Short

variable {r : ArmRecord} {lead preset : Nat} (hlead : q + lead < preset)
include hlead

theorem impliedStage_of_topOff (htop : preset ≤ q + r.topOffVolume * 1000) : impliedStage r lead preset q = .topOff := by
  rw [impliedStage, if_neg (not_le.mpr hlead), if_pos htop]

theorem impliedStage_of_highFlow (htop : q + r.topOffVolume * 1000 < preset) (hstart : r.startVolume * 1000 ≤ q) :
    impliedStage r lead preset q = .highFlow := by
  rw [impliedStage, if_neg (not_le.mpr hlead), if_neg (not_le.mpr htop), if_pos hstart]

theorem impliedStage_of_lowStart (htop : q + r.topOffVolume * 1000 < preset) (hstart : q < r.startVolume * 1000) :
    impliedStage r lead preset q = .lowStart := by
  rw [impliedStage, if_neg (not_le.mpr hlead), if_neg (not_le.mpr htop), if_neg (not_le.mpr hstart)]

end Short

/-! ### The command and the no-flow timer (R114, R127) -/

/-- The controller of an arm that flows in `st`, with the command for the present rate and the no-flow timer as it leaves it. -/
def FlowController.regulated (x : FlowController) (r : ArmRecord) (rate n : Nat) (st : ArmState) : FlowController :=
  { x with
    state := st
    command := regulate (if st = .highFlow then r.highRate else r.lowRate) r.deadband rate
    noFlowTimer :=
      if regulate (if st = .highFlow then r.highRate else r.lowRate) r.deadband rate = .openValve then
        (if x.command = .openValve then (if 0 < n then some (x.noFlowTimer.getD (r.noFlowTime * 1000)) else x.noFlowTimer)
        else some (r.noFlowTime * 1000))
      else none }

/-- An interval of a flowing arm short of its preset, less the lead. -/
theorem State.flowInterval_of_short (hnow : (s.fc.get a).state.stage = some now) (hy : s.running.get a = some y)
    (hlead : y.quantity + (s.fc.get a).lead < y.flow.preset)
    (hstage : impliedStage (s.wc.arms.get a) (s.fc.get a).lead y.flow.preset y.quantity = stage) :
    s.flowInterval a n [] =
      { s with
        fc := s.fc.set a
          ((s.fc.get a).regulated (s.wc.arms.get a) (s.me.get a).rate n ((s.fc.get a).state.staged now stage)) } := by
  have hne : stage ≠ .closing := hstage ▸ impliedStage_ne_closing_of_short hlead
  have hflows := ArmState.staged_flows hnow hne
  rw [State.flowInterval_of_flowing (State.armFlowing_iff_stage.mpr ⟨now, hnow⟩), State.raiseCauses_nil,
    State.stageArm_of_short hnow hy hstage hne, if_pos (State.armFlowing_iff.mpr (by rwa [PerArm.get_set_self])),
    State.regulateArm, State.modifyFc, PerArm.modify, PerArm.get_set_self, PerArm.set_set]
  dsimp only
  rw [ArmRecord.setpoint_of_flowing _ hflows]
  rfl

/-- An interval of a flowing arm at its preset, less the lead. -/
theorem State.flowInterval_of_reached (hnow : (s.fc.get a).state.stage = some now) (hy : s.running.get a = some y)
    (hlead : y.flow.preset ≤ y.quantity + (s.fc.get a).lead) :
    s.flowInterval a n [] =
      { (s.setEndReason a .complete).dosingLeft a with
        fc := s.fc.set a
          { s.fc.get a with
            state := .closing, command := .close, closingCount := 0, closingTimer := some 10000, noFlowTimer := none
            pauseTimer := none }
        bsc := s.deadmanLeft a } := by
  have hflowing := State.armFlowing_iff_stage.mpr ⟨now, hnow⟩
  rw [State.flowInterval_of_flowing hflowing, State.raiseCauses_nil, State.stageArm_of_reached hnow hy hlead,
    State.enterClosing_of_flowing s a .complete hflowing, if_neg]
  rw [State.armFlowing, PerArm.get_set_self]
  exact Bool.false_ne_true

/-! ### The closing count (R117) -/

theorem State.countClosing_of_flow (hn : 0 < n) :
    s.countClosing a n = { s with fc := s.fc.set a { s.fc.get a with closingCount := 0 } } := by
  rw [State.countClosing]
  dsimp only
  rw [if_neg hn.ne', if_neg (by decide)]
  rfl

theorem State.countClosing_of_short (hcount : (s.fc.get a).closingCount < 2) :
    s.countClosing a 0 = { s with fc := s.fc.set a { s.fc.get a with closingCount := (s.fc.get a).closingCount + 1 } } := by
  rw [State.countClosing, if_pos rfl]
  exact if_neg (by rw [Config.closingCount]; omega)

theorem State.countClosing_of_third (hcount : 2 ≤ (s.fc.get a).closingCount) :
    s.countClosing a 0 =
      State.endClosing { s with fc := s.fc.set a { s.fc.get a with closingCount := (s.fc.get a).closingCount + 1 } } a := by
  rw [State.countClosing, if_pos rfl]
  exact if_pos (by rw [Config.closingCount]; omega)

end Sys2Proof.Machine
end


section
/-! Pacing at an interval end, line by line, and the interval handed on in each of its orders (R95, R113 to R118, R127, R136 to R138). -/

namespace Sys2Proof.Machine

-- One after the other: a thread for each of these proofs would pass the memory the check allows.
set_option Elab.async false

variable {s : State} {a : Arm} {g i n : Nat} {x : LineRecord} {c d : Channel} {p : Additive} {y : Running} {rest : List Channel}

/-! ### The pump that a queued channel joins (R138) -/

theorem State.serve_of_barred
    (h : (s.adu.pumps.get p).status ≠ .idle ∨ s.accepts .emergencyStop = false ∨ s.ic.warning = true) : s.serve p = s := by
  unfold State.serve
  dsimp only
  split
  case h_1 hidle _ =>
    refine if_neg fun hgo => ?_
    simp only [Bool.and_eq_true, Bool.not_eq_true', State.stopInactive] at hgo
    rcases h with h | h | h
    · exact h hidle
    · exact absurd hgo.1 (by simp [h])
    · exact absurd hgo.2 (by simp [h])
  case h_2 => rfl

/-- A pump with the shot it begins on channel `d`, `rest` left in its queue (R138). -/
def PumpState.serving (pump : PumpState) (r : InjectorRecord) (d : Channel) (rest : List Channel) : PumpState :=
  { status := .shot d, queue := rest, restTimer := pump.restTimer, shotTimer := some r.timeLimit, pulseCount := 0, volume := 0
    target := (r.shotVolume * r.kMilli + 999999) / 1000000 }

theorem State.serve_of_queue (hidle : (s.adu.pumps.get p).status = .idle) (hstop : s.accepts .emergencyStop = true)
    (hwarning : s.ic.warning = false) (hqueue : (s.adu.pumps.get p).queue = d :: rest) :
    s.serve p =
      { s with
        adu :=
          { channels := s.adu.channels.set d { s.adu.channels.get d with place := .inShot }
            pumps := s.adu.pumps.set p ((s.adu.pumps.get p).serving (s.wc.injectors.get d) d rest) } } := by
  have hstop : s.stopInactive = true := hstop
  simp only [State.serve, hidle, hqueue, hstop, hwarning, Bool.not_false, Bool.and_self, if_true]
  rfl

/-! ### One line (R136) -/

/-- What a line calls for by a running gross, less what was requested of it. -/
def State.lineOwes (s : State) (g : Nat) (x : LineRecord) : Nat :=
  dueShots g x.dose (s.wc.injectors.get x.channel).shotVolume - x.requested

/-- The part with the line's channel owing `n`. -/
def State.owing (s : State) (c : Channel) (n : Nat) : State :=
  { s with adu := { s.adu with channels := s.adu.channels.set c { s.adu.channels.get c with owed := n } } }

/-- More than three shots owed raise ADDITIVE_LAG (R136). -/
def lagCauses (n : Nat) : List StopCause := if 3 < n then [.additiveLag] else []

theorem State.paceLine_of_empty (h : (s.wc.stock.get x.additive).stock = 0) : s.paceLine g x = (s, [.additiveFault]) := if_pos h

/-- A shot requested of the line that channel `c` serves: it joins its pump's queue (R136). -/
def State.lineRequested (s : State) (c : Channel) : State :=
  ((s.modifyLine c fun y => { y with requested := y.requested + 1 }).modifyChannel c fun k => { k with owed := k.owed - 1 }).joinQueue c

/-- The part with a line that has stock paced (R136). -/
def State.paced (s : State) (g : Nat) (x : LineRecord) : State :=
  if s.lineOwes g x = 0 ∨ (s.adu.channels.get x.channel).place ≠ .none then s.owing x.channel (s.lineOwes g x)
  else (s.owing x.channel (s.lineOwes g x)).lineRequested x.channel

theorem State.owing_channel (s : State) (c : Channel) (n : Nat) :
    (s.owing c n).adu.channels.get c = { s.adu.channels.get c with owed := n } := PerChannel.get_set_self ..

theorem State.paceLine_of_stock (h : 0 < (s.wc.stock.get x.additive).stock) :
    s.paceLine g x = (s.paced g x, lagCauses ((s.paced g x).adu.channels.get x.channel).owed) := by
  have hpaced : (if 1 ≤ ((s.owing x.channel (s.lineOwes g x)).adu.channels.get x.channel).owed
        && ((s.owing x.channel (s.lineOwes g x)).adu.channels.get x.channel).place = .none then
      (s.owing x.channel (s.lineOwes g x)).lineRequested x.channel
      else s.owing x.channel (s.lineOwes g x)) = s.paced g x := by
    rw [State.owing_channel, State.paced]
    by_cases hbusy : s.lineOwes g x = 0 ∨ (s.adu.channels.get x.channel).place ≠ .none
    · rw [if_pos hbusy, if_neg]
      simp only [Bool.and_eq_true, decide_eq_true_eq]
      rintro ⟨howes, hfree⟩
      exact hbusy.elim (by omega) fun hplace => hplace hfree
    · rw [if_neg hbusy, if_pos]
      simp only [Bool.and_eq_true, decide_eq_true_eq]
      rw [not_or, not_not] at hbusy
      exact ⟨by omega, hbusy.2⟩
  rw [← hpaced, State.paceLine, if_neg h.ne']
  rfl

theorem State.paceLine_of_busy (h : 0 < (s.wc.stock.get x.additive).stock)
    (hbusy : s.lineOwes g x = 0 ∨ (s.adu.channels.get x.channel).place ≠ .none) :
    s.paceLine g x = (s.owing x.channel (s.lineOwes g x), lagCauses (s.lineOwes g x)) := by
  rw [State.paceLine_of_stock h, State.paced, if_pos hbusy, State.owing_channel]

theorem State.joinQueue_of_additive (h : (s.wc.injectors.get c).additive = some p) :
    s.joinQueue c =
      ((s.modifyChannel c fun k => { k with place := .queued }).modifyPump p fun z => { z with queue := z.queue ++ [c] }).serve p := by
  rw [State.joinQueue, h]

/-- The part with a shot of the line that channel `c` serves at position `i` requested, `n` still owed, and the channel at the end of
the queue of pump `p` (R136). -/
def State.requested (s : State) (c : Channel) (i n : Nat) (p : Additive) : State :=
  { s with
    running := s.running.modify c.arm (Option.map fun y =>
      { y with lines := y.lines.modify i fun z => { z with requested := z.requested + 1 } })
    adu :=
      { channels := s.adu.channels.set c { s.adu.channels.get c with owed := n, place := .queued }
        pumps := s.adu.pumps.set p { s.adu.pumps.get p with queue := (s.adu.pumps.get p).queue ++ [c] } } }

theorem State.owing_lineRequested (hserving : (s.adu.channels.get c).serving = some i)
    (hadditive : (s.wc.injectors.get c).additive = some p) :
    (s.owing c n).lineRequested c = (s.requested c i (n - 1) p).serve p := by
  have hline : (s.owing c n).modifyLine c (fun y => { y with requested := y.requested + 1 }) =
      (s.owing c n).modifyRunning c.arm fun r =>
        { r with lines := r.lines.modify i fun z => { z with requested := z.requested + 1 } } := by
    rw [State.modifyLine, State.owing_channel, hserving]
  rw [State.lineRequested, hline, State.joinQueue_of_additive (p := p) (by simpa [State.owing] using hadditive)]
  refine congrArg (State.serve · p) ?_
  simp only [State.modifyChannel, State.modifyPump, State.modifyRunning, State.owing, State.requested, PerChannel.modify,
    PerAdditive.modify, PerChannel.get_set_self, PerChannel.set_set]

/-- A line with stock that owes a shot, its channel free, and whose pump may not serve (R136, R138). -/
theorem State.paceLine_of_queued (h : 0 < (s.wc.stock.get x.additive).stock) (howes : s.lineOwes g x ≠ 0)
    (hfree : (s.adu.channels.get x.channel).place = .none) (hserving : (s.adu.channels.get x.channel).serving = some i)
    (hadditive : (s.wc.injectors.get x.channel).additive = some p)
    (hbarred : (s.adu.pumps.get p).status ≠ .idle ∨ s.accepts .emergencyStop = false ∨ s.ic.warning = true) :
    s.paceLine g x = (s.requested x.channel i (s.lineOwes g x - 1) p, lagCauses (s.lineOwes g x - 1)) := by
  have hpump : ((s.requested x.channel i (s.lineOwes g x - 1) p).adu.pumps.get p).status = (s.adu.pumps.get p).status := by
    rw [State.requested, PerAdditive.get_set_self]
  have hpaced : s.paced g x = s.requested x.channel i (s.lineOwes g x - 1) p := by
    rw [State.paced, if_neg (by simp [howes, hfree]), State.owing_lineRequested hserving hadditive]
    exact State.serve_of_barred (by rw [hpump]; exact hbarred)
  rw [State.paceLine_of_stock h, hpaced, State.requested, PerChannel.get_set_self]

/-- A line with stock that owes a shot, its channel free, and whose pump serves the oldest of its queue at once (R136, R138). -/
theorem State.paceLine_of_served (h : 0 < (s.wc.stock.get x.additive).stock) (howes : s.lineOwes g x ≠ 0)
    (hfree : (s.adu.channels.get x.channel).place = .none) (hserving : (s.adu.channels.get x.channel).serving = some i)
    (hadditive : (s.wc.injectors.get x.channel).additive = some p) (hidle : (s.adu.pumps.get p).status = .idle)
    (hstop : s.accepts .emergencyStop = true) (hwarning : s.ic.warning = false)
    (hqueue : (s.adu.pumps.get p).queue ++ [x.channel] = d :: rest) :
    s.paceLine g x =
      ({ s.requested x.channel i (s.lineOwes g x - 1) p with
          adu :=
            { channels := (s.requested x.channel i (s.lineOwes g x - 1) p).adu.channels.set d
                { (s.requested x.channel i (s.lineOwes g x - 1) p).adu.channels.get d with place := .inShot }
              pumps := s.adu.pumps.set p ((s.adu.pumps.get p).serving (s.wc.injectors.get d) d rest) } },
        lagCauses (s.lineOwes g x - 1)) := by
  have hpump : (s.requested x.channel i (s.lineOwes g x - 1) p).adu.pumps.get p =
      { s.adu.pumps.get p with queue := (s.adu.pumps.get p).queue ++ [x.channel] } := PerAdditive.get_set_self ..
  have hchannel : (s.requested x.channel i (s.lineOwes g x - 1) p).adu.channels.get x.channel =
      { s.adu.channels.get x.channel with owed := s.lineOwes g x - 1, place := .queued } := PerChannel.get_set_self ..
  have hpaced : s.paced g x = (s.requested x.channel i (s.lineOwes g x - 1) p).serve p := by
    rw [State.paced, if_neg (by simp [howes, hfree]), State.owing_lineRequested hserving hadditive]
  have hserved := State.serve_of_queue (s := s.requested x.channel i (s.lineOwes g x - 1) p) (by rw [hpump]; exact hidle) hstop
    hwarning (by rw [hpump]; exact hqueue)
  have howed : ((s.paced g x).adu.channels.get x.channel).owed = s.lineOwes g x - 1 := by
    rw [hpaced, hserved, PerChannel.get_set]
    split
    case isTrue hd => rw [← hd, hchannel]
    case isFalse => rw [hchannel]
  rw [State.paceLine_of_stock h, howed, hpaced, hserved, hpump, State.requested, PerAdditive.set_set]
  rfl

/-! ### The lines of an arm in recipe order (R136, log 10) -/

/-- One more line paced, its causes after those of the lines before it. -/
def paceNext (g : Nat) (q : State × List StopCause) (x : LineRecord) : State × List StopCause :=
  ((q.1.paceLine g x).1, q.2 ++ (q.1.paceLine g x).2)

theorem State.paceLines_eq_foldl (g : Nat) (xs : List LineRecord) (s : State) (causes : List StopCause) :
    xs.foldl (paceNext g) (s, causes) = ((s.paceLines g xs).1, causes ++ (s.paceLines g xs).2) := by
  induction xs generalizing s causes with
  | nil => simp [State.paceLines]
  | cons x xs ih => rw [List.foldl_cons, paceNext, ih, State.paceLines, List.append_assoc]

theorem State.pace_of_flowing (hy : s.running.get a = some y) (h : s.armFlowing a = true) :
    s.pace a = y.lines.foldl (paceNext y.metering.gross) (s, []) := by
  rw [State.paceLines_eq_foldl, State.pace, hy]
  exact if_pos h

theorem State.pace_of_still (h : s.running.get a = none ∨ s.armFlowing a = false) : s.pace a = (s, []) := by
  unfold State.pace
  split
  case h_1 y hy =>
    refine if_neg ?_
    rw [h.resolve_left (by simp [hy])]
    exact Bool.false_ne_true
  case h_2 => rfl

/-! ### The interval handed on (R95, R113, R136) -/

theorem State.armFlowing_eq_false_iff : s.armFlowing a = false ↔ (s.fc.get a).state ∉ [ArmState.lowStart, .highFlow, .topOff] := by
  rw [← State.armFlowing_iff, Bool.not_eq_true]

/-- Settles O47: the interval in each of its orders, its causes before its stage, the stage and the command by the quantity, the closing
count, and the pacing line by line. -/
theorem intervalStagesAndPaces : Obligations.IntervalStagesAndPaces := by
  refine ⟨fun a raw order s hrun => ⟨rfl, ?_⟩, fun a n causes s => ⟨fun hidle => ?_, fun hwaiting => ?_, fun hclosing => ?_,
    fun hflows => ?_⟩, fun a s => ⟨fun y hy hflows => ?_, fun hstill => ?_⟩, fun a n s => ?_, fun g x s => ?_⟩
  · rw [exec_meteringIntervalEnd hrun]
    cases order <;> rfl
  · exact State.flowInterval_of_idle hidle n causes
  · exact State.flowInterval_of_waiting hwaiting
  · rw [State.flowInterval_of_closing hclosing]
    exact (State.flowInterval_of_closing (causes := []) (State.raiseCauses_closing s a causes hclosing)).symm
  · obtain ⟨hon, hoff⟩ := State.flowInterval_of_causes (n := n) (causes := causes) (State.armFlowing_iff.mpr hflows)
    exact ⟨fun h => hon (State.armFlowing_iff.mpr h), fun h => hoff (State.armFlowing_eq_false_iff.mpr h)⟩
  · have hpace := State.pace_of_flowing hy (State.armFlowing_iff.mpr hflows)
    refine ⟨hpace, ?_⟩
    rw [State.paceArm, hpace]
    rfl
  · have hpace := State.pace_of_still (hstill.imp id State.armFlowing_eq_false_iff.mpr)
    refine ⟨hpace, ?_⟩
    rw [State.paceArm, hpace]
    rfl
  · intro fc arm rate regulated
    refine ⟨fun y q hflows hy hq => ?_, fun hclosing => ⟨fun hn => ?_, ?_, ?_⟩, fun hstays => ?_⟩
    · obtain rfl : q = y.quantity := hq
      obtain ⟨now, hnow⟩ := State.armFlowing_iff_stage.mp (State.armFlowing_iff.mpr hflows)
      refine ⟨fun hlead => State.flowInterval_of_reached hnow hy hlead, fun hlead => ?_⟩
      have hshort := fun stage => State.flowInterval_of_short (stage := stage) (n := n) hnow hy hlead
      refine ⟨fun htop => ?_, fun htop hstart => ?_, fun htop hstart => ?_⟩
      · exact (hshort .topOff (impliedStage_of_topOff hlead htop)).trans (by rw [ArmState.staged_topOff hnow]; rfl)
      · exact (hshort .highFlow (impliedStage_of_highFlow hlead htop hstart)).trans (by rw [ArmState.staged_highFlow hnow]; rfl)
      · exact (hshort .lowStart (impliedStage_of_lowStart hlead htop hstart)).trans (by rw [ArmState.staged_lowStart]; rfl)
    · exact (State.flowInterval_of_closing hclosing).trans (State.countClosing_of_flow hn)
    · rintro rfl hcount
      exact (State.flowInterval_of_closing hclosing).trans (State.countClosing_of_short hcount)
    · rintro rfl hcount
      exact (State.flowInterval_of_closing hclosing).trans (State.countClosing_of_third hcount)
    · rcases List.mem_cons.mp hstays with hidle | hwaiting
      · exact State.flowInterval_of_idle hidle n []
      · exact State.flowInterval_of_waiting hwaiting
  · intro c ch due owes lag
    refine ⟨fun hempty => State.paceLine_of_empty hempty, fun hstock => ⟨fun hbusy => ?_, fun i p hdue hfree hserving hadditive =>
      ⟨fun hbarred => ?_, fun d rest hidle hstop hwarning hqueue => ?_⟩⟩⟩
    · exact State.paceLine_of_busy hstock (hbusy.imp Nat.sub_eq_zero_of_le id)
    · exact State.paceLine_of_queued hstock (Nat.sub_ne_zero_of_lt hdue) hfree hserving hadditive hbarred
    · exact State.paceLine_of_served hstock (Nat.sub_ne_zero_of_lt hdue) hfree hserving hadditive hidle hstop hwarning hqueue

end Sys2Proof.Machine
end


section
/-! What the law of the totalizers speaks of, and what leaves it as it is (R94, R107 to R109). -/

namespace Sys2Proof.Machine

-- One after the other: a thread for each of these proofs would pass the memory the check allows.
set_option Elab.async false

variable {s t u : State} {a : Arm} {b : Bay} {c : StopCause}

/-! ### The law, arm by arm -/

/-- What a compartment's record says of its arm's totalizers: opened at the opening totalizers, with what was credited since (R109). -/
def MeteringPart.adds (x : MeteringPart) (m : Totals) : Prop :=
  (x.openGross + x.gross) % Config.totalizerModulus = m.gross % Config.totalizerModulus
    ∧ (x.openNet + x.net) % Config.totalizerModulus = m.net % Config.totalizerModulus

/-- An arm's load as the law of the totalizers sees it: whether the arm is IDLE, its compartment's metering, and its totalizers. -/
def State.load (s : State) (a : Arm) : Bool × Option MeteringPart × Totals := (s.armIdle a, s.meteringOf a, s.totalsOf a)

/-- The law of the totalizers for one arm. -/
def State.armTotalsLaw (s : State) (a : Arm) : Prop :=
  (s.meteringOf a).isNone = s.armIdle a ∧ ∀ x, s.meteringOf a = some x → x.adds (s.totalsOf a)

theorem State.totalsLaw_iff : s.totalsLaw ↔ ∀ a, s.armTotalsLaw a := by
  refine forall_congr' fun a => and_congr (by rw [State.meteringOf, Option.isNone_map]) ?_
  simp [State.meteringOf, MeteringPart.adds, State.totalsOf]

theorem State.armTotalsLaw_of_load (h : t.load a = s.load a) (hs : s.armTotalsLaw a) : t.armTotalsLaw a := by
  have hidle : t.armIdle a = s.armIdle a := congrArg Prod.fst h
  have hmetering : t.meteringOf a = s.meteringOf a := congrArg (·.2.1) h
  have htotals : t.totalsOf a = s.totalsOf a := congrArg (·.2.2) h
  rw [State.armTotalsLaw, hidle, hmetering, htotals]
  exact hs

/-- An IDLE arm without a record meets the law. -/
theorem State.armTotalsLaw_of_idle (hidle : s.armIdle a = true) (hnone : s.meteringOf a = none) : s.armTotalsLaw a := by
  rw [State.armTotalsLaw, hidle, hnone]
  exact ⟨rfl, nofun⟩

/-- From `s` to `t` the law of the totalizers is kept. -/
def State.KeepsTotals (s t : State) : Prop := s.totalsLaw → t.totalsLaw

theorem State.KeepsTotals.refl (s : State) : s.KeepsTotals s := id

theorem State.KeepsTotals.trans (h : s.KeepsTotals t) (h' : t.KeepsTotals u) : s.KeepsTotals u := h' ∘ h

theorem State.KeepsTotals.ite {p : Prop} [Decidable p] (h : p → s.KeepsTotals t) (h' : ¬p → s.KeepsTotals u) :
    s.KeepsTotals (if p then t else u) := by
  split
  · exact h (by assumption)
  · exact h' (by assumption)

/-- One arm's load changed within the law, the other loads the same. -/
theorem State.KeepsTotals.of_arm (hothers : ∀ k, k ≠ a → t.load k = s.load k) (ha : s.armTotalsLaw a → t.armTotalsLaw a) :
    s.KeepsTotals t := by
  intro hs
  rw [State.totalsLaw_iff] at hs ⊢
  intro k
  by_cases hk : k = a
  · exact hk ▸ ha (hk ▸ hs k)
  · exact State.armTotalsLaw_of_load (hothers k hk) (hs k)

/-! ### What leaves every load as it is -/

/-- From `s` to `t` every arm keeps its load. -/
def State.SameLoads (s t : State) : Prop := ∀ a, t.load a = s.load a

theorem State.SameLoads.keeps (h : s.SameLoads t) : s.KeepsTotals t := fun hs =>
  State.totalsLaw_iff.mpr fun a => State.armTotalsLaw_of_load (h a) (State.totalsLaw_iff.mp hs a)

theorem State.SameLoads.refl (s : State) : s.SameLoads s := fun _ => rfl

theorem State.SameLoads.trans (h : s.SameLoads t) (h' : t.SameLoads u) : s.SameLoads u := fun a => (h' a).trans (h a)

theorem State.SameLoads.ite {p : Prop} [Decidable p] (h : p → s.SameLoads t) (h' : ¬p → s.SameLoads u) :
    s.SameLoads (if p then t else u) := by
  split
  · exact h (by assumption)
  · exact h' (by assumption)

theorem State.load_of_parts (hidle : t.armIdle a = s.armIdle a) (hmetering : t.meteringOf a = s.meteringOf a)
    (hme : (t.me.get a).gross = (s.me.get a).gross ∧ (t.me.get a).net = (s.me.get a).net) : t.load a = s.load a := by
  rw [State.load, hidle, hmetering, State.totalsOf, hme.1, hme.2]
  rfl

theorem State.SameLoads.of_parts (hidle : ∀ a, t.armIdle a = s.armIdle a)
    (hmetering : ∀ a, t.meteringOf a = s.meteringOf a := by simp) (me : t.me = s.me := by simp) : s.SameLoads t := fun a =>
  State.load_of_parts (hidle a) (hmetering a) (by rw [me]; exact ⟨rfl, rfl⟩)

/-- Blocks that are the same change no load. -/
theorem State.SameLoads.of_eq (fc : t.fc = s.fc := by simp) (running : t.running = s.running := by simp)
    (me : t.me = s.me := by simp) : s.SameLoads t :=
  .of_parts (fun a => by rw [State.armIdle, fc, State.armIdle]) (fun a => State.meteringOf_congr running a) me

theorem State.armIdle_of_fc (h : t.fc = s.fc) (a : Arm) : t.armIdle a = s.armIdle a := by rw [State.armIdle, h, State.armIdle]

/-- The Flow Controllers the same, and every compartment's metering and every channel. -/
theorem State.SameLoads.of_metering (fc : t.fc = s.fc := by simp) (hmetering : ∀ a, t.meteringOf a = s.meteringOf a := by simp)
    (me : t.me = s.me := by simp) : s.SameLoads t := .of_parts (State.armIdle_of_fc fc) hmetering me

theorem State.SameLoads.modifyFc (h : s.SameLoads t) (a : Arm) {f : FlowController → FlowController}
    (hf : ∀ x, (f x).state = x.state := by exact fun _ => rfl) : s.SameLoads (t.modifyFc a f) := by
  refine h.trans (.of_parts fun k => ?_)
  rw [State.armIdle, State.modifyFc_fc, PerArm.get_modify]
  split
  · rw [hf]; rfl
  · rfl

/-! ### The arms' flow -/

theorem State.SameLoads.raiseCause (h : s.SameLoads t) (a : Arm) (c : StopCause) : s.SameLoads (t.raiseCause a c) :=
  h.trans (.of_parts (t.raiseCause_idle a c))

theorem State.SameLoads.raiseCauses (h : s.SameLoads t) (a : Arm) (causes : List StopCause) :
    s.SameLoads (t.raiseCauses a causes) := by
  unfold State.raiseCauses
  induction causes generalizing t with
  | nil => exact h
  | cons c rest ih => exact ih (h.raiseCause a c)

theorem State.SameLoads.raiseOn (h : s.SameLoads t) (arms : List Arm) (c : StopCause) : s.SameLoads (t.raiseOn arms c) := by
  unfold State.raiseOn
  induction arms generalizing t with
  | nil => exact h
  | cons a rest ih => exact ih (h.raiseCause a c)

/-- One arm's flow moved, the arm at work before and after. -/
theorem State.OnArm.sameLoads (h : State.OnArm a s t) (hs : s.armIdle a = false) (ht : t.armIdle a = false)
    (hmetering : ∀ k, t.meteringOf k = s.meteringOf k := by simp) (me : t.me = s.me := by simp) : s.SameLoads t := by
  refine .of_parts (fun k => ?_) hmetering me
  by_cases hk : k = a
  · rw [hk, hs, ht]
  · rw [State.armIdle, h.others k hk, State.armIdle]

theorem State.armIdle_modifyFc {f : FlowController → FlowController} (hf : (f (s.fc.get a)).state ≠ .idle) :
    (s.modifyFc a f).armIdle a = false := by
  rw [State.armIdle_eq_false_iff, State.modifyFc_fc, PerArm.get_modify_self]
  exact hf

theorem State.enterEnding_works (s : State) (a : Arm) : (s.enterEnding a).armIdle a = false := by
  rw [State.armIdle_eq_false_iff]
  unfold State.enterEnding
  dsimp only
  split <;> simp

theorem State.endClosing_works (s : State) (a : Arm) : (s.endClosing a).armIdle a = false := by
  unfold State.endClosing
  split <;> exact State.enterEnding_works _ a

theorem State.stageArm_works (h : s.armIdle a = false) : (s.stageArm a).armIdle a = false := by
  have hstage : ∀ stage : Stage, stage.state ≠ .idle := fun stage => by cases stage <;> decide
  unfold State.stageArm
  split
  · dsimp only
    split
    · split
      · obtain ⟨x, hfc, hstate, -⟩ := s.enterClosing_moves a .complete
        rw [State.armIdle_of_set hfc, if_pos rfl, hstate]
        rfl
      all_goals exact State.armIdle_modifyFc (hstage _)
    · exact h
  · exact h

theorem State.raiseCauses_works (h : s.armIdle a = false) (causes : List StopCause) : (s.raiseCauses a causes).armIdle a = false :=
  (congrArg Prod.fst ((State.SameLoads.refl s).raiseCauses a causes a)).trans h

theorem State.countClosing_works (h : s.armIdle a = false) (n : Nat) : (s.countClosing a n).armIdle a = false := by
  unfold State.countClosing
  generalize (if n = 0 then (s.fc.get a).closingCount + 1 else 0) = count
  dsimp only
  split
  · exact State.endClosing_works _ a
  · exact State.armIdle_modifyFc (State.armIdle_eq_false_iff.mp h)

theorem State.flowInterval_works (h : s.armIdle a = false) (n : Nat) (causes : List StopCause) :
    (s.flowInterval a n causes).armIdle a = false := by
  have hraised := State.raiseCauses_works h causes
  unfold State.flowInterval
  split
  case h_1 => exact h
  case h_5 => exact State.countClosing_works hraised n
  case h_6 | h_7 => exact hraised
  all_goals
    dsimp only
    split
    · exact State.armIdle_modifyFc (State.armIdle_eq_false_iff.mp (State.stageArm_works hraised))
    · exact State.stageArm_works hraised

theorem State.SameLoads.flowInterval (h : s.SameLoads t) (a : Arm) (n : Nat) (causes : List StopCause) :
    s.SameLoads (t.flowInterval a n causes) := by
  cases hidle : t.armIdle a
  · exact h.trans (((State.OnArm.refl t).flowInterval n causes).sameLoads hidle (State.flowInterval_works hidle n causes))
  · rwa [State.flowInterval_of_idle (State.armIdle_iff.mp hidle)]

theorem State.SameLoads.endClosing (h : s.SameLoads t) (a : Arm) (hclosing : (t.fc.get a).state = .closing) :
    s.SameLoads (t.endClosing a) :=
  h.trans ((State.OnArm.refl t).endClosing.sameLoads (by rw [State.armIdle_eq_false_iff, hclosing]; decide)
    (t.endClosing_works a))

theorem State.SameLoads.endPaused (h : s.SameLoads t) (a : Arm) (r : EndReason) (hpaused : (t.fc.get a).state = .paused) :
    s.SameLoads ((t.setEndReason a r).enterEnding a) :=
  h.trans ((((State.OnArm.refl t).setEndReason r).enterEnding).sameLoads (State.armIdle_of_paused hpaused)
    (State.enterEnding_works _ a))

@[simp] theorem State.meteringOf_enterStage (s : State) (a : Arm) (stage : Stage) (k : Arm) :
    (s.enterStage a stage).meteringOf k = s.meteringOf k := by
  cases stage
  case closing => exact State.meteringOf_enterClosing ..
  all_goals exact State.meteringOf_congr (State.enterFlow_running ..) k

/-! ### Shots and pacing -/

theorem State.SameLoads.modifyLine (h : s.SameLoads t) (ch : Channel) (f : LineRecord → LineRecord) :
    s.SameLoads (t.modifyLine ch f) := h.trans .of_metering

theorem State.SameLoads.emptyQueues (h : s.SameLoads t) : s.SameLoads t.emptyQueues := by
  unfold State.emptyQueues
  generalize Channel.all = channels
  induction channels generalizing t with
  | nil => exact h
  | cons ch rest ih => exact ih (h.trans .of_metering)

theorem State.SameLoads.pace (h : s.SameLoads t) (a : Arm) : s.SameLoads (t.pace a).1 := h.trans .of_metering

theorem State.SameLoads.handOn (h : s.SameLoads t) (a : Arm) (n : Nat) (causes : List StopCause) (order : IntervalOrder) :
    s.SameLoads (t.handOn a n causes order) := by
  cases order
  case flowFirst => exact ((h.flowInterval a n causes).pace a).raiseCauses a _
  case dosingFirst => exact ((h.pace a).raiseCauses a _).flowInterval a n causes
  case leavingLast => exact ((h.pace a).flowInterval a n causes).raiseCauses a _

theorem State.SameLoads.draw (h : s.SameLoads t) (x : Additive) (ml : Nat) : s.SameLoads (t.draw x ml) :=
  .ite (fun _ => (h.trans .of_eq).raiseOn _ _) fun _ => h.trans .of_eq

theorem State.SameLoads.takePulse (h : s.SameLoads t) (ch : Channel) : s.SameLoads (t.takePulse ch) := by
  have hcounted : ∀ (v : State) (p : Additive) (ml : Nat), s.SameLoads v → s.SameLoads (v.countShotPulse p ch ml) :=
    fun v p ml hv =>
      have hline : s.SameLoads ((v.modifyPump p fun x => { x with pulseCount := x.pulseCount + 1, volume := x.volume + ml }).modifyLine
          ch fun x => { x with injected := x.injected + ml }) := (hv.trans .of_eq).modifyLine ch _
      .ite (fun _ => hline.trans .of_eq) fun _ => hline
  have hleak : ∀ (v : State) (ml : Nat), s.SameLoads v → s.SameLoads (v.countLeak ch ml) := fun v ml hv => hv.trans .of_eq
  have hresidue : s.SameLoads (t.modifyChannel ch fun k =>
      { k with residue := pulseResidue (t.wc.injectors.get ch).kMilli k.residue }) := h.trans .of_eq
  unfold State.takePulse
  dsimp only
  split <;> split
  · exact (hcounted _ _ _ hresidue).draw _ _
  · exact (hleak _ _ hresidue).draw _ _
  · exact hcounted _ _ _ hresidue
  · exact hleak _ _ hresidue

theorem State.sameLoads_shotShort (s : State) (p : Additive) : s.SameLoads (s.shotShort p) := by
  unfold State.shotShort
  dsimp only
  repeat' split
  case h_1.isTrue.isFalse => exact State.SameLoads.raiseCause .of_eq _ _
  all_goals exact .of_eq

end Sys2Proof.Machine
end


section
/-! The interval's crediting, an accepted START, the hand-over and a reset keep the law of the totalizers (R84, R94, R106 to R109, R119,
R161, R162). -/

namespace Sys2Proof.Machine

-- One after the other: a thread for each of these proofs would pass the memory the check allows.
set_option Elab.async false

variable {s t u : State} {a : Arm} {b : Bay} {y : Running}

/-! ### The crediting (R94, R101, R106, R107) -/

/-- The numerator of stage 5: the raw millilitres by the meter factor of the interval's rate, with the gross residue (R101). -/
def MeterParameters.grossNum (p : MeterParameters) (m : MeteringChannel) (h : Handover) : Nat :=
  m.rawMl p.k h * p.mfAt (m.afterRaw p.k h).rate + m.grossResidue

/-- The temperature stages 7 and 8 use: the working temperature after stage 6, or the fallback (R103). -/
def MeterParameters.temperatureUsed (p : MeterParameters) (m : MeteringChannel) (part : Option MeteringPart) (h : Handover) : Int :=
  (workingTemperature (p.windowAfter m part h.raw)).getD p.fallback

/-- The numerator of stage 8: the gross millilitres by the correction factor, with the net residue (R106). -/
def MeterParameters.netNum (p : MeterParameters) (m : MeteringChannel) (part : Option MeteringPart) (h : Handover) : Nat :=
  p.grossNum m h / 100000 * vcf p.alpha (p.temperatureUsed m part h) + m.netResidue

/-- The channel after stages 5 and 8. -/
theorem meterInterval_channel (p : MeterParameters) (m : MeteringChannel) (part : Option MeteringPart) (h : Handover) :
    ((meterInterval p m part h).channel.grossResidue = p.grossNum m h % 100000
        ∧ (meterInterval p m part h).channel.netResidue = p.netNum m part h % 100000)
      ∧ (meterInterval p m part h).channel.gross = (m.gross + p.grossNum m h / 100000) % 1000000000000
      ∧ (meterInterval p m part h).channel.net = (m.net + p.netNum m part h / 100000) % 1000000000000 := by
  rw [meterInterval_eq (grossNum := p.grossNum m h) (netNum := p.netNum m part h) rfl rfl rfl rfl rfl rfl rfl rfl]
  exact ⟨⟨rfl, rfl⟩, rfl, rfl⟩

/-- A compartment's part keeps its opening totalizers, and gains what is credited. -/
theorem MeteringPart.after_credits (y : MeteringPart) (p : MeterParameters) (h : Handover) (reverseMl grossInc netInc : Nat)
    (substituted : Bool) (used : Int) :
    ((y.after p h reverseMl grossInc netInc substituted used).openGross = y.openGross
        ∧ (y.after p h reverseMl grossInc netInc substituted used).openNet = y.openNet)
      ∧ (y.after p h reverseMl grossInc netInc substituted used).gross = y.gross + grossInc
      ∧ (y.after p h reverseMl grossInc netInc substituted used).net = y.net + netInc := ⟨⟨rfl, rfl⟩, rfl, rfl⟩

/-- A compartment's quantities after stages 5 and 8. -/
theorem meterInterval_part (p : MeterParameters) (m : MeteringChannel) (y : MeteringPart) (h : Handover) :
    ∃ z, (meterInterval p m (some y) h).part = some z ∧ (z.openGross = y.openGross ∧ z.openNet = y.openNet)
      ∧ z.gross = y.gross + p.grossNum m h / 100000 ∧ z.net = y.net + p.netNum m (some y) h / 100000 := by
  rw [meterInterval_eq (grossNum := p.grossNum m h) (netNum := p.netNum m (some y) h) rfl rfl rfl rfl rfl rfl rfl rfl]
  exact ⟨_, rfl, y.after_credits ..⟩

/-- Equal gains keep the sum in step with the totalizer, modulo 10^12. -/
theorem totalizer_gains {opened credited total : Nat} (h : (opened + credited) % 1000000000000 = total % 1000000000000)
    (gain : Nat) : (opened + (credited + gain)) % 1000000000000 = (total + gain) % 1000000000000 % 1000000000000 := by
  rw [Nat.mod_mod, ← Nat.add_assoc]
  exact Nat.ModEq.add_right gain h

/-- What an interval credits to the compartment is what its channel's totalizers gain. -/
theorem meterInterval_adds {p : MeterParameters} {m : MeteringChannel} {y : MeteringPart} (h : Handover)
    (hy : y.adds { gross := m.gross, net := m.net }) :
    ∃ z, (meterInterval p m (some y) h).part = some z
      ∧ z.adds
        { gross := (meterInterval p m (some y) h).channel.gross, net := (meterInterval p m (some y) h).channel.net } := by
  obtain ⟨-, hgross, hnet⟩ := meterInterval_channel p m (some y) h
  obtain ⟨z, hz, ⟨hopenGross, hopenNet⟩, hcredited, hcredited'⟩ := meterInterval_part p m y h
  refine ⟨z, hz, ?_, ?_⟩
  · rw [hgross, hopenGross, hcredited]
    exact totalizer_gains hy.1 _
  · rw [hnet, hopenNet, hcredited']
    exact totalizer_gains hy.2 _

theorem State.computed_running (s : State) (a : Arm) (x : MeterResult) (k : Arm) :
    ((s.computed a x).running.get k).map Running.metering =
      if k = a then (s.meteringOf a).map fun m => x.part.getD m else s.meteringOf k := by
  unfold State.computed State.meteringOf
  cases x.part with
  | none =>
    by_cases hk : k = a
    · rw [if_pos hk, hk, Option.map_map]
      rfl
    · rw [if_neg hk]
  | some z =>
    dsimp only
    rw [PerArm.get_modify]
    split
    case isTrue hk => simp [hk, Option.map_map, Function.comp_def]
    case isFalse => rfl

/-- The metering of every compartment after the crediting: its own arm's is what the computation made of it. -/
theorem State.meteringOf_credited (s : State) (a : Arm) (x : MeterResult) (k : Arm) :
    (s.credit a x).meteringOf k = if k = a then (s.meteringOf a).map fun m => x.part.getD m else s.meteringOf k :=
  (s.meteringOf_credit a x k).trans (s.computed_running a x k)

theorem State.credit_me (s : State) (a : Arm) (x : MeterResult) : (s.credit a x).me = s.me.set a x.channel := by
  rw [State.credit_eq]
  split <;> rfl

theorem State.keepsTotals_credit (s : State) (a : Arm) (h : Handover) : s.KeepsTotals (s.credit a (s.meterResult a h)) := by
  have hidle : ∀ k, (s.credit a (s.meterResult a h)).armIdle k = s.armIdle k := State.armIdle_of_fc (State.credit_fc ..)
  refine .of_arm (a := a) (fun k hk => State.load_of_parts (hidle k) ?_ ?_) fun ⟨hactive, hadds⟩ => ?_
  · rw [State.meteringOf_credited, if_neg hk]
  · rw [State.credit_me, PerArm.get_set_of_ne _ _ hk]
    exact ⟨rfl, rfl⟩
  · rw [State.armTotalsLaw, hidle, State.meteringOf_credited, if_pos rfl, State.totalsOf, State.credit_me, PerArm.get_set_self]
    cases hy : s.meteringOf a with
    | none => exact ⟨by rw [← hactive, hy]; rfl, nofun⟩
    | some y =>
      have hworks : s.armIdle a = false := by rw [← hactive, hy]; rfl
      have hresult : s.meterResult a h = meterInterval (s.meterParameters a) (s.me.get a) (some y) h := by
        rw [State.meterResult, State.active, hworks, ← hy]
        rfl
      obtain ⟨z, hz, hbalanced⟩ := meterInterval_adds (p := s.meterParameters a) h (hadds y hy)
      rw [hresult, Option.map_some, hz, hworks]
      exact ⟨rfl, fun x hx => Option.some.inj hx ▸ hbalanced⟩

theorem State.keepsTotals_intervalEnd (s : State) (a : Arm) (raw : Nat) (order : IntervalOrder) :
    s.KeepsTotals (s.intervalEnd a raw order) := by
  have htaken : s.SameLoads (s.takeHandover a (s.handoverOf a raw)) := .of_eq
  exact (htaken.keeps.trans (State.keepsTotals_credit _ a _)).trans ((State.SameLoads.refl _).handOn a _ _ order).keeps

/-! ### An accepted START and RESUME (R84, R109, R126) -/

/-- A compartment opened at the totalizers as they stand, with nothing credited, is in step with them. -/
theorem MeteringPart.opening_adds (m : MeteringChannel) : (MeteringPart.opening m).adds { gross := m.gross, net := m.net } :=
  ⟨rfl, rfl⟩

theorem State.keepsTotals_startArm (s : State) (b : Bay) (a : Arm) (order : Nat) (o : Order) (x : Compartment) :
    s.KeepsTotals (s.startArm b a order o x) := by
  have hme : (s.startArm b a order o x).me = s.me.set a { s.me.get a with temperatures := [] } := by simp [State.startArm]
  have hidle : ∀ k, (s.startArm b a order o x).armIdle k = if k = a then false else s.armIdle k := fun k => by
    rw [State.startArm, State.enterStage_idle]
    simp [State.armIdle]
  have hmetering : ∀ k, (s.startArm b a order o x).meteringOf k =
      if k = a then some (.opening (s.me.get a)) else s.meteringOf k := fun k => by
    rw [State.startArm, State.meteringOf_enterStage, State.meteringOf, State.serveLines_running]
    simp only [State.setMe_running, State.setRunning_running, PerArm.get_set]
    split
    · rfl
    · simp [State.meteringOf]
  refine .of_arm (a := a) (fun k hk => State.load_of_parts ?_ ?_ ?_) fun _ => ?_
  · rw [hidle, if_neg hk]
  · rw [hmetering, if_neg hk]
  · rw [hme, PerArm.get_set_of_ne _ _ hk]
    exact ⟨rfl, rfl⟩
  · rw [State.armTotalsLaw, hidle, hmetering, if_pos rfl, if_pos rfl, State.totalsOf, hme, PerArm.get_set_self]
    exact ⟨rfl, fun z hz => Option.some.inj hz ▸ MeteringPart.opening_adds (s.me.get a)⟩

/-- An arm at work takes a stage. -/
theorem State.SameLoads.enterStage (h : s.SameLoads t) (a : Arm) (stage : Stage) (hworks : t.armIdle a = false) :
    s.SameLoads (t.enterStage a stage) :=
  h.trans (((State.OnArm.refl t).enterStage stage).sameLoads hworks (by rw [State.enterStage_idle, if_pos rfl]))

/-! ### The hand-over (R107, R108, R119) -/

/-- A note clears its arm's unauthorized-flow counter, and leaves the totalizers. -/
theorem State.addNote_me (s : State) (a : Arm) (n : NoteRecord) :
    (s.addNote a n).me = s.me.set a { s.me.get a with unauthorized := 0 } := by
  unfold State.addNote
  dsimp only
  split <;> simp

theorem State.sameLoads_addNote (s : State) (a : Arm) (n : NoteRecord) : s.SameLoads (s.addNote a n) := fun k => by
  refine State.load_of_parts (State.armIdle_of_fc (State.addNote_fc ..) k) (State.meteringOf_congr (State.addNote_running ..) k) ?_
  rw [State.addNote_me, PerArm.get_set]
  split
  case isTrue hk => rw [hk]; exact ⟨rfl, rfl⟩
  case isFalse => exact ⟨rfl, rfl⟩

theorem State.sameLoads_takeCompartment (s : State) (a : Arm) (y : Running) : s.SameLoads (s.takeCompartment a y) := by
  unfold State.takeCompartment
  split
  · exact .of_eq
  · dsimp only
    generalize y.toNote _ _ _ _ _ _ = n
    refine (s.sameLoads_addNote a n).trans ?_
    exact .of_eq

/-- The arm IDLE again, its record discarded. -/
theorem State.keepsTotals_armToIdle (s : State) (a : Arm) : s.KeepsTotals (s.armToIdle a) := by
  have hfc : (s.armToIdle a).fc = s.fc.set a (s.fc.get a).handedOver := by rw [State.armToIdle_eq]
  have hrunning : (s.armToIdle a).running = s.running.set a none := by rw [State.armToIdle_eq]
  refine .of_arm (a := a) (fun k hk => State.load_of_parts ?_ ?_ ?_) fun _ => State.armTotalsLaw_of_idle ?_ ?_
  · rw [State.armIdle_of_set hfc, if_neg hk]
  · rw [State.meteringOf, hrunning, PerArm.get_set_of_ne _ _ hk, State.meteringOf]
  · rw [State.armToIdle_me]
    exact ⟨rfl, rfl⟩
  · rw [State.armIdle_of_set hfc, if_pos rfl]
    rfl
  · rw [State.meteringOf, hrunning, PerArm.get_set_self]
    rfl

theorem State.keepsTotals_handOver (s : State) (a : Arm) : s.KeepsTotals (s.handOver a) := by
  cases hy : s.running.get a with
  | none =>
    rw [State.handOver, hy]
    exact .refl s
  | some y =>
    have hsettled : ∀ v : State, v.SameLoads (s.settleBay v a) := fun v => by
      have hcalmed : v.SameLoads (if (s.fc.get a).causes.contains .deadman then v.deadmanCauseLeft a.bay else v) :=
        .ite (fun _ => .of_eq) fun _ => .refl v
      refine hcalmed.trans ?_
      unfold State.settleBay
      exact .of_eq
    rw [State.handOver_of_running hy]
    refine ((s.sameLoads_takeCompartment a y).keeps.trans (State.keepsTotals_armToIdle _ a)).trans ?_
    exact (State.SameLoads.trans .of_eq (hsettled _)).keeps

theorem State.KeepsTotals.takeFreed (h : s.KeepsTotals t) (before : State) : s.KeepsTotals (t.takeFreed before) :=
  State.takeFreed_keeps s.KeepsTotals before h fun v a hv _ _ => hv.trans (v.keepsTotals_handOver a)

/-! ### Resets (R161, R162) -/

/-- A reset leaves every arm IDLE, and makes every running record found into a note. -/
theorem State.keepsTotals_leaveReset (s : State) (x : ResetLines) (valid : Bool) : s.KeepsTotals (s.leaveReset x valid) := by
  obtain ⟨lc, notes, -, heq⟩ := s.leaveReset_eq x valid rfl
  refine fun _ => State.totalsLaw_iff.mpr fun a => State.armTotalsLaw_of_idle ?_ ?_
  · exact State.armIdle_iff.mpr (congrArg Prod.fst ((s.atRest_leaveReset x valid).course a))
  · rw [heq]
    show ((State.withNotes _ Arm.all notes).running.get a).map Running.metering = none
    rw [State.running_withNotes, if_pos (Arm.mem_all a)]
    rfl

end Sys2Proof.Machine
end


section
/-! Each request keeps the law of the totalizers: all but START leave every load as it is, and START opens one. -/

namespace Sys2Proof.Machine

-- One after the other: a thread for each of these proofs would pass the memory the check allows.
set_option Elab.async false

variable {s t u : State} {a : Arm} {b : Bay} {l : Link} {α : Type} {form : Walk α}

/-! ### Answers -/

theorem State.serveRequest_keepsTotals {code : Byte} {cls : RequestClass} {owner : α → State → Answer}
    (h : ∀ y, s.KeepsTotals (owner y s).state) : s.KeepsTotals (s.serveRequest l code cls form owner) :=
  State.serveRequest_keeps s.KeepsTotals (.refl s)
    (fun _ _ _ _ ht => ht.trans (State.SameLoads.keeps .of_eq)) fun y _ => h y

theorem State.serveRequest_sameLoads {code : Byte} {cls : RequestClass} {owner : α → State → Answer}
    (h : ∀ y, s.SameLoads (owner y s).state) : s.KeepsTotals (s.serveRequest l code cls form owner) :=
  State.serveRequest_keepsTotals fun y => (h y).keeps

theorem State.serveBay_keepsTotals {code : Byte} {owner : Bay → α → State → Answer}
    (h : ∀ b y (t : State), t.KeepsTotals (owner b y t).state) : s.KeepsTotals (s.serveBay l code form owner) := by
  have hreset : s.KeepsTotals (s.setPlanReset l false) := State.SameLoads.keeps .of_eq
  exact State.serveBay_keeps s.KeepsTotals (.refl s) (fun _ _ _ _ ht => ht.trans (State.SameLoads.keeps .of_eq))
    (fun b y _ => hreset.trans (h b y _))
    fun b y _ _ => (hreset.trans (h b y _)).trans (State.SameLoads.keeps .of_eq)

theorem State.serveBay_sameLoads {code : Byte} {owner : Bay → α → State → Answer}
    (h : ∀ b y (t : State), t.SameLoads (owner b y t).state) : s.KeepsTotals (s.serveBay l code form owner) :=
  State.serveBay_keepsTotals fun b y t => (h b y t).keeps

theorem State.SameLoads.refuseBayState (h : s.SameLoads t) (b : Bay) (l : Link) : s.SameLoads (t.refuseBayState b l).state := by
  refine h.trans ?_
  unfold State.refuseBayState
  split <;> exact .of_eq

/-! ### Bay requests that touch no arm (R45 to R53, R67, R76 to R82, R86) -/

theorem cardOwner_sameLoads (s : State) (l : Link) (b : Bay) (n : Nat) : s.SameLoads (cardOwner l b n s).state := by
  unfold cardOwner State.bindDriver
  split
  · exact (State.SameLoads.refl s).refuseBayState b l
  · repeat' split
    all_goals exact .of_eq

theorem State.sameLoads_judgePin (s : State) (b : Bay) (n : Nat) (d : DriverRecord) (p : PinField) :
    s.SameLoads (s.judgePin b n d p).state := by
  unfold State.judgePin State.pinFailed State.pinMatched State.putDriver
  dsimp only
  repeat' split
  all_goals exact .of_eq

theorem pinOwner_sameLoads (s : State) (l : Link) (b : Bay) (p : PinField) : s.SameLoads (pinOwner l b p s).state := by
  unfold pinOwner
  split
  · exact (State.SameLoads.refl s).refuseBayState b l
  · repeat' split
    case h_1 => exact s.sameLoads_judgePin b _ _ p
    all_goals exact .refl s

theorem State.SameLoads.claimOrder (h : s.SameLoads t) (b : Bay) (n : Nat) : s.SameLoads (t.claimOrder b n) := by
  refine h.trans ?_
  unfold State.claimOrder
  dsimp only
  split <;> exact .of_eq

theorem selectOwner_sameLoads (s : State) (l : Link) (b : Bay) (n : Nat) : s.SameLoads (selectOwner l b n s).state := by
  have hreset : s.SameLoads (s.resetSelection b l) := .of_eq
  unfold selectOwner
  split
  case h_1 =>
    split
    · exact .refl s
    · exact ((State.SameLoads.refl s).claimOrder b n).trans .of_eq
  case h_2 =>
    dsimp only
    split
    · exact hreset
    · exact hreset.claimOrder b n
  all_goals exact .refl s

theorem planningOwner_sameLoads (s : State) (l : Link) (b : Bay) (judge : Selection → Except ResultCode Selection) :
    s.SameLoads (planningOwner l b judge s).state := by
  unfold planningOwner
  repeat' split
  all_goals exact .of_eq

theorem commitOwner_sameLoads (s : State) (l : Link) (b : Bay) : s.SameLoads (commitOwner l b s).state := by
  unfold commitOwner
  dsimp only
  repeat' split
  all_goals exact .of_eq

theorem newPlanOwner_sameLoads (s : State) (l : Link) (b : Bay) : s.SameLoads (newPlanOwner l b s).state := by
  unfold newPlanOwner
  repeat' split
  · exact (State.SameLoads.refl s).refuseBayState b l
  all_goals exact .of_eq

theorem signOffOwner_sameLoads (s : State) (b : Bay) : s.SameLoads (signOffOwner b s).state := by
  unfold signOffOwner
  repeat' split
  all_goals exact .of_eq

/-! ### The arms (R83 to R85, R124 to R126) -/

theorem startOwner_keepsTotals (s : State) (l : Link) (b : Bay) (x : Nat × Nat) : s.KeepsTotals (startOwner l b x s).state := by
  unfold startOwner
  dsimp only
  repeat' split
  case isTrue => exact ((State.SameLoads.refl s).refuseBayState b l).keeps
  case h_2 => exact s.keepsTotals_startArm b _ _ _ _
  all_goals exact .refl s

theorem armOwner_sameLoads (s : State) (l : Link) (b : Bay) (n : Nat) {flow : Arm → State → Answer}
    (h : ∀ a, s.SameLoads (flow a s).state) : s.SameLoads (armOwner l b n flow s).state := by
  unfold armOwner
  repeat' split
  · exact (State.SameLoads.refl s).refuseBayState b l
  · exact .refl s
  · exact .refl s
  · exact h _

theorem stopFlow_sameLoads (s : State) (a : Arm) : s.SameLoads (stopFlow a s).state := by
  unfold stopFlow
  split
  · exact (State.SameLoads.refl s).raiseCause a _
  · exact .refl s

theorem resumeFlow_sameLoads (s : State) (a : Arm) : s.SameLoads (resumeFlow a s).state := by
  unfold resumeFlow
  split
  case isTrue hresumable =>
    simp only [Bool.and_eq_true, decide_eq_true_eq] at hresumable
    split
    · exact (State.SameLoads.refl s).enterStage a _ (State.armIdle_of_paused hresumable.1.1)
    · exact .refl s
  case isFalse => exact .refl s

theorem ackFlow_sameLoads (s : State) (c : StopCause) (a : Arm) : s.SameLoads (ackFlow c a s).state := by
  have hremoved : s.SameLoads (s.modifyFc a (·.acknowledged c)) := (State.SameLoads.refl s).modifyFc a
  unfold ackFlow
  split
  · rw [State.removeCause_eq]
    exact .ite (fun _ => hremoved.trans .of_eq) fun _ => hremoved
  · exact .refl s

theorem ackOwner_sameLoads (s : State) (l : Link) (b : Bay) (x : Nat × Nat) : s.SameLoads (ackOwner l b x s).state := by
  unfold ackOwner
  repeat' split
  · exact (State.SameLoads.refl s).refuseBayState b l
  · exact .refl s
  · exact armOwner_sameLoads s l b _ fun a => ackFlow_sameLoads s _ a

theorem finishFlow_sameLoads (s : State) (a : Arm) : s.SameLoads (finishFlow a s).state := by
  unfold finishFlow
  split
  · exact (State.SameLoads.refl s).endPaused a _ (by assumption)
  · exact .refl s

/-! ### Office and Service requests (R40 to R44, R56, R59, R63 to R72, R88, R89, R129, R130, R133, R134, R143, R155) -/

theorem cancelOrderOwner_sameLoads (s : State) (n : Nat) : s.SameLoads (cancelOrderOwner n s).state := by
  unfold cancelOrderOwner State.cancelOrder State.cancelLoading State.takeFromSession
  dsimp only
  repeat' split
  case h_4.isFalse.isTrue => exact State.SameLoads.raiseOn .of_eq _ _
  all_goals exact .of_eq

theorem setServiceOwner_sameLoads (s : State) (x : Nat × Nat) : s.SameLoads (setServiceOwner x s).state := by
  unfold setServiceOwner State.takeOut State.bringIn State.setService
  dsimp only
  repeat' split
  case h_5.isFalse => exact State.SameLoads.raiseOn .of_eq _ _
  all_goals exact .of_eq

/-- Loads kept arm by arm. -/
theorem State.SameLoads.foldl {f : State → Arm → State} (hf : ∀ t a, s.SameLoads t → s.SameLoads (f t a)) (h : s.SameLoads t)
    (arms : List Arm) : s.SameLoads (arms.foldl f t) := by
  induction arms generalizing t with
  | nil => exact h
  | cons a rest ih => exact ih (hf t a h)

theorem officeStopOwner_sameLoads (s : State) (n : Nat) : s.SameLoads (officeStopOwner n s).state := by
  unfold officeStopOwner
  split
  · exact State.SameLoads.foldl (fun t a h => .ite (fun _ => h.modifyFc a) fun _ => h.raiseCause a _) (.refl s) _
  · exact .refl s

theorem officeReleaseOwner_sameLoads (s : State) (n : Nat) : s.SameLoads (officeReleaseOwner n s).state := by
  unfold officeReleaseOwner
  split
  · exact State.SameLoads.foldl (fun t a h => .ite (fun _ => h.modifyFc a) fun _ => h) (.refl s) _
  · exact .refl s

theorem State.sameLoads_writeArm (s : State) (a : Arm) (new : ArmRecord) : s.SameLoads (s.writeArm a new) := by
  unfold State.writeArm State.logSealed
  dsimp only
  refine State.SameLoads.modifyFc ?_ a
  split <;> exact .of_eq

theorem writeArmOwner_sameLoads (s : State) (x : ArmFields) : s.SameLoads (writeArmOwner x s).state := by
  unfold writeArmOwner
  repeat' split
  case h_2.isFalse => exact s.sameLoads_writeArm _ _
  all_goals exact .refl s

theorem releaseNoteOwner_keepsTotals (s : State) (n : Nat) : s.KeepsTotals (releaseNoteOwner n s).state := by
  unfold releaseNoteOwner
  repeat' split
  case h_2.isTrue => exact (State.SameLoads.keeps .of_eq).takeFreed s
  all_goals exact .refl s

/-- Every request keeps the law. -/
theorem exec_request_keepsTotals {c : Instr} {x : Link × Byte × RequestClass} (h : c.request = some x) (s : State) :
    ∃ t, exec c s = .next t ∧ s.KeepsTotals t := by
  cases c <;> cases h <;> refine ⟨_, rfl, ?_⟩
  case card l => exact State.serveBay_sameLoads fun b y t => cardOwner_sameLoads t l b y
  case pin l => exact State.serveBay_sameLoads fun b y t => pinOwner_sameLoads t l b y
  case selectOrder l => exact State.serveBay_sameLoads fun b y t => selectOwner_sameLoads t l b y
  case markFirst l | markLast l | exclude l => exact State.serveBay_sameLoads fun b y t => planningOwner_sameLoads t l b _
  case commitPlan l => exact State.serveBay_sameLoads fun b _ t => commitOwner_sameLoads t l b
  case newPlan l => exact State.serveBay_sameLoads fun b _ t => newPlanOwner_sameLoads t l b
  case start l => exact State.serveBay_keepsTotals fun b y t => startOwner_keepsTotals t l b y
  case stop l => exact State.serveBay_sameLoads fun b y t => armOwner_sameLoads t l b y (stopFlow_sameLoads t)
  case resume l => exact State.serveBay_sameLoads fun b y t => armOwner_sameLoads t l b y (resumeFlow_sameLoads t)
  case ackCause l => exact State.serveBay_sameLoads fun b y t => ackOwner_sameLoads t l b y
  case finish l => exact State.serveBay_sameLoads fun b y t => armOwner_sameLoads t l b y (finishFlow_sameLoads t)
  case signOff => exact State.serveBay_sameLoads fun b _ t => signOffOwner_sameLoads t b
  case cancelOrder => exact State.serveRequest_sameLoads (cancelOrderOwner_sameLoads s)
  case setBayService => exact State.serveRequest_sameLoads (setServiceOwner_sameLoads s)
  case officeStop => exact State.serveRequest_sameLoads (officeStopOwner_sameLoads s)
  case officeRelease => exact State.serveRequest_sameLoads (officeReleaseOwner_sameLoads s)
  case releaseNote => exact State.serveRequest_keepsTotals (releaseNoteOwner_keepsTotals s)
  case writeArm => exact State.serveRequest_sameLoads (writeArmOwner_sameLoads s)
  case writeDriver | deleteDriver | resetPin | writeRecipe | writeInjector | writePump | writeRack | writeProduct =>
    refine State.serveRequest_sameLoads fun y => ?_
    simp only [writeDriverOwner, deleteDriverOwner, resetPinOwner, writeRecipeOwner, writeInjectorOwner, writePumpOwner,
      writeRackOwner, writeProductOwner, State.writeSetting, State.logSealed]
    repeat' split
    all_goals exact .of_eq
  case identify | readStatus | readClock | readStock | setClock => exact State.serveRequest_sameLoads fun _ => .of_eq
  case readBay | readArm | readDriver | readOrder | readNote | readAudit | writeOrder | deleteOrder | setStock =>
    refine State.serveRequest_sameLoads fun y => ?_
    simp only [readBayOwner, readArmOwner, readDriverOwner, readOrderOwner, readNoteOwner, readAuditOwner, writeOrderOwner,
      deleteOrderOwner, setStockOwner]
    repeat' split
    all_goals exact .of_eq

end Sys2Proof.Machine
end


section
/-! Every event, and so every step, keeps the law of the totalizers: intervals, hand-overs and resets, and the events that leave
every load as it is. -/

namespace Sys2Proof.Machine

-- One after the other: a thread for each of these proofs would pass the memory the check allows.
set_option Elab.async false

variable {s t u : State} {a : Arm} {b : Bay} {l : Link}

/-! ### Links, inputs and timers -/

theorem State.sameLoads_serveUnknown (s : State) (l : Link) : s.SameLoads (s.serveUnknown l) := by
  unfold State.serveUnknown
  repeat' split
  all_goals exact .of_eq

theorem State.sameLoads_discardFrame (s : State) (l : Link) : s.SameLoads (s.discardFrame l) := .of_eq rfl rfl rfl

theorem State.SameLoads.offerFrame (h : s.SameLoads t) (l : Link) (r : Request) : s.SameLoads (t.offerFrame l r) := by
  refine h.trans (.ite (fun _ => .refl t) fun _ => ?_)
  split <;> exact .of_eq

theorem State.sameLoads_takeCharacter (s : State) (l : Link) (c : Byte) (stop : Bool) : s.SameLoads (s.takeCharacter l c stop) := by
  have hreceiver : ∀ x, s.SameLoads (s.setReceiver l x) := fun _ => .of_eq rfl rfl rfl
  have hdiscarded := s.sameLoads_discardFrame l
  unfold State.takeCharacter
  split
  · exact .ite (fun _ => hreceiver _) fun _ => .refl s
  · refine .ite (fun _ => ?_) fun _ => hdiscarded
    unfold State.collect
    split
    · exact hreceiver _
    · exact hdiscarded
    · exact (hreceiver _).offerFrame l _

theorem State.sameLoads_gapTimeout (s : State) (l : Link) : s.SameLoads (s.gapTimeout l) := by
  unfold State.gapTimeout
  split
  · exact .refl s
  · exact s.sameLoads_discardFrame l

theorem State.sameLoads_responseSent (s : State) (l : Link) : s.SameLoads (s.responseSent l) := by
  unfold State.responseSent
  split <;> exact .of_eq

theorem State.sameLoads_buttonAccepted (s : State) (b : Bay) (first : Bool) (level : LineLevel) :
    s.SameLoads (s.buttonAccepted b first level) := by
  unfold State.buttonAccepted State.deadmanPress
  repeat' split
  all_goals exact .of_eq

theorem State.sameLoads_debounce (s : State) (d : DiscreteInput) : s.SameLoads (s.debounce d) := by
  have hreported : s.SameLoads (s.reported d) := .of_eq rfl rfl rfl
  have hcut : ∀ (v : State) (cut : Channel → Bool), v.SameLoads (v.cutShots cut) := fun _ _ => .of_eq
  by_cases hsame : (s.ic.inputs.get d).accepted = (s.ic.inputs.get d).line
  · rw [State.debounce_of_same hsame]
    exact .of_eq rfl rfl rfl
  · rw [State.debounce_of_change hsame]
    unfold State.changeAccepted
    split
    case h_1 => exact (hreported.trans (hcut _ _)).raiseOn _ _
    case h_3 => exact hreported.raiseCause _ _
    case h_5 => exact ((hreported.raiseOn _ _).trans (hcut _ _)).emptyQueues
    case h_6 => exact hreported.trans .of_eq
    case h_7 => exact hreported.trans (State.sameLoads_buttonAccepted _ _ _ _)
    all_goals exact hreported

theorem State.sameLoads_restEnded (s : State) (p : Additive) : s.SameLoads (s.restEnded p) := by
  unfold State.restEnded
  exact .of_eq

theorem State.sameLoads_deadmanExpired (s : State) (x : DeadmanExpiry) : s.SameLoads (s.deadmanExpired x) := by
  have hstop : s.SameLoads (s.deadmanStop x) := (State.SameLoads.of_eq).raiseOn _ _
  unfold State.deadmanExpired
  split
  · split
    · exact .of_eq rfl rfl rfl
    · exact hstop
  · exact .ite (fun _ => hstop) fun _ => .refl s

/-! ### Store, supply and restoration -/

theorem State.keepsTotals_writeComplete (s : State) : s.KeepsTotals s.writeComplete := by
  unfold State.writeComplete
  split
  · exact (State.SameLoads.keeps .of_eq).takeFreed s
  · exact .refl s

theorem State.sameLoads_checkpointComplete (s : State) : s.SameLoads s.checkpointComplete := by
  unfold State.checkpointComplete
  split <;> exact .of_eq

theorem State.keepsTotals_areaCleared (s : State) : s.KeepsTotals s.areaCleared := by
  unfold State.areaCleared
  split
  · exact (State.SameLoads.keeps .of_eq).takeFreed s
  all_goals exact .refl s

theorem State.sameLoads_warn (s : State) (begun : PerLink Bool) : s.SameLoads (s.warn begun) := by
  have hdropped : s.SameLoads ((s.setWarning true).dropUnanswered begun) := .of_eq rfl rfl rfl
  have hcut : ∀ v : State, v.SameLoads (v.cutShots fun _ => true) := fun _ => .of_eq
  have hheld : ∀ v : State, v.SameLoads v.holdHandOvers := fun _ => .of_eq rfl rfl rfl
  have hdraining : ∀ (v : State) (x : NvController), v.SameLoads (v.setNvc x).advanceNv := fun _ _ => .of_eq
  exact (((hdropped.raiseOn Arm.all .powerFail).trans (hcut _)).emptyQueues.trans (hheld _)).trans (hdraining _ _)

theorem State.keepsTotals_endWarning (s : State) : s.KeepsTotals s.endWarning := (State.SameLoads.keeps .of_eq).takeFreed s

theorem State.sameLoads_completeRestoration (s : State) : s.SameLoads s.completeRestoration := .of_eq rfl rfl rfl

/-! ### Every command -/

/-- Every event keeps the law. -/
theorem exec_event_keepsTotals {c : Instr} (h : c.request = none) (s : State) :
    ∃ t, exec c s = .next t ∧ s.KeepsTotals t := by
  have acts : ∀ (p : Prop) [Decidable p] (t : State), (p → s.KeepsTotals t) → s.KeepsTotals (if p then t else s) :=
    fun p _ t ht => .ite ht fun _ => .refl s
  have same : ∀ (p : Prop) [Decidable p] (t : State), (p → s.SameLoads t) → s.KeepsTotals (if p then t else s) :=
    fun p _ t ht => acts p t fun hp => (ht hp).keeps
  cases c <;> cases h <;> refine ⟨_, rfl, ?_⟩
  case unknownRequest l => exact (s.sameLoads_serveUnknown l).keeps
  case characterReceived => exact same _ _ fun _ => s.sameLoads_takeCharacter _ _ _
  case gapTimeout => exact same _ _ fun _ => s.sameLoads_gapTimeout _
  case responseSent => exact same _ _ fun _ => s.sameLoads_responseSent _
  case debounceExpiry => exact same _ _ fun _ => s.sameLoads_debounce _
  case additivePulse c => exact same _ _ fun _ => State.SameLoads.takePulse (.of_eq rfl rfl rfl) c
  case meteringIntervalEnd => exact acts _ _ fun _ => s.keepsTotals_intervalEnd _ _ _
  case shotTimerExpiry => exact same _ _ fun _ => s.sameLoads_shotShort _
  case restTimerExpiry => exact same _ _ fun _ => s.sameLoads_restEnded _
  case closingTimerExpiry a => exact same _ _ fun h => (State.SameLoads.refl s).endClosing a (by simp_all)
  case noFlowTimerExpiry a => exact same _ _ fun _ => ((State.SameLoads.refl s).modifyFc a).raiseCause a _
  case pauseTimerExpiry a => exact same _ _ fun h => (State.SameLoads.refl s).endPaused a _ (by simp_all)
  case deadmanTimerExpiry x => exact same _ _ fun _ => s.sameLoads_deadmanExpired x
  case handOver a => exact acts _ _ fun _ => s.keepsTotals_handOver a
  case nvWriteComplete => exact acts _ _ fun _ => s.keepsTotals_writeComplete
  case checkpointWriteComplete => exact same _ _ fun _ => s.sameLoads_checkpointComplete
  case checkpointAreaCleared => exact acts _ _ fun _ => s.keepsTotals_areaCleared
  case powerFailWarningAssert begun => exact same _ _ fun _ => s.sameLoads_warn begun
  case powerFailWarningDeassert => exact acts _ _ fun _ => s.keepsTotals_endWarning
  case resetAsserted => exact .ite (fun _ => .refl s) fun _ => State.SameLoads.keeps (.of_eq rfl rfl rfl)
  case externalReset lines => exact .ite (fun _ => .refl s) fun _ => s.keepsTotals_leaveReset lines true
  case powerOnReset lines => exact s.keepsTotals_leaveReset lines _
  case restorationComplete => exact same _ _ fun _ => s.sameLoads_completeRestoration
  case rackClockTick | mainPowerLoss => exact State.SameLoads.keeps (.of_eq rfl rfl rfl)
  case discreteLineChange | stuckTimerExpiry | productMeterEdge | backupSupplyRanFlat => exact same _ _ fun _ => .of_eq rfl rfl rfl
  case pinTimerExpiry | inactivityTimerExpiry => exact same _ _ fun _ => .of_eq

/-- Every step keeps the law of the totalizers. -/
theorem step_keepsTotals (h : step s = .next t) : s.KeepsTotals t := by
  unfold step at h
  split at h
  case h_1 => cases h; exact .refl s
  case h_2 c rest _ =>
    have hqueue : s.KeepsTotals { s with pending := rest } := State.SameLoads.keeps (.of_eq rfl rfl rfl)
    obtain ⟨t', ht', hkeeps⟩ :
        ∃ t', exec c { s with pending := rest } = .next t' ∧ State.KeepsTotals { s with pending := rest } t' := by
      cases hrequest : c.request with
      | some x => exact exec_request_keepsTotals hrequest _
      | none => exact exec_event_keepsTotals hrequest _
    cases ht'.symm.trans h
    exact hqueue.trans hkeeps

/-- Settles O56: every step keeps the totalizers at the opening totalizers with what was credited since, by what each command does
to an arm's load. -/
theorem totalsLawIsKept : Obligations.TotalsLawIsKept := fun _ _ hs h => step_keepsTotals h hs

end Sys2Proof.Machine
end


section
/-! Raw to gross to net: the meter factor of a table's points, the correction factor of R105's five steps, and what an interval
credits (R100, R101, R105, R106). -/

namespace Sys2Proof.Machine

-- One after the other: a thread for each of these proofs would pass the memory the check allows.
set_option Elab.async false

variable {p : MeterParameters} {m : MeteringChannel} {h : Handover} {part : Option MeteringPart} {q r first : MfPoint}
  {rest before after : List MfPoint} {rate lo hi : Nat}

/-! ### Between two points (R100) -/

/-- A trunc of a part of `x` lies between 0 and `x`. -/
theorem tdiv_part_bounds {x n d : Int} (hn : 0 ≤ n) (hnd : n ≤ d) (hd : 0 < d) :
    min 0 x ≤ (x * n).tdiv d ∧ (x * n).tdiv d ≤ max 0 x := by
  have hpositive : ∀ y : Int, 0 ≤ y → 0 ≤ (y * n).tdiv d ∧ (y * n).tdiv d ≤ y := fun y hy =>
    ⟨Int.tdiv_nonneg (mul_nonneg hy hn) hd.le, by
      calc (y * n).tdiv d ≤ (y * d).tdiv d := Int.tdiv_le_tdiv hd (mul_le_mul_of_nonneg_left hnd hy)
        _ = y := Int.mul_tdiv_cancel y hd.ne'⟩
  rcases le_total 0 x with hx | hx
  · have := hpositive x hx
    omega
  · have := hpositive (-x) (by omega)
    rw [Int.neg_mul, Int.neg_tdiv] at this
    omega

/-- The factor at `rate` on the line from point `q` to point `r`: the first's, with trunc of the proportional part. -/
def MfPoint.line (q r : MfPoint) (rate : Nat) : Int := q.mf + (((r.mf : Int) - q.mf) * (rate - q.rate)).tdiv (r.rate - q.rate)

theorem MfPoint.line_at_first (q r : MfPoint) : q.line r q.rate = q.mf := by simp [MfPoint.line]

theorem MfPoint.line_bounds (hq : q.rate ≤ rate) (hr : rate < r.rate) (hqmf : lo ≤ q.mf ∧ q.mf ≤ hi) (hrmf : lo ≤ r.mf ∧ r.mf ≤ hi) :
    (lo : Int) ≤ q.line r rate ∧ q.line r rate ≤ hi := by
  have := tdiv_part_bounds (x := (r.mf : Int) - q.mf) (n := (rate : Int) - q.rate) (d := (r.rate : Int) - q.rate)
    (by omega) (by omega) (by omega)
  rw [MfPoint.line]
  omega

/-! ### Along the table (R100) -/

theorem mfBeyond_nil (q : MfPoint) (rate : Nat) : mfBeyond q rate [] = q.mf := rfl

theorem mfBeyond_cons_of_le (hr : r.rate ≤ rate) (q : MfPoint) (after : List MfPoint) :
    mfBeyond q rate (r :: after) = mfBeyond r rate after := if_pos hr

theorem mfBeyond_cons_of_lt (hr : rate < r.rate) (q : MfPoint) (after : List MfPoint) :
    mfBeyond q rate (r :: after) = (q.line r rate).toNat := if_neg (Nat.not_le.mpr hr)

/-- At the rate of the point itself its factor. -/
theorem mfBeyond_at_first (hrising : ((q :: after).map MfPoint.rate).Pairwise (· < ·)) : mfBeyond q q.rate after = q.mf := by
  cases after with
  | nil => rfl
  | cons r after =>
    have hr : q.rate < r.rate := List.rel_of_pairwise_cons hrising List.mem_cons_self
    rw [mfBeyond_cons_of_lt hr, MfPoint.line_at_first, Int.toNat_natCast]

theorem mfBeyond_bounds (hq : q.rate ≤ rate) (hmf : ∀ x ∈ q :: after, lo ≤ x.mf ∧ x.mf ≤ hi) :
    lo ≤ mfBeyond q rate after ∧ mfBeyond q rate after ≤ hi := by
  induction after generalizing q with
  | nil => exact hmf q List.mem_cons_self
  | cons r after ih =>
    rcases Nat.lt_or_ge rate r.rate with hr | hr
    · have := MfPoint.line_bounds hq hr (hmf q List.mem_cons_self) (hmf r (by simp))
      rw [mfBeyond_cons_of_lt hr]
      omega
    · rw [mfBeyond_cons_of_le hr]
      exact ih hr fun x hx => hmf x (List.mem_cons_of_mem _ hx)

/-- The points below a point at or below the rate play no part. -/
theorem mfBeyond_skips (hrising : ((first :: rest).map MfPoint.rate).Pairwise (· < ·)) (hpoints : first :: rest = before ++ q :: after)
    (hq : q.rate ≤ rate) : mfBeyond first rate rest = mfBeyond q rate after := by
  induction before generalizing first rest with
  | nil =>
    obtain ⟨rfl, rfl⟩ := List.cons.inj hpoints
    rfl
  | cons x before ih =>
    obtain ⟨-, hrest⟩ := List.cons.inj hpoints
    obtain ⟨y, tail, rfl⟩ : ∃ y tail, rest = y :: tail := List.exists_cons_of_ne_nil (by simp [hrest])
    have htail := List.Pairwise.of_cons hrising
    have hy : y.rate ≤ q.rate := by
      have hmem : q ∈ y :: tail := by simp [hrest]
      rcases List.mem_cons.mp hmem with rfl | hmem
      · exact le_rfl
      · exact (List.rel_of_pairwise_cons htail (List.mem_map_of_mem hmem)).le
    rw [mfBeyond_cons_of_le (hy.trans hq), ih htail hrest]

section Table

variable {table : MfTable}

theorem MfTable.at_of_le (hrate : rate ≤ table.first.rate) : table.at rate = table.first.mf := if_pos hrate

theorem MfTable.at_bounds (hmf : ∀ x ∈ table.first :: table.rest, lo ≤ x.mf ∧ x.mf ≤ hi) :
    lo ≤ table.at rate ∧ table.at rate ≤ hi := by
  rw [MfTable.at]
  split
  · exact hmf _ List.mem_cons_self
  · exact mfBeyond_bounds (by omega) hmf

variable (hrising : ((table.first :: table.rest).map MfPoint.rate).Pairwise (· < ·))
include hrising

/-- From a point at or below the rate the factor is found among the points from there on. -/
theorem MfTable.at_of_point (hpoints : table.first :: table.rest = before ++ q :: after) (hq : q.rate ≤ rate) :
    table.at rate = mfBeyond q rate after := by
  rw [← mfBeyond_skips hrising hpoints hq]
  rcases Nat.lt_or_ge table.first.rate rate with hlt | hle
  · exact if_neg (Nat.not_le.mpr hlt)
  · have hfirst : table.first.rate = rate := by
      refine le_antisymm (le_trans ?_ hq) hle
      have hmem : q ∈ table.first :: table.rest := by simp [hpoints]
      rcases List.mem_cons.mp hmem with rfl | hmem
      · exact le_rfl
      · exact (List.rel_of_pairwise_cons hrising (List.mem_map_of_mem hmem)).le
    rw [MfTable.at_of_le hle, ← hfirst, mfBeyond_at_first hrising]

theorem MfTable.at_point (hq : q ∈ table.first :: table.rest) : table.at q.rate = q.mf := by
  obtain ⟨before, after, hpoints⟩ := List.append_of_mem hq
  rw [MfTable.at_of_point hrising hpoints le_rfl]
  refine mfBeyond_at_first (List.Pairwise.sublist ?_ hrising)
  rw [hpoints]
  exact (List.sublist_append_right ..).map _

theorem MfTable.at_of_ge_last (hlast : (table.first :: table.rest).getLast? = some q) (hq : q.rate ≤ rate) :
    table.at rate = q.mf := by
  obtain ⟨before, hpoints⟩ := List.getLast?_eq_some_iff.mp hlast
  rw [MfTable.at_of_point hrising hpoints hq, mfBeyond_nil]

theorem MfTable.at_between (hmf : ∀ x ∈ table.first :: table.rest, lo ≤ x.mf ∧ x.mf ≤ hi)
    (hpoints : table.first :: table.rest = before ++ q :: r :: after) (hq : q.rate ≤ rate) (hr : rate < r.rate) :
    (table.at rate : Int) = q.line r rate := by
  have := MfPoint.line_bounds hq hr (hmf q (by simp [hpoints])) (hmf r (by simp [hpoints]))
  rw [MfTable.at_of_point hrising hpoints hq, mfBeyond_cons_of_lt hr, Int.toNat_of_nonneg (by omega)]

end Table

theorem MeterParameters.mfAt_bounds (hunity : lo ≤ 100000 ∧ 100000 ≤ hi)
    (hmf : ∀ x ∈ p.mf.first :: p.mf.rest, lo ≤ x.mf ∧ x.mf ≤ hi) : lo ≤ p.mfAt rate ∧ p.mfAt rate ≤ hi := by
  by_cases hk : p.kMilli = none
  · rw [p.mfAt_of_none hk]
    exact hunity
  · rw [p.mfAt_of_ne_none hk]
    exact MfTable.at_bounds hmf

/-! ### The correction factor (R105) -/

theorem vcf_bounds (alpha : Nat) (t : Int) : 90000 ≤ vcf alpha t ∧ vcf alpha t ≤ 110000 := by
  rw [vcf]
  omega

theorem vcf_cast (alpha : Nat) (t : Int) :
    (vcf alpha t : Int) =
      if vcfUnclamped alpha t < 90000 then 90000 else if 110000 < vcfUnclamped alpha t then 110000 else vcfUnclamped alpha t := by
  rw [vcf]
  omega

/-- The five steps of R105, each rounding given by its bounds. -/
theorem vcfUnclamped_eq {alpha : Nat} {t x s w : Int} (hx : x = alpha * (t - 1500))
    (hslow : s * 10000000000 ≤ 8 * x * x + 5000000000) (hshigh : 8 * x * x + 5000000000 < (s + 1) * 10000000000)
    (hwlow : w * 10000 ≤ 1000000000 - x - s + 5000) (hwhigh : 1000000000 - x - s + 5000 < (w + 1) * 10000) :
    vcfUnclamped alpha t = w := by
  have hs : (8 * x * x + 5000000000) / 10000000000 = s := by omega
  have hw : (1000000000 - x - s + 5000) / 10000 = w := by omega
  rw [← hw, ← hs, hx]
  rfl

/-! ### The increments and their residues (R101, R106) -/

/-- An interval with no raw millilitre leaves the gross residue as the numerator. -/
theorem MeterParameters.grossNum_of_no_raw (hraw : m.rawMl p.k h = 0) : p.grossNum m h = m.grossResidue := by
  rw [MeterParameters.grossNum, hraw, Nat.zero_mul, Nat.zero_add]

theorem meterInterval_rate (p : MeterParameters) (m : MeteringChannel) (part : Option MeteringPart) (h : Handover) :
    (meterInterval p m part h).channel.rate = (m.afterRaw p.k h).rate := by
  have hwindow : (meterInterval p m part h).channel.rateWindow = (m.afterRaw p.k h).rateWindow := rfl
  rw [MeteringChannel.rate, hwindow, MeteringChannel.rate]

theorem meterInterval_shownTemperature (p : MeterParameters) (m : MeteringChannel) (part : Option MeteringPart) (h : Handover) :
    (meterInterval p m part h).channel.shownTemperature = workingTemperature (p.windowAfter m part h.raw) := rfl

/-- What an interval credits, by its numerators. -/
theorem meterInterval_credits {rawMl grossNum netNum : Nat} (hraw : m.rawMl p.k h = rawMl)
    (hgross : rawMl * p.mfAt (meterInterval p m part h).channel.rate + m.grossResidue = grossNum)
    (hnet : grossNum / 100000 * vcf p.alpha ((meterInterval p m part h).channel.shownTemperature.getD p.fallback) + m.netResidue = netNum) :
    (meterInterval p m part h).channel.grossResidue = grossNum % 100000
      ∧ (meterInterval p m part h).channel.netResidue = netNum % 100000
      ∧ (meterInterval p m part h).channel.gross = (m.gross + grossNum / 100000) % 1000000000000
      ∧ (meterInterval p m part h).channel.net = (m.net + netNum / 100000) % 1000000000000
      ∧ (∀ y, part = some y → ∃ z, (meterInterval p m part h).part = some z ∧ z.gross = y.gross + grossNum / 100000
        ∧ z.net = y.net + netNum / 100000)
      ∧ (rawMl = 0 → m.grossResidue < 100000 →
        grossNum / 100000 = 0 ∧ (meterInterval p m part h).channel.grossResidue = m.grossResidue) := by
  have hgrossEq : grossNum = p.grossNum m h := by rw [← hgross, meterInterval_rate, ← hraw, MeterParameters.grossNum]
  have hnetEq : netNum = p.netNum m part h := by
    rw [← hnet, meterInterval_shownTemperature, hgrossEq, MeterParameters.netNum, MeterParameters.temperatureUsed]
  obtain ⟨⟨hgrossResidue, hnetResidue⟩, hgrossTotal, hnetTotal⟩ := meterInterval_channel p m part h
  rw [hgrossEq, hnetEq]
  refine ⟨hgrossResidue, hnetResidue, hgrossTotal, hnetTotal, fun y hy => ?_, fun hzero hresidue => ?_⟩
  · subst hy
    obtain ⟨z, hz, -, hzgross, hznet⟩ := meterInterval_part p m y h
    exact ⟨z, hz, hzgross, hznet⟩
  · rw [hgrossResidue, MeterParameters.grossNum_of_no_raw (hraw.trans hzero)]
    exact ⟨Nat.div_eq_of_lt hresidue, Nat.mod_eq_of_lt hresidue⟩

/-- Settles O46: the stages' formulas by the numerators, the factor of R105 by its bounds, and the table along its points. -/
theorem grossAndNetAreCorrected : Obligations.GrossAndNetAreCorrected := by
  refine ⟨fun p m part h => meterInterval_credits rfl rfl rfl, vcf_bounds,
    fun alpha t x s w hx hslow hshigh hwlow hwhigh => ?_, fun p rate hrising hmf => ?_⟩
  · have hw := vcfUnclamped_eq hx hslow hshigh hwlow hwhigh
    exact ⟨hw, hw ▸ vcf_cast alpha t⟩
  · obtain ⟨hlow, hhigh⟩ := p.mfAt_bounds (by decide) hmf
    refine ⟨hlow, hhigh, fun hk => p.mfAt_of_none hk rate, fun hk q hq hrate => ?_, fun hk hrate => ?_, fun hk q hlast hq => ?_,
      fun hk before after q r hpoints hq hr => ?_⟩
    all_goals rw [p.mfAt_of_ne_none hk]
    · rw [← hrate, MfTable.at_point hrising hq]
    · exact MfTable.at_of_le hrate
    · exact MfTable.at_of_ge_last hrising hlast hq
    · exact MfTable.at_between hrising hmf hpoints hq hr

end Sys2Proof.Machine
end
